-- ==== Sys2Proof/Word.lean ====
section
/-! DEFINITION. Word and map types of the model, and the plainest arithmetic on them. -/

namespace Sys2Proof

/-- A byte. -/
abbrev Byte := BitVec 8

/-- A 64-bit register value, as R10 gives the widest register. -/
abbrev Word := BitVec 64

/-- Sparse data by key: keys strictly rising, no entry equal to the value an unlisted key reads as. -/
abbrev SMap (α : Type) := List (Nat × α)

/-- Byte memory: the host's cells in canonical form. An unlisted address reads as zero (R395). -/
abbrev Mem := List Host.Cell

/-- Which half of a 64-bit register an access covers (R329, R427). -/
inductive RegPart where
  | whole
  | low
  | high
  deriving DecidableEq, Repr

end Sys2Proof
end

