-- ==== Sys2Proof/Operand.lean ====
section
/-! DEFINITION. Records the commands carry: Glahus instructions, packets, descriptors, and the
answers of the world outside the module (host memory, links, sensors). -/

namespace Sys2Proof

/-- The operand fields of a Glahus instruction (Table 5-3), without its opcode. -/
structure GInstr where
  canon : Bool := false
  conj  : Bool := false
  f0    : Nat := 0
  f1    : Nat := 0
  f2    : Nat := 0
  pset  : Nat := 0
  param : Nat := 0
  imm8  : Nat := 0
  imm64 : Nat := 0
  rx    : Nat := 0
  ry    : Nat := 0
  deriving DecidableEq, Repr

/-- An endpoint command (Table 9-5). -/
structure EpCmd where
  index : Nat := 0
  setf  : Bool := false
  flag  : Nat := 0
  row   : Nat := 0
  len   : Nat := 0
  doneQ : Nat := 0
  /-- the reserved bits: [15:14], [47:46] and [127:52] from bit 0 on -/
  reserved : Nat := 0
  /-- CMD where it holds a reserved value (0 or 6 to 15) in place of the row's own -/
  badCmd : Option Nat := none
  deriving DecidableEq, Repr

/-- A fabric packet (Table 11-3) with its data units as bytes. -/
structure Packet where
  type   : Nat := 0
  vc     : Nat := 0
  detour : Bool := false
  units  : Nat := 0
  dest   : Nat := 0
  src    : Nat := 0
  pseq   : Nat := 0
  coll   : Nat := 255
  inst   : Nat := 0
  offset : Nat := 0
  part   : Nat := 0
  body   : List Byte := []
  deriving DecidableEq, Repr

/-- What a training attempt meets on the link (R294, R295). -/
structure TrainIn where
  /-- the training is still under way when this is seen -/
  running  : Bool := false
  /-- microseconds until lane 0 locks; none: it does not -/
  lockUs   : Option Nat := some 0
  /-- microseconds until every lane is equalised and locked at the level's rate; none: they are not -/
  eqUs     : Option Nat := some 0
  peerAddr : Nat := 0
  peerLo   : Nat := 1
  peerHi   : Nat := 2
  /-- uncorrectable and corrected symbols of each lane in the lane test -/
  laneTest : List (Nat × Nat) := List.replicate 8 (0, 0)
  deriving DecidableEq, Repr

/-- What the fetch and broadcast of a control word meet (R107, R112): nothing, an uncorrectable error of control memory, or
of the bridge that carries the word to the other die. -/
inductive FetchErr where
  | ok
  | cmem
  | bridge
  deriving DecidableEq, Repr

/-- The next word of a sequencer, and what its fetch meets. -/
structure WordIn where
  seq : Nat := 0
  fetch : FetchErr := .ok
  deriving DecidableEq, Repr

/-- A submission entry by its fields (Table 12-11). -/
structure SubEntry where
  opcode : Nat := 0
  cid    : Nat := 0
  part   : Nat := 0
  a0     : Nat := 0
  a1     : Nat := 0
  a2     : Nat := 0
  a3     : Nat := 0
  /-- the reserved bits [15:8], [63:35] and [511:320], as one number -/
  reserved : Nat := 0
  deriving DecidableEq, Repr

/-- Fields of a PK_CTRL write with GO = 1, apart from OP (Table 13-12). -/
structure PkReq where
  slot    : Nat := 0
  curve   : Nat := 0
  ecdhKey : Bool := false
  rsaLen  : Nat := 0
  reserved : Nat := 0
  deriving DecidableEq, Repr

/-- The engine's microcode in a firmware bank (R357): where the body holds it, its version, and its signature. The spec gives the body
no layout, so these stand beside it. -/
structure Microcode where
  place   : Nat := 0
  length  : Nat := 0
  version : Nat := 0
  sigR    : Nat := 0
  sigS    : Nat := 0
  deriving DecidableEq, Repr

/-- A firmware bank of flash (R397): the bytes written to it from its start on, the rest of it erased; and its microcode. -/
structure FwBank where
  bytes : List Byte := []
  micro : Microcode := {}
  deriving DecidableEq, Repr

/-- How a write of a firmware bank goes (R396, R398): to its end, into a flash error, or it is still under way when the next command
arrives. -/
inductive FlashEnd where
  | ok
  | failed
  | running
  deriving DecidableEq, Repr

/-- How a write of a slot goes (R281, Table 10-11): to its end; into a flash error; its signature check's two evaluations disagree
(R360); or it is still under way when the next command arrives, in steps 2 to 5, or in step 6 where the other slot asks for it. -/
inductive NvEnd where
  | ok
  | failed
  | mismatch
  | running
  | lastStep
  deriving DecidableEq, Repr

/-- How a load of an image goes (R273, R406): to its end; into an uncorrectable error of the image buffer; its signature check's two
evaluations disagree (R360); or it is still under way when the next command arrives, before step 4 or from step 4 on. -/
inductive LoadEnd where
  | whole
  | bufferBad
  | mismatch
  | beforeInstall
  | installing
  deriving DecidableEq, Repr

/-- What the selection of an image meets (R282): whether the factory image's signature verifies (R269), and whether the two
evaluations of the first candidate's check disagree (R360). -/
structure SelectIn where
  imageOk : Bool := true
  mismatch : Bool := false
  deriving DecidableEq, Repr

/-- 1,024 samples of a healthy source. -/
def steadySamples : List Nat := (List.range 1024).map (fun i => i % 251)

/-- What a start-up meets (R392): outcomes no register decides. -/
structure StartIn where
  /-- the bank chosen first fails start-up (R398) -/
  bankFails : Bool := false
  /-- lines the start-up memory test finds failing, as stack addresses -/
  failLines : List Nat := []
  /-- lines it finds with a corrected error of more than 2 symbols (R223) -/
  softLines : List Nat := []
  /-- the samples the start-up entropy tests run over (R363) -/
  samples : List Nat := steadySamples
  /-- the own health test of the security or of the noise instance fails (R363) -/
  secFails : Bool := false
  noiseFails : Bool := false
  /-- the factory record verifies (R410) -/
  factoryOk : Bool := true
  /-- what the selection of the image meets -/
  image : SelectIn := {}
  /-- the queues, as function and number, whose fetched descriptor its service core had begun (R396, R406) -/
  begun : List (Nat × Nat) := []
  deriving DecidableEq, Repr

/-- A request for a change of owner or a plain scrub (R284, R364): whether the owner record is programmed, and the samples the
wipe's start-up entropy tests run over. -/
structure OwnerIn where
  flashOk : Bool := true
  samples : List Nat := steadySamples
  deriving DecidableEq, Repr

/-- An SPDM request that the public-key engine serves: its transport (true: PCIe DOE), and whether the engine's two evaluations
disagree (R360). -/
structure SpdmIn where
  doe : Bool := false
  mismatch : Bool := false
  deriving DecidableEq, Repr

/-- What a requester offers in NEGOTIATE_ALGORITHMS (Table 13-4): its highest SPDM version; SHA-384, ECDSA P-384 and AES-256-GCM;
secp256r1 and secp384r1. -/
structure AlgOffer where
  version : Nat := 0x13
  sha384  : Bool := true
  ecdsa   : Bool := true
  aesGcm  : Bool := true
  p256    : Bool := true
  p384    : Bool := true
  deriving DecidableEq, Repr

/-- What an IDE_KM message does with a key set of a stream (R351): it programs the set's key, makes the set the one in use, or
stops the stream. -/
inductive IdeOp where
  | program
  | go
  | stop
  deriving DecidableEq, Repr

/-- An IDE_KM message: a key, its key set, and what to do with it; `cxl`: for the CXL IDE stream. -/
structure IdeKeyIn where
  key  : Nat := 0
  kset : Bool := false
  op   : IdeOp := .program
  cxl  : Bool := false
  deriving DecidableEq, Repr

/-- What a stack self-test reads of a unit that it does not find good (R409): its MISR, and whether a line is uncorrectable. -/
structure UnitResult where
  unit : Nat := 0
  misr : Nat := 0
  uncorrectable : Bool := false
  deriving DecidableEq, Repr

/-- Temperatures read for a die: its junction maximum and its six stacks, in 1/16 °C (R380). -/
structure DieTemps where
  die    : Int := 0
  stks : List Int := []
  deriving DecidableEq, Repr

/-- Why a controller retires a pseudo-channel (R224): 64 sparings in an hour, parity failures, failed retraining. -/
inductive RetireCause where
  | sparings
  | parity
  | retraining
  deriving DecidableEq, Repr

/-- A pseudo-channel to retire, and why (R224). -/
structure RetireIn where
  pc : Nat := 0
  why : RetireCause := .sparings
  deriving DecidableEq, Repr

/-- What a line's home cache meets on a read: a cache error, 0 none, 1 corrected, 2 uncorrectable (R216); and whether the requester
allocates the line (Table 8-3). -/
structure CacheIn where
  err : Nat := 0
  allocate : Bool := false
  /-- the BAR0 block of the requester (Table 15-7) -/
  requester : Nat := 0
  deriving DecidableEq, Repr

/-- A stretch of a migration (R225): row groups copied, whether the channel has stopped responding, and the lines that could not
be read. -/
structure MigrationIn where
  groups : Nat := 0
  dead : Bool := false
  badLines : List Nat := []
  deriving DecidableEq, Repr

/-- A write of PART_CTRL.TEARDOWN: the partition, and whether PF0 writes it or the management interface (R276, R353). -/
structure TeardownIn where
  part : Nat := 0
  byPf0 : Bool := true
  deriving DecidableEq, Repr

/-- A raise of a die's voltage margin (R383); `cut`: a loss of power interrupts the write of its entry. -/
structure AgeIn where
  die : Nat := 0
  cut : Bool := false
  deriving DecidableEq, Repr

/-- A write of NOISE_CTRL with GO: the partition, and whether PF0 or the runtime firmware writes it (R201, R353). -/
structure NoiseIn where
  part : Nat := 0
  byPf0 : Bool := false
  deriving DecidableEq, Repr

/-- The cause of a device reset (Table 15-14, RESET_CAUSE.CAUSE 2 to 7). -/
inductive ResetCause where
  | perst
  | hotReset
  | moduleReset
  | escalation
  | exitTripped
  | exitFatal
  deriving DecidableEq, Repr

/-- How a request of a function arrives (R323, R351, R352): outside its IDE stream, on it with the T bit, or on it with a failed
integrity check; or over CXL.mem, in order or with a failed check of CXL IDE. -/
inductive Tlp where
  | plain
  | ide
  | badIde
  | cxlMem
  | badCxlMem
  deriving DecidableEq, Repr

/-- A configuration access (Tables 12-1 and 12-2, R326, R327, R371). -/
inductive CfgAccess where
  /-- a Resizable BAR change of a function's BAR2 to 2^s bytes -/
  | bar2Size (fn s : Nat)
  /-- SR-IOV NumVFs with VF Enable -/
  | numVfs (n : Nat)
  /-- D3hot, or D0 -/
  | powerState (fn : Nat) (d3 : Bool)
  /-- Max Payload Size, 128 · 2^code bytes -/
  | maxPayload (fn code : Nat)
  /-- Max Read Request Size, 128 · 2^code bytes -/
  | maxRead (fn code : Nat)
  /-- an entry of the MSI-X table, whose place in a BAR Table 12-3 does not give -/
  | msixVector (fn vec addr data : Nat) (masked : Bool)
  /-- ASPM L1 and L1 PM Substates -/
  | aspm (on : Bool)
  /-- PTM, as a requester -/
  | ptm (on : Bool)
  /-- the AER mask of a function -/
  | aerMask (fn mask : Nat)
  /-- the HDM decoder of PF0: its base in the host's address space, or not committed -/
  | hdmDecoder (base : Option Nat)
  /-- a read of the vendor and device identifiers -/
  | readId (fn : Nat)
  /-- any other configuration access -/
  | other
  deriving DecidableEq, Repr

/-- A write of LEDGER_CTRL: the partition, and how the request arrives: from PF0, or from the VF that serves the partition. -/
structure LedgerIn where
  part : Nat := 0
  byVf : Bool := false
  tlp : Tlp := .plain
  deriving DecidableEq, Repr

end Sys2Proof
end

