-- ==== Sys2Proof/Syntax.lean ====
section
/-! DEFINITION. The commands: one constructor per row of the spec's opcode table, in its order. -/

namespace Sys2Proof

/-- The commands of the block. `q` is a sequencer, `p` a partition, `t` a tile, `i` a stream slot index
(6·engine + slot), `k` a stack, `fn` a function (0 PF0, n VF n), `n` a port or VF. -/
inductive Instr where
  -- control words and kernels (R89 to R116)
  | operate (w : WordIn)
  | nopWord (w : WordIn)
  | beatRead (q : Nat)
  | beatWrite (q : Nat) (bridgeBad : Bool)
  | wordRetire (q : Nat)
  | waitRelease (q : Nat)
  | waitTimeout (q : Nat)
  | replayBoundary (q : Nat)
  | replayFetch (q : Nat)
  | start (q kernel replays : Nat) (noList : Bool)
  | stop (q : Nat)
  | kernelDrainEnd (q : Nat)
  | kernelComplete (q : Nat)
  | loadGo (q dest count : Nat) (table : Bool)
  | loadComplete (q : Nat)
  | ktabWrite (q e : Nat) (v : Word)
  | parameterRegisterWrite (q r : Nat) (v : Word)
  -- counters and registers (R427, R329)
  | counterStackCountWrite (k : Nat) (part : RegPart) (v : Word)
  | counterCacheStatusWrite (d : Nat) (part : RegPart) (v : Word)
  | counterPortCountWrite (n : Nat) (part : RegPart) (v : Word)
  | registerWrite (fn addr size : Nat) (v : Word) (tlp : Tlp)
  -- Glahus (Table 5-4)
  | nop (p : Nat) (g : GInstr)
  | waitt (p : Nat) (g : GInstr)
  | emitt (p : Nat) (g : GInstr)
  | ldct (p : Nat) (g : GInstr)
  | stct (p : Nat) (g : GInstr)
  | bind (p : Nat) (g : GInstr)
  | ldl (p : Nat) (g : GInstr)
  | stl (p : Nat) (g : GInstr)
  | ldt (p : Nat) (g : GInstr)
  | stt (p : Nat) (g : GInstr)
  | ladd (p : Nat) (g : GInstr)
  | lsub (p : Nat) (g : GInstr)
  | lneg (p : Nat) (g : GInstr)
  | lmul (p : Nat) (g : GInstr)
  | lmac (p : Nat) (g : GInstr)
  | lmulc (p : Nat) (g : GInstr)
  | lntt (p : Nat) (g : GInstr)
  | lintt (p : Nat) (g : GInstr)
  | laut (p : Nat) (g : GInstr)
  | cadd (p : Nat) (g : GInstr)
  | csub (p : Nat) (g : GInstr)
  | cneg (p : Nat) (g : GInstr)
  | caddp (p : Nat) (g : GInstr)
  | cmulp (p : Nat) (g : GInstr)
  | cmul (p : Nat) (g : GInstr)
  | cmuli (p : Nat) (g : GInstr)
  | relin (p : Nat) (g : GInstr)
  | rot (p : Nat) (g : GInstr)
  | ksw (p : Nat) (g : GInstr)
  | modup (p : Nat) (g : GInstr)
  | moddown (p : Nat) (g : GInstr)
  | rescale (p : Nat) (g : GInstr)
  | modsw (p : Nat) (g : GInstr)
  | drop (p : Nat) (g : GInstr)
  | toeval (p : Nat) (g : GInstr)
  | tocoef (p : Nat) (g : GInstr)
  | encpk (p : Nat) (g : GInstr)
  | modraise (p : Nat) (g : GInstr)
  | bootclose (p : Nat) (g : GInstr)
  | flood (p : Nat) (g : GInstr)
  | mmul (p : Nat) (g : GInstr)
  | vpass (p : Nat) (g : GInstr)
  | rseed (p : Nat) (g : GInstr)
  | allred (p : Nat) (g : GInstr)
  | bcast (p : Nat) (g : GInstr)
  | gather (p : Nat) (g : GInstr)
  -- streams (R152 to R177)
  | streamArm (t i : Nat)
  | streamGo (t i : Nat)
  | streamAbort (t i : Nat)
  | slotWrite (t i w : Nat) (v : Word)
  | fetchStatusRead (t : Nat)
  | blockListRead (t i : Nat)
  | streamBlockStart (t i : Nat)
  | fetchLineLand (t i : Nat)
  | storeAck (t i : Nat)
  | streamBlockComplete (t i : Nat)
  | streamRunComplete (t i : Nat)
  | streamAbortDrained (t i : Nat)
  | ctHeaderLoad (t i : Nat)
  | keyHeaderCheck (t i : Nat)
  | tensorHeaderRead (t i : Nat)
  | coordinateListRead (t i idx : Nat)
  -- Badger and noise (R229 to R233, R200, R201)
  | badgerChainStart (t i : Nat)
  | badgerChainEnd (t i : Nat) (internalError : Bool)
  | noiseRequestGo (w : NoiseIn)
  | noiseRequestDone (p : Nat)
  -- stack memory (R203 to R234)
  | stackRead (addr symbols : Nat) (cache : CacheIn)
  | stackWrite (addr : Nat) (data : List Byte) (symbols : Nat)
  | correctedWriteback (addr : Nat)
  | atomic (op addr pset entry : Nat) (data : List Word)
  | dirtyWriteback (addr : Nat)
  | patrolScrub (k symbols : Nat)
  | rowSparing (k pc rg : Nat) (badLines : List Nat)
  | pcRetirement (k : Nat) (r : RetireIn)
  | migration (k : Nat) (m : MigrationIn)
  | withdrawal (k u : Nat)
  | healthRecordWrite
  | stackLoss (k : Nat)
  | spareHoldExpiry
  -- messages and ledger (R236 to R261)
  | send (p ep idx : Nat) (c : EpCmd)
  | recv (p ep idx : Nat) (c : EpCmd)
  | close (p ep idx : Nat) (c : EpCmd)
  | openQueue (p ep idx : Nat) (c : EpCmd)
  | clrf (p ep idx : Nat) (c : EpCmd)
  | heldCommandResume (p ep index : Nat) (isSend : Bool)
  | recordArrival (p route : Nat)
  | spillDrain (p ep queue : Nat)
  | spillWriteComplete (p ep queue : Nat)
  | qreset (p ep queue : Nat)
  | flagSet (p mask : Nat)
  | progressWatchdog (p ep queue : Nat)
  | ledgerCheck (p : Nat) (parityError : Bool)
  | snap (l : LedgerIn)
  | dump (l : LedgerIn)
  -- images, flash slots, owner (R262 to R288)
  | load (source : Nat) (host : List Byte) (how : LoadEnd)
  | heldLoadStart (host : List Byte) (how : LoadEnd)
  | teardown (w : TeardownIn)
  | nvWrite (slot : Nat) (host : List Byte) (how : NvEnd)
  | invalidate (slot : Nat)
  | change (i : OwnerIn)
  | scrub (i : OwnerIn)
  | ownerChangeScrubDone (failUnits : List Nat) (image : SelectIn)
  -- fabric (R289 to R320)
  | flitReceive (n : Nat) (body tail : List Byte)
  | replayTimeout (n : Nat)
  | packetForward (n : Nat)
  | portTraining (n : Nat) (link : TrainIn)
  | trainingRetry (n : Nat) (link : TrainIn)
  | laneFailure (n lane : Nat)
  | portDown (n : Nat)
  | retrain (n : Nat) (link : TrainIn)
  | contributionArrival (pkt : Packet)
  | dataArrival (pkt : Packet)
  | landingAcknowledgement (peer vc upTo : Nat)
  | landingAckSend (peer vc : Nat)
  | collSendUp (c : Nat)
  | collResultComplete (c : Nat)
  | collTimeout (c : Nat)
  | ceiling (from_ : Nat) (job step : Nat)
  | epoch (job e f : Nat)
  | epochTimer
  | freqLockLost
  | abort (from_ job coll inst cause origin : Nat)
  | join (from_ job level count : Nat)
  | joinResult (job status : Nat)
  | leave (from_ job origin : Nat)
  | advert (n tol : Nat)
  | joinLimitExpiry
  | frogEntry (n : Nat)
  | frogExit (n : Nat)
  -- host interface (R321 to R345)
  | sqTail (fn q tail : Nat) (tlp : Tlp)
  | cqHead (fn q head : Nat) (tlp : Tlp)
  | qcfgWrite (fn q : Nat) (v : Word) (tlp : Tlp)
  | winBaseWrite (fn : Nat) (v : Word) (tlp : Tlp)
  | descriptorFetch (fn q : Nat) (entry : Option (BitVec 512))
  | nopDescriptor (fn q : Nat)
  | run (fn q : Nat)
  | loadPkg (fn q : Nat)
  | unloadPkg (fn q : Nat)
  | copyIn (fn q : Nat) (host : List Byte)
  | copyOut (fn q : Nat) (hostOkBytes : Nat)
  | ctxSave (fn q : Nat)
  | ctxRestore (fn q : Nat)
  | interruptTimer (fn q : Nat)
  | bar2Read (fn x len : Nat) (tlp : Tlp)
  | bar2Write (fn x : Nat) (data : List Byte) (tlp : Tlp)
  | linkRetrain (speed width : Nat)
  | vfFunctionLevelReset (n : Nat)
  | pf0FunctionLevelReset
  -- management interface (R343, R344)
  | setEndpointId (eid : Nat)
  | getEndpointId
  | getMctpVersionSupport
  | getMessageTypeSupport
  | getEndpointUuid
  | pldmBase (cmd : Nat)
  | pldmMonitoringAndControl (state : Bool) (sensor : Nat)
  | pldmFru
  | pldmFirmwareUpdate (bank : FwBank) (how : FlashEnd)
  | firmwareActivation (startOk : Bool)
  | regRead (addr : Nat)
  | regWrite (addr : Nat) (v : Word)
  | ownerChange (i : OwnerIn)
  | ownerScrub (i : OwnerIn)
  -- SPDM, IDE, TDISP (R350 to R354); `m` false: MCTP, true: PCIe DOE
  | getVersion (m : Bool)
  | getCapabilities (m : Bool)
  | negotiateAlgorithms (m : Bool) (offer : AlgOffer)
  | getCertificate (m : Bool) (slot offset length : Nat)
  | challenge (m : SpdmIn) (slot nonce : Nat)
  | getMeasurements (m : SpdmIn) (index nonce : Nat)
  | keyExchange (m : SpdmIn) (curve : Nat)
  | heartbeat (m : Bool) (sid : Nat)
  | heartbeatTimeout (m : Bool) (sid : Nat)
  | keyUpdate (m : Bool) (sid : Nat)
  | ideKm (sid fn : Nat) (key : IdeKeyIn)
  | lockInterfaceRequest (sid n : Nat)
  | startInterfaceRequest (sid n : Nat)
  | stopInterfaceRequest (sid n : Nat)
  -- key store and public-key engine (R355 to R363)
  | installOwner
  | ecdsaVerify (r : PkReq)
  | ecdsaSign (r : PkReq)
  | ecdh (r : PkReq)
  | gen (r : PkReq)
  | readPublic (r : PkReq)
  | rsaVerify (r : PkReq)
  | pkOperationDone (mismatch : Bool)
  | microcodeCheck (matches_ : Bool)
  | entropySample (sample : Nat)
  -- power and clocks (R368 to R389)
  | enterA1
  | enterLizard
  | enterDeepLizard
  | powerStateExit
  | bankSleepWrite (t : Nat) (v : Word)
  | bankPowerOff (t b : Nat)
  | bankWakeDone (t b : Nat)
  | frequencyChange
  | dutyWindow
  | powerSample (staticW dynamicW input : Nat)
  | capRecompute (staticW dynamicW : Nat)
  | capCeilingRaise
  | thermalThrottle (d : Nat) (temps : DieTemps)
  | thermalStep (d : Nat) (temps : DieTemps)
  | trip (stack : Bool) (index : Nat) (temp : Int)
  | ageingTrim (a : AgeIn)
  | pwrCtrlWrite (v : Word)
  -- resets, faults, self-test (R390 to R412, R418 to R420)
  | coldStart (i : StartIn)
  | deviceReset (cause : ResetCause) (i : StartIn)
  | pwrGoodDeassert
  | refclkLoss
  | watchdogExpiry (c : Nat) (i : StartIn)
  | coreRestartDone (c : Nat)
  | rollbackCounterRaise
  | logicBist (target : Nat)
  | arrayMemoryBist (target : Nat)
  | cacheMemoryBist (target : Nat)
  | stackMemoryBist (target : Nat)
  | bistAbort (target : Nat)
  | bistDone (misr : List (Nat × Nat)) (units : List UnitResult)
  | rasTailWrite (v : Word)
  | fatalClear
  | pwrGoodAssert (i : StartIn)
  | lossOfInput
  | refclkReturn
  | perstDeassertion (i : StartIn)
  | trippedResetRelease (dieTemps stackTemps : List Int) (i : StartIn)
  | configurationAccess (a : CfgAccess)
  | registerRead (fn addr size : Nat) (tlp : Tlp)
  | finish (m : Bool) (sid : Nat)
  | endSession (m : Bool) (sid : Nat)
  | frequencyChangeEnd
  | powerStateExitDone
  deriving DecidableEq, Repr

end Sys2Proof
end

