-- ==== Sys2Proof/Machine/Bits.lean ====
section
/-! DEFINITION. Bit fields, little-endian bytes and sparse maps (R5, R6). -/

namespace Sys2Proof.Machine

/-- Bits [hi:lo] of a number. -/
def bits (n hi lo : Nat) : Nat := (n >>> lo) % 2 ^ (hi + 1 - lo)

/-- Bit i of a number. -/
def bit (n i : Nat) : Bool := n.testBit i

/-- A Bool as a bit. -/
def b2n (b : Bool) : Nat := if b then 1 else 0

/-- A number as signed w-bit two's complement. -/
def toSigned (w n : Nat) : Int :=
  let m := n % 2 ^ w
  if m < 2 ^ (w - 1) then (m : Int) else (m : Int) - (2 ^ w : Nat)

/-- An integer modulo 2^w. -/
def fromSigned (w : Nat) (i : Int) : Nat := (i % ((2 ^ w : Nat) : Int)).toNat

/-- Fields (low bit, value) packed into one number. -/
def pack : List (Nat × Nat) → Nat
  | [] => 0
  | (lo, v) :: r => (v <<< lo) + pack r

/-- Saturating increment of a w-bit counter. -/
def satInc (w n : Nat) : Nat := if n + 1 < 2 ^ w then n + 1 else 2 ^ w - 1

/-- Rounded-up quotient. -/
def ceilDiv (a b : Nat) : Nat := (a + b - 1) / b

/-- n consecutive bytes of a number, least significant first. -/
def toBytes : Nat → Nat → List Byte
  | 0, _ => []
  | n + 1, v => BitVec.ofNat 8 v :: toBytes n (v / 256)

/-- The number whose little-endian bytes are given. -/
def ofBytes : List Byte → Nat
  | [] => 0
  | b :: r => b.toNat + 256 * ofBytes r

/-- The number whose big-endian bytes are given. -/
def ofBytesBE (l : List Byte) : Nat := ofBytes l.reverse

/-- n bytes of a number, most significant first. -/
def toBytesBE (n v : Nat) : List Byte := (toBytes n v).reverse

/-- n bytes of a byte string from an offset, as a little-endian number; bytes beyond the end are 0. -/
def leAt (l : List Byte) (off n : Nat) : Nat := ofBytes ((l.drop off).take n)

/-- The numbers 0 to n − 1. -/
def upTo (n : Nat) : List Nat := List.range n

/-- ASCII bytes of a string's characters. -/
def ascii (s : List Nat) : List Byte := s.map (BitVec.ofNat 8)

/-! ### Sparse maps -/

/-- The value at a key; `d` where the key is not listed. -/
def smGet {α : Type} (d : α) : SMap α → Nat → α
  | [], _ => d
  | (k', v) :: m, k => if k = k' then v else smGet d m k

/-- The map without a key. -/
def smDel {α : Type} (m : SMap α) (k : Nat) : SMap α := m.filter (fun e => e.1 != k)

/-- The map with an entry put before the first larger key. -/
def smIns {α : Type} : SMap α → Nat → α → SMap α
  | [], k, v => [(k, v)]
  | (k', v') :: m, k, v =>
    if k < k' then (k, v) :: (k', v') :: m else (k', v') :: smIns m k v

/-- The map with a value at a key, kept canonical: a default value is not listed. -/
def smSet {α : Type} [DecidableEq α] (d : α) (m : SMap α) (k : Nat) (v : α) : SMap α :=
  if v = d then smDel m k else smIns (smDel m k) k v

/-- The map with a function applied at a key. -/
def smMod {α : Type} [DecidableEq α] (d : α) (m : SMap α) (k : Nat) (f : α → α) : SMap α :=
  smSet d m k (f (smGet d m k))

/-- Keys strictly rising from a bound. -/
def smRising {α : Type} : Option Nat → SMap α → Bool
  | _, [] => true
  | none, (k, _) :: m => smRising (some k) m
  | some b, (k, _) :: m => decide (b < k) && smRising (some k) m

/-- The canonical form: keys strictly rising, no default value listed. -/
def smWf {α : Type} [DecidableEq α] (d : α) (m : SMap α) : Bool :=
  smRising none m && m.all (fun e => decide (e.2 ≠ d))

/-! ### Byte memory -/

/-- The canonical form of a byte memory. -/
abbrev Mem.wf (m : Mem) : Bool := smWf (0 : Byte) m

/-- One byte; 0 where nothing is listed (R395). -/
def memByte (m : Mem) (a : Nat) : Byte := smGet 0 m a

/-- Write one byte. -/
def memPut (m : Mem) (a : Nat) (b : Byte) : Mem := smSet 0 m a b

/-- n bytes from an address. -/
def memBytes (m : Mem) : Nat → Nat → List Byte
  | _, 0 => []
  | a, n + 1 => memByte m a :: memBytes m (a + 1) n

/-- Write bytes from an address up. -/
def memWrite (m : Mem) : Nat → List Byte → Mem
  | _, [] => m
  | a, b :: r => memWrite (memPut m a b) (a + 1) r

/-- A little-endian number of n bytes. -/
def memLE (m : Mem) (a n : Nat) : Nat := ofBytes (memBytes m a n)

/-- Write a number as n little-endian bytes. -/
def memPutLE (m : Mem) (a n v : Nat) : Mem := memWrite m a (toBytes n v)

/-- Clear n bytes from an address: they read as zero again. -/
def memClear (m : Mem) (a n : Nat) : Mem := m.filter (fun e => !(decide (a ≤ e.1) && decide (e.1 < a + n)))

end Sys2Proof.Machine
end

