-- ==== Sys2Proof/Machine/Arith.lean ====
section
/-! DEFINITION. Residue arithmetic, transforms, automorphisms and noise logarithms (R27 to R50, R65). -/

namespace Sys2Proof.Machine

/-- Subtract m when the value is at least m. -/
def condSub (v m : Nat) : Nat := if m ≤ v then v - m else v

/-- Folding of a 36-bit operand (R28): five conditional subtractions. -/
def fold (v q : Nat) : Nat :=
  condSub (condSub (condSub (condSub (condSub v (16 * q)) (8 * q)) (4 * q)) (2 * q)) q

/-- The stored reciprocal ⌊2^76 / q⌋ (Table 2-1). -/
def muOf (q : Nat) : Nat := 2 ^ 76 / q

/-- Reduction by the precomputed reciprocal (R32). -/
def reduce (x q mu : Nat) : Nat :=
  let qhat := ((x >>> 31) * mu) >>> 45
  let r := (x % 2 ^ 64 + 2 ^ 64 - qhat * q % 2 ^ 64) % 2 ^ 64
  condSub (condSub r q) q

/-- Shoup companion of a constant (R34). -/
def shoupCompanion (w q : Nat) : Nat := (w <<< 36) / q

/-- Multiplication by a constant in Shoup form (R34). -/
def mulShoup (a w wp q : Nat) : Nat :=
  let t := (a * wp) >>> 36
  condSub ((a * w % 2 ^ 64 + 2 ^ 64 - t * q % 2 ^ 64) % 2 ^ 64) q

/-! Primitive modular operations on folded operands (Table 2-3). -/

/-- add -/
def addM (q a b : Nat) : Nat := condSub (a + b) q
/-- sub -/
def subM (q a b : Nat) : Nat := if b ≤ a then a - b else a + q - b
/-- neg -/
def negM (q a : Nat) : Nat := if a = 0 then 0 else q - a
/-- mul -/
def mulM (q a b : Nat) : Nat := reduce (a * b) q (muOf q)
/-- mul_add -/
def mulAddM (q a b c : Nat) : Nat := reduce (a * b + c) q (muOf q)
/-- mul_const -/
def mulConstM (q a w : Nat) : Nat := mulShoup a w (shoupCompanion w q) q

/-- Modular power by repeated squaring over the exponent's bits. -/
def powMod (q b : Nat) : Nat → Nat → Nat
  | 0, _ => 1 % q
  | fuel + 1, e =>
    if e = 0 then 1 % q
    else
      let h := powMod q (b * b % q) fuel (e / 2)
      if e % 2 = 1 then h * (b % q) % q else h

/-- Power modulo q with enough fuel for the exponent. -/
def powM (q b e : Nat) : Nat := powMod q b (e.log2 + 1) e

/-- Bit reversal of the n low bits. -/
def brv : Nat → Nat → Nat
  | 0, _ => 0
  | n + 1, j => (j % 2) * 2 ^ n + brv n (j / 2)

/-- Strong-probable-prime test to one base (Table 2-1, condition 3): q − 1 = d·2^s. -/
def sprpLoop (q : Nat) : Nat → Nat → Bool
  | 0, _ => false
  | fuel + 1, x => x == q - 1 || sprpLoop q fuel (x * x % q)

/-- Split of q − 1 into an odd part and a power of two. -/
def oddPart : Nat → Nat → Nat × Nat
  | 0, n => (n, 0)
  | fuel + 1, n =>
    if n % 2 = 0 ∧ n ≠ 0 then
      let r := oddPart fuel (n / 2)
      (r.1, r.2 + 1)
    else (n, 0)

/-- Strong-probable-prime test to one base. -/
def sprp (q b : Nat) : Bool :=
  let (d, s) := oddPart 64 (q - 1)
  let x := powM q b d
  x == 1 || sprpLoop q s x

/-- Primes a device accepts pass the test to these bases (Table 2-1). -/
def passesBases (q : Nat) : Bool := [2, 3, 5, 7, 11].all (sprp q)

/-- ψ_n for a set whose largest log N is L (Table 2-2). -/
def psiN (q psi L n : Nat) : Nat := powM q psi (2 ^ (L - n))

/-- Forward twiddle F_n[j] (Table 2-2). -/
def twiddleF (q psin n j : Nat) : Nat := powM q psin (brv n j)

/-- Inverse modulo a prime. -/
def invM (q a : Nat) : Nat := powM q a (q - 2)

/-- Inverse twiddle G_n[j] (Table 2-2). -/
def twiddleG (q psin n j : Nat) : Nat := invM q (twiddleF q psin n j)

/-- N⁻¹ for N = 2^n (Table 2-2). -/
def nInv (q n : Nat) : Nat := q - (q - 1) / 2 ^ n

/-- Butterfly of the forward transform (Table 2-3). -/
def butterflyCt (q u v w : Nat) : Nat × Nat :=
  let t := mulConstM q v w
  (addM q u t, subM q u t)

/-- Butterfly of the inverse transform (Table 2-3). -/
def butterflyGs (q u v w : Nat) : Nat × Nat := (addM q u v, mulConstM q (subM q u v) w)

/-- One stage of the forward network on a group of 2t elements. -/
def ctGroup (q w t : Nat) (g : List Nat) : List Nat :=
  let p := (g.take t).zipWith (fun u v => butterflyCt q u v w) (g.drop t)
  p.map Prod.fst ++ p.map Prod.snd

/-- One stage of the inverse network on a group of 2t elements. -/
def gsGroup (q w t : Nat) (g : List Nat) : List Nat :=
  let p := (g.take t).zipWith (fun u v => butterflyGs q u v w) (g.drop t)
  p.map Prod.fst ++ p.map Prod.snd

/-- Apply a stage to m groups of 2t elements, group i with twiddle number m + i. -/
def stage (f : Nat → List Nat → List Nat) (t : Nat) : Nat → Nat → List Nat → List Nat
  | 0, _, a => a
  | m + 1, j, a => f j (a.take (2 * t)) ++ stage f t m (j + 1) (a.drop (2 * t))

/-- Forward stages from stage s for `left` further stages (R44). -/
def nttLoop (q psin n : Nat) : Nat → Nat → List Nat → List Nat
  | 0, _, a => a
  | left + 1, s, a =>
    let t := 2 ^ (n - 1 - s)
    nttLoop q psin n left (s + 1)
      (stage (fun j g => ctGroup q (twiddleF q psin n j) t g) t (2 ^ s) (2 ^ s) a)

/-- The forward transform of a folded limb (R42). -/
def nttForward (q psin n : Nat) (a : List Nat) : List Nat := nttLoop q psin n n 0 a

/-- Inverse stages n − 1 down to 0 (R44). -/
def inttLoop (q psin n : Nat) : Nat → List Nat → List Nat
  | 0, a => a
  | s + 1, a =>
    let t := 2 ^ (n - 1 - s)
    inttLoop q psin n s (stage (fun j g => gsGroup q (twiddleG q psin n j) t g) t (2 ^ s) (2 ^ s) a)

/-- The inverse transform of a folded limb, with its N⁻¹ pass (R43). -/
def nttInverse (q psin n : Nat) (a : List Nat) : List Nat :=
  (inttLoop q psin n n a).map (fun x => mulConstM q x (nInv q n))

/-- Element i of a limb; 0 beyond its end. -/
def el (a : List Nat) (i : Nat) : Nat := a.getD i 0

/-- The automorphism in the coefficient domain (R45): the value that lands at index j. The source of j is
the index i with i·k ≡ j or j + N modulo 2N; k⁻¹ modulo 2N gives it. -/
def automorphCoeff (q n k : Nat) (a : List Nat) : List Nat :=
  let N := 2 ^ n
  let kinv := powM (2 * N) k (N - 1)
  (List.range N).map (fun j =>
    let i := j * kinv % (2 * N)
    if i < N then el a i else negM q (el a (i - N)))

/-- The automorphism in the evaluation domain (R46). -/
def automorphEval (n k : Nat) (a : List Nat) : List Nat :=
  let N := 2 ^ n
  (List.range N).map (fun j => el a (brv n ((k * (2 * brv n j + 1) % (2 * N) - 1) / 2)))

/-- The Galois element of a rotation index and conjugate flag (R47). -/
def galoisOf (n r : Nat) (c : Bool) : Nat :=
  let N := 2 ^ n
  let k := powM (2 * N) 5 (r % (N / 2))
  if c then 2 * N - k else k

/-- R48: a directly named Galois element is refused when it is even or at least 2N. -/
def galoisBad (n k : Nat) : Bool := k % 2 == 0 || decide (2 * 2 ^ n ≤ k)

/-! ### Logarithms in 1/256 units -/

/-- ⌊256·log2 q⌋, the greatest y with 2^y ≤ q^256 (Table 3-4, below). -/
def lq (q : Nat) : Nat := (q ^ 256).log2

/-- ⌈256·log2 t⌉, the least y with 2^y ≥ t^256. -/
def logT (t : Nat) : Nat :=
  let y := (t ^ 256).log2
  if 2 ^ y = t ^ 256 then y else y + 1

/-- LADD[k] = ⌈256·log2(1 + 2^(−k/4))⌉ (R65): the 64 values of the formula, evaluated. -/
def laddTable : List Nat :=
  [256, 226, 198, 173, 150, 130, 112, 97, 83, 71, 61, 52, 44, 37, 32, 27,
   23, 19, 16, 14, 12, 10, 9, 7, 6, 5, 5, 4, 3, 3, 3, 2]
  ++ [2, 2, 2, 1, 1, 1, 1, 1, 1, 1, 1, 1, 1, 1, 1, 1,
   1, 1, 1, 1, 1, 1, 1, 1, 1, 1, 1, 1, 1, 1, 1, 1]

/-- Sum of two bounds (R65). -/
def ladd (a b : Nat) : Nat :=
  if a = 0xFFFF ∨ b = 0xFFFF then 0xFFFF
  else
    let hi := max a b
    let d := max a b - min a b
    let r := hi + (if d < 4096 then laddTable.getD (d / 64) 1 else 1)
    if 0xFFFE < r then 0xFFFF else r

/-- Saturating difference with a modulus term (R65). -/
def lsub (a b : Nat) : Nat := if a = 0xFFFF then 0xFFFF else if b < a then a - b else 0

/-- A bound stored in 16 bits: every result above 0xFFFE becomes 0xFFFF (R65). -/
def satB (n : Nat) : Nat := if 0xFFFE < n then 0xFFFF else n

/-- A bound plus a term, 0xFFFF staying 0xFFFF (R65). -/
def plusB (b t : Nat) : Nat := if b = 0xFFFF then 0xFFFF else satB (b + t)

end Sys2Proof.Machine
end

