-- ==== Sys2Proof/Machine/Hash.lean ====
section
/-! DEFINITION. SHAKE-128, SHA-384 and AES-128 as the standards the spec names define them (R53, R57,
R60, R264, R194). Assumption log 9. -/

namespace Sys2Proof.Machine

/-- Rotate a 64-bit word left. -/
def rotl64 (x : Word) (n : Nat) : Word := x.rotateLeft n

/-- Item i of a list of words; 0 beyond its end. -/
def wd (l : List Word) (i : Nat) : Word := l.getD i 0

/-- Round constants of Keccak-f[1600]. -/
def keccakRc : List Word :=
  [0x1, 0x8082, 0x800000000000808a, 0x8000000080008000,
   0x808b, 0x80000001, 0x8000000080008081, 0x8000000000008009,
   0x8a, 0x88, 0x80008009, 0x8000000a,
   0x8000808b, 0x800000000000008b, 0x8000000000008089, 0x8000000000008003,
   0x8000000000008002, 0x8000000000000080, 0x800a, 0x800000008000000a,
   0x8000000080008081, 0x8000000000008080, 0x80000001, 0x8000000080008008]

/-- Rotation offsets of Keccak-f[1600], lane x + 5y. -/
def keccakRot : List Nat :=
  [0, 1, 62, 28, 27, 36, 44, 6, 55, 20, 3, 10, 43, 25, 39, 41, 45, 15, 21, 8, 18, 2, 61, 56, 14]

/-- One round of Keccak-f[1600]. -/
def keccakRound (a : List Word) (rc : Word) : List Word :=
  let c := (upTo 5).map (fun x => wd a x ^^^ wd a (x + 5) ^^^ wd a (x + 10) ^^^ wd a (x + 15) ^^^ wd a (x + 20))
  let d := (upTo 5).map (fun x => wd c ((x + 4) % 5) ^^^ rotl64 (wd c ((x + 1) % 5)) 1)
  let t := (upTo 25).map (fun i => wd a i ^^^ wd d (i % 5))
  -- lane (x, y) of the permuted state comes from lane ((x + 3y) mod 5, x)
  let b := (upTo 25).map (fun i =>
    let x := i % 5
    let y := i / 5
    let src := (x + 3 * y) % 5 + 5 * x
    rotl64 (wd t src) (keccakRot.getD src 0))
  (upTo 25).map (fun i =>
    let x := i % 5
    let y := 5 * (i / 5)
    let v := wd b i ^^^ (~~~ wd b ((x + 1) % 5 + y) &&& wd b ((x + 2) % 5 + y))
    if i = 0 then v ^^^ rc else v)

/-- Keccak-f[1600]. -/
def keccakF (a : List Word) : List Word := keccakRc.foldl keccakRound a

/-- Words of a byte string, little-endian. -/
def wordsLE : Nat → List Byte → List Word
  | 0, _ => []
  | n + 1, l => BitVec.ofNat 64 (ofBytes (l.take 8)) :: wordsLE n (l.drop 8)

/-- XOR the words of a block into the state. -/
def keccakXor (a : List Word) (blk : List Word) : List Word :=
  (upTo 25).map (fun i => wd a i ^^^ wd blk i)

/-- SHAKE padding to a multiple of the 168-byte rate. -/
def shakePad (m : List Byte) : List Byte :=
  let r := 168 - m.length % 168
  if r = 1 then m ++ [0x9f#8] else m ++ [0x1f#8] ++ List.replicate (r - 2) 0#8 ++ [0x80#8]

/-- Absorb n blocks. -/
def shakeAbsorb : Nat → List Byte → List Word → List Word
  | 0, _, a => a
  | n + 1, m, a => shakeAbsorb n (m.drop 168) (keccakF (keccakXor a (wordsLE 21 (m.take 168))))

/-- Squeeze n blocks of 168 bytes. -/
def shakeSqueeze : Nat → List Word → List Byte
  | 0, _ => []
  | n + 1, a => ((a.take 21).map (fun w => toBytes 8 w.toNat)).flatten ++ shakeSqueeze n (keccakF a)

/-- The first n bytes of SHAKE-128 of a message. -/
def shake128 (m : List Byte) (n : Nat) : List Byte :=
  let p := shakePad m
  (shakeSqueeze (ceilDiv n 168) (shakeAbsorb (p.length / 168) p (List.replicate 25 0))).take n

/-! ### SHA-384 -/

/-- The primes to 409, of which there are 80: a number below 23 * 23 is prime where no smaller prime to 19 divides it. -/
def primes80 : List Nat :=
  (upTo 410).filter (fun n => decide (1 < n) && [2, 3, 5, 7, 11, 13, 17, 19].all (fun d => n == d || n % d != 0))

/-- The largest number of b bits over those of r whose k-th power is at most n. -/
def rootUnder (k n : Nat) : Nat → Nat → Nat
  | 0, r => r
  | b + 1, r => rootUnder k n b (if (r + 2 ^ b) ^ k ≤ n then r + 2 ^ b else r)

/-- The first 64 bits of the fraction of the k-th root of a prime below 512, k = 2 or 3 (FIPS 180-4 takes its constants so). -/
def rootFraction (k p : Nat) : Word := BitVec.ofNat 64 (rootUnder k (p * 2 ^ (64 * k)) 69 0)

/-- Round constants of SHA-512: cube roots of the first 80 primes. -/
def sha512K : List Word := primes80.map (rootFraction 3)

/-- Initial hash value of SHA-384: square roots of the ninth to sixteenth prime. -/
def sha384H : List Word := ((primes80.drop 8).take 8).map (rootFraction 2)

/-- Words of a byte string, big-endian. -/
def wordsBE : Nat → List Byte → List Word
  | 0, _ => []
  | n + 1, l => BitVec.ofNat 64 (ofBytesBE (l.take 8)) :: wordsBE n (l.drop 8)

/-- Exclusive or of a word turned right by each of some distances. -/
def turns (x : Word) (l : List Nat) : Word := l.foldl (fun y n => y ^^^ x.rotateRight n) 0

/-- Message schedule, newest word first, extended by n words. -/
def sha512Ext : Nat → List Word → List Word
  | 0, w => w
  | n + 1, w =>
    let near := turns (wd w 1) [19, 61] ^^^ (wd w 1 >>> 6)
    let far := turns (wd w 14) [1, 8] ^^^ (wd w 14 >>> 7)
    sha512Ext n ((wd w 15 + far + wd w 6 + near) :: w)

/-- One round of SHA-512 on the eight working words, with the round's constant plus schedule word: five words move on by one
place, the fifth takes the sum in on its way, and a new first word is formed. -/
def sha512Round (v : List Word) (kw : Word) : List Word :=
  let choice := wd v 6 ^^^ (wd v 4 &&& (wd v 5 ^^^ wd v 6))
  let most := (wd v 0 &&& (wd v 1 ||| wd v 2)) ||| (wd v 1 &&& wd v 2)
  let sum := kw + choice + turns (wd v 4) [14, 18, 41] + wd v 7
  [sum + most + turns (wd v 0) [28, 34, 39]] ++ v.take 3 ++ [wd v 3 + sum] ++ (v.drop 4).take 3

/-- One block of SHA-512. -/
def sha512Block (h : List Word) (blk : List Byte) : List Word :=
  let w := (sha512Ext 64 (wordsBE 16 blk).reverse).reverse
  let v := (List.zipWith (· + ·) sha512K w).foldl sha512Round h
  List.zipWith (· + ·) h v

/-- n blocks of SHA-512. -/
def sha512Loop : Nat → List Byte → List Word → List Word
  | 0, _, h => h
  | n + 1, m, h => sha512Loop n (m.drop 128) (sha512Block h (m.take 128))

/-- SHA-384, 48 bytes. -/
def sha384 (m : List Byte) : List Byte :=
  let z := (239 - m.length % 128) % 128
  let p := m ++ [0x80#8] ++ List.replicate z 0#8 ++ toBytesBE 16 (8 * m.length)
  (((sha512Loop (p.length / 128) p sha384H).take 6).map (fun w => toBytesBE 8 w.toNat)).flatten

/-! ### AES-128 encryption -/

/-- The AES substitution box. -/
def aesSbox : List Nat :=
  [99, 124, 119, 123, 242, 107, 111, 197, 48, 1, 103, 43, 254, 215, 171, 118, 202, 130, 201, 125,
   250, 89, 71, 240, 173, 212, 162, 175, 156, 164, 114, 192, 183, 253, 147, 38, 54, 63, 247, 204]
  ++ [52, 165, 229, 241, 113, 216, 49, 21, 4, 199, 35, 195, 24, 150, 5, 154, 7, 18, 128, 226,
   235, 39, 178, 117, 9, 131, 44, 26, 27, 110, 90, 160, 82, 59, 214, 179, 41, 227, 47, 132]
  ++ [83, 209, 0, 237, 32, 252, 177, 91, 106, 203, 190, 57, 74, 76, 88, 207, 208, 239, 170, 251,
   67, 77, 51, 133, 69, 249, 2, 127, 80, 60, 159, 168, 81, 163, 64, 143, 146, 157, 56, 245]
  ++ [188, 182, 218, 33, 16, 255, 243, 210, 205, 12, 19, 236, 95, 151, 68, 23, 196, 167, 126, 61,
   100, 93, 25, 115, 96, 129, 79, 220, 34, 42, 144, 136, 70, 238, 184, 20, 222, 94, 11, 219]
  ++ [224, 50, 58, 10, 73, 6, 36, 92, 194, 211, 172, 98, 145, 149, 228, 121, 231, 200, 55, 109,
   141, 213, 78, 169, 108, 86, 244, 234, 101, 122, 174, 8, 186, 120, 37, 46, 28, 166, 180, 198]
  ++ [232, 221, 116, 31, 75, 189, 139, 138, 112, 62, 181, 102, 72, 3, 246, 14, 97, 53, 87, 185,
   134, 193, 29, 158, 225, 248, 152, 17, 105, 217, 142, 148, 155, 30, 135, 233, 206, 85, 40, 223]
  ++ [140, 161, 137, 13, 191, 230, 66, 104, 65, 153, 45, 15, 176, 84, 187, 22]

/-- Substitute one byte. -/
def aesSub (b : Byte) : Byte := BitVec.ofNat 8 (aesSbox.getD b.toNat 0)

/-- Multiplication by x in the AES field. -/
def aesXtime (b : Byte) : Byte := if b.msb then (b <<< 1) ^^^ 0x1b#8 else b <<< 1

/-- Byte i of a list. -/
def by_ (l : List Byte) (i : Nat) : Byte := l.getD i 0

/-- Bytewise exclusive or. -/
def xorBytes (a b : List Byte) : List Byte := List.zipWith (· ^^^ ·) a b

/-- The next round key from the last one and the round constant. -/
def aesNextKey (k : List Byte) (rcon : Byte) : List Byte :=
  let t := [aesSub (by_ k 13) ^^^ rcon, aesSub (by_ k 14), aesSub (by_ k 15), aesSub (by_ k 12)]
  let w0 := xorBytes (k.take 4) t
  let w1 := xorBytes ((k.drop 4).take 4) w0
  let w2 := xorBytes ((k.drop 8).take 4) w1
  w0 ++ w1 ++ w2 ++ xorBytes ((k.drop 12).take 4) w2

/-- ShiftRows on a column-major state. -/
def aesShift (s : List Byte) : List Byte := (upTo 16).map (fun i => by_ s ((i + 4 * (i % 4)) % 16))

/-- MixColumns. -/
def aesMix (s : List Byte) : List Byte :=
  (upTo 16).map (fun i =>
    let c := i - i % 4
    let b := fun j => by_ s (c + (i + j) % 4)
    aesXtime (b 0) ^^^ (aesXtime (b 1) ^^^ b 1) ^^^ b 2 ^^^ b 3)

/-- Rounds 1 to 10 with their key schedule. -/
def aesRounds : Nat → Byte → List Byte → List Byte → List Byte
  | 0, _, _, s => s
  | n + 1, rcon, k, s =>
    let k := aesNextKey k rcon
    let t := aesShift (s.map aesSub)
    aesRounds n (aesXtime rcon) k (xorBytes (if n = 0 then t else aesMix t) k)

/-- AES-128 encryption of one block. -/
def aes128 (key blk : List Byte) : List Byte := aesRounds 10 1#8 key (xorBytes blk key)

/-- The random bits of an element (R194). -/
def randBits (key : List Byte) (stream i c : Nat) : Nat :=
  let per := 128 / c
  let out := aes128 key (toBytesBE 8 (stream % 2 ^ 64) ++ toBytesBE 8 (i / per))
  (ofBytesBE out >>> ((i % per) * c)) % 2 ^ c

end Sys2Proof.Machine
end

