-- ==== Sys2Proof/Machine/Curve.lean ====
section
/-! DEFINITION. The public-key arithmetic of the engine: P-256 and P-384 of FIPS 186-5, ECDSA, ECDH and
RSA recovery (R358, R359). Assumption log 9. -/

namespace Sys2Proof.Machine

/-- A short Weierstrass curve with a = −3: field prime, b, order, base point. -/
structure CurveParams where
  p : Nat
  b : Nat
  n : Nat
  gx : Nat
  gy : Nat
  /-- bytes of a coordinate -/
  len : Nat
  deriving DecidableEq, Repr

/-- P-256. -/
def p256 : CurveParams where
  p := 2 ^ 256 - 2 ^ 224 + 2 ^ 192 + 2 ^ 96 - 1
  b := 0x5ac635d8aa3a93e7b3ebbd55769886bc651d06b0cc53b0f63bce3c3e27d2604b
  n := 0xffffffff00000000ffffffffffffffffbce6faada7179e84f3b9cac2fc632551
  gx := 0x6b17d1f2e12c4247f8bce6e563a440f277037d812deb33a0f4a13945d898c296
  gy := 0x4fe342e2fe1a7f9b8ee7eb4a7c0f9e162bce33576b315ececbb6406837bf51f5
  len := 32

/-- P-384. -/
def p384 : CurveParams where
  p := 2 ^ 384 - 2 ^ 128 - 2 ^ 96 + 2 ^ 32 - 1
  b := 0xb3312fa7e23ee7e4988e056be3f82d19181d9c6efe8141120314088f5013875ac656398d8a2ed19d2a85c8edd3ec2aef
  n := 0xffffffffffffffffffffffffffffffffffffffffffffffffc7634d81f4372ddf581a0db248b0a77aecec196accc52973
  gx := 0xaa87ca22be8b05378eb1c71ef320ad746e1d3b628ba79b9859f741e082542a385502f25dbf55296c3a545e3872760ab7
  gy := 0x3617de4a96262c6f5d9e98bf9292dc29f8f41dbd289a147ce9da3113b5f0b8c00a60b1ce1d7e819d7a431d7c90ea0e5f
  len := 48

/-- The curve of a CURVE code: 1 P-256, 2 P-384 (Table 13-12). -/
def curveOf (code : Nat) : CurveParams := if code = 1 then p256 else p384

/-- The curve test of order 6 of Table 13-8: y² = x³ − 3x + b. -/
def onCurve (c : CurveParams) (x y : Nat) : Bool :=
  y * y % c.p == (x * x * x + (c.p - 3) * x + c.b) % c.p

/-- A point in Jacobian coordinates, which stands for (x/z², y/z³). -/
structure JPoint where
  x : Nat
  y : Nat
  z : Nat
  deriving DecidableEq, Repr

/-- Twice a point; none is the point at infinity. -/
def ecDouble (c : CurveParams) : Option JPoint → Option JPoint
  | none => none
  | some g =>
    if g.y = 0 then none
    else
      let zz := g.z * g.z % c.p
      let yy := g.y * g.y % c.p
      let s := 4 * g.x * yy % c.p
      let m := 3 * (g.x + c.p - zz) * (g.x + zz) % c.p
      let x := (m * m + 2 * (c.p - s)) % c.p
      some { x, y := (m * (s + c.p - x) + 8 * (c.p - yy * yy % c.p)) % c.p, z := 2 * g.y * g.z % c.p }

/-- Sum of two points. -/
def ecAdd (c : CurveParams) : Option JPoint → Option JPoint → Option JPoint
  | none, q => q
  | some g, none => some g
  | some g, some k =>
    let zg := g.z * g.z % c.p
    let zk := k.z * k.z % c.p
    let u := g.x * zk % c.p
    let v := g.y * (zk * k.z % c.p) % c.p
    let h := (k.x * zg + c.p - u) % c.p
    let r := (k.y * (zg * g.z % c.p) + c.p - v) % c.p
    if h = 0 then (if r = 0 then ecDouble c (some g) else none)
    else
      let hh := h * h % c.p
      let hhh := hh * h % c.p
      let w := u * hh % c.p
      let x := (r * r + (c.p - hhh) + 2 * (c.p - w)) % c.p
      some { x, y := (r * (w + c.p - x) + v * (c.p - hhh)) % c.p, z := h * (g.z * k.z % c.p) % c.p }

/-- Multiple of a point, by doubling over the scalar's bits. -/
def ecMulLoop (c : CurveParams) (q : Option JPoint) : Nat → Nat → Option JPoint
  | 0, _ => none
  | fuel + 1, k =>
    if k = 0 then none
    else
      let d := ecDouble c (ecMulLoop c q fuel (k / 2))
      if k % 2 = 1 then ecAdd c d q else d

/-- Multiple of a point, in Jacobian coordinates. -/
def ecMulJ (c : CurveParams) (k : Nat) (q : Nat × Nat) : Option JPoint :=
  ecMulLoop c (some { x := q.1, y := q.2, z := 1 }) (k.log2 + 1) k

/-- The coordinates of a point. -/
def affine (c : CurveParams) (g : JPoint) : Nat × Nat :=
  let i := invM c.p g.z
  let ii := i * i % c.p
  (g.x * ii % c.p, g.y * (ii * i % c.p) % c.p)

/-- Multiple of a point. -/
def ecMul (c : CurveParams) (k : Nat) (q : Nat × Nat) : Option (Nat × Nat) := (ecMulJ c k q).map (affine c)

/-- ECDSA verification of the digest e. -/
def ecdsaValid (c : CurveParams) (qx qy e r s : Nat) : Bool :=
  let w := invM c.n s
  match ecAdd c (ecMulJ c (e * w % c.n) (c.gx, c.gy)) (ecMulJ c (r * w % c.n) (qx, qy)) with
  | none => false
  | some g => (affine c g).1 % c.n == r

/-- ECDSA signature of the digest e with private scalar d and nonce k. -/
def ecdsaSignWith (c : CurveParams) (d e k : Nat) : Nat × Nat :=
  match ecMul c k (c.gx, c.gy) with
  | none => (0, 0)
  | some (x, _) =>
    let r := x % c.n
    (r, invM c.n k * (e + r * d) % c.n)

/-- The public point of a private scalar. -/
def ecPublic (c : CurveParams) (d : Nat) : Nat × Nat := (ecMul c d (c.gx, c.gy)).getD (0, 0)

/-- The uncompressed SEC1 form of a P-384 point. -/
def sec1 (x y : Nat) : List Byte := 0x04#8 :: (toBytesBE 48 x ++ toBytesBE 48 y)

/-- KEY_ID: the first 16 bytes of SHA-384 of a public key in SEC1 form (R269, R356). -/
def keyIdOf (x y : Nat) : List Byte := (sha384 (sec1 x y)).take 16

end Sys2Proof.Machine
end

