-- ==== Sys2Proof/Config.lean ====
section
/-! DEFINITION. What an implementation fixes, and the free values (opaque, no body). -/

namespace Sys2Proof.Config

/-- Tiles in the module (R17, Table 5-7). -/
abbrev tiles : Nat := 64
/-- Scratchpad rows per tile (R144). -/
abbrev rowsPerTile : Nat := 49152
/-- Logical scratchpad bytes per tile (R123). -/
abbrev logicalPerTile : Nat := 5 * 1048576
/-- Device addresses at or above this are not stack addresses (R203). -/
abbrev stackTop : Nat := 0x18000000000
/-- Distance between the bases of two stacks (R203). -/
abbrev stackStride : Nat := 0x2000000000
/-- Populated bytes of a stack (R204). -/
abbrev stackBytes : Nat := 0x1800000000
/-- Withdrawal units per stack (R205). -/
abbrev unitsPerStack : Nat := 49152
/-- Bytes of a withdrawal unit (R205). -/
abbrev unitBytes : Nat := 0x200000
/-- Spare row groups per pseudo-channel (R222). -/
abbrev sparesPerPc : Nat := 1536
/-- Flash address of firmware bank 0 and of bank 1, and their bytes (R397). -/
abbrev fwBank0 : Nat := 0x00500000
abbrev fwBank1 : Nat := 0x01500000
abbrev fwBankBytes : Nat := 0x1000000
/-- Ticks of 10 ns per microsecond of the always-on reference (R259). -/
abbrev ticksPerUs : Nat := 100

/-- The free values (assumption log 3): the n-th value the manual leaves open. -/
opaque freeNat : Nat → Nat
/-- The free values with a second index, for bodies and byte strings. -/
opaque freeAt : Nat → Nat → Nat
/-- The control words a translation emits for a kernel (R134: fixed by the firmware release, the results level, the
variant and the partition size; the manual does not give them). Arguments: firmware release, results level, partition
tiles, first operation-table entry, the kernel's instructions. -/
opaque translate : Nat → Nat → Nat → Nat → List (BitVec 256) → List (BitVec 512)
/-- Residue bits of an operation whose results its results level fixes and the manual does not print (R137; assumption log
15). Arguments: results level, opcode, the operation's inputs (its fields, the set's primes and roots, operand and key
limbs), the number of the residue. -/
opaque resultBits : Nat → Nat → List (List Nat) → Nat → Nat
/-- Control words a Glahus instruction takes on the schedule (R134), as schedule cycles: instruction, partition tiles. -/
opaque translatedCycles : BitVec 256 → Nat → Nat
/-- The control word SEQ_FAULT names for an instruction of a package's kernel (assumption log 29): instructions, position,
partition tiles. -/
opaque translatedWord : List (BitVec 256) → Nat → Nat → Nat
/-- The token queue of the replay fetcher (R100, R105; assumption log 37). -/
opaque replayQueue : Nat
/-- The token queue the translator gives the completions of a package's message operations (R239; assumption log 29). -/
opaque messageQueue : Nat
/-- The token queue of a collective's completion (assumption log 31). -/
opaque collQueue : Nat
/-- The four parity symbols of a code of the light FEC for its 124 data symbols, as numbers (R291; assumption log 23). -/
opaque fecParity : Nat → Nat
/-- The Kazfel image key fused in the IOD, x and y (R269). -/
opaque kazfelKeyX : Nat
opaque kazfelKeyY : Nat
/-- Expected MISR of a self-test from the factory record: command, die (R408, Table 15-12). -/
opaque factoryMisr : Nat → Nat → Nat
/-- Expected unit signature of the stack self-test (R409). -/
opaque factoryUnitMisr : Nat
/-- The boot loader in the factory range of flash (R348): its digest, measurement 1. -/
opaque bootDigest : Nat
/-- The fixed input data of a key derivation of SP 800-108 (R347), which the spec leaves open: 1 device identity key, 2 alias key; its
context. -/
opaque kdfInput : Nat → List Byte → List Byte
/-- What a number of random bytes gives as a scalar, a nonce or a secret (R358): the spec names the instance that is drawn from. -/
opaque scalarOf : List Byte → Nat
/-- The certificate chain of slot 0 (R347): the two private scalars, digests of measurements 1 to 3. -/
opaque certificateChain : Nat → Nat → List Byte → List Byte
/-- The SPDM transcript a response is signed over (R348): its request code, its numbers, its data. The SPDM specification gives it. -/
opaque transcript : Nat → List Nat → List Byte → List Byte
/-- DMTFSpecMeasurementValueType of measurement block i, bits 6 to 0 (R348; the spec gives the form, not the type). -/
opaque measurementType : Nat → Nat
/-- The module's MCTP endpoint UUID (R343). -/
opaque endpointUuid : Nat
/-- The debug-fuse byte of measurement 8 (R348). -/
opaque debugFuse : Nat

/-- GL_VERSION.MINOR of the running firmware (Table 5-7), by its version. -/
opaque glahusMinor : Nat → Nat

/-- VALUE and SCALE of an LTR message for a latency in microseconds (R342 gives the latency, not the encoding). -/
opaque ltrEncoding : Nat → Nat × Nat

end Sys2Proof.Config
end

