-- ==== Sys2Proof/Machine/Codes.lean ====
section
/-! DEFINITION. The fault codes by name, as the code tables of the chapters give them (R8). -/

namespace Sys2Proof.Machine

/-- SCHEDULE_SKEW -/
abbrev cScheduleSkew : Nat := 0x0110
/-- BANK_COLLISION -/
abbrev cBankCollision : Nat := 0x0111
/-- ROW_INVALID -/
abbrev cRowInvalid : Nat := 0x0112
/-- TOKEN_OVERFLOW -/
abbrev cTokenOverflow : Nat := 0x0113
/-- WAIT_TIMEOUT -/
abbrev cWaitTimeout : Nat := 0x0114
/-- BRIDGE_UNCORRECTABLE -/
abbrev cBridgeUncorrectable : Nat := 0x0115
/-- ADDRESS_RANGE -/
abbrev cAddressRange : Nat := 0x0116
/-- PARAM_RANGE -/
abbrev cParamRange : Nat := 0x0117
/-- WORD_INVALID -/
abbrev cWordInvalid : Nat := 0x0118
/-- CMEM_UNCORRECTABLE -/
abbrev cCmemUncorrectable : Nat := 0x0119
/-- LOAD_INVALID -/
abbrev cLoadInvalid : Nat := 0x011A
/-- REPLAY_INVALID -/
abbrev cReplayInvalid : Nat := 0x011B
/-- KERNEL_INVALID -/
abbrev cKernelInvalid : Nat := 0x011C
/-- STOPPED -/
abbrev cStopped : Nat := 0x011D
/-- NONCANONICAL_INPUT -/
abbrev cNoncanonicalInput : Nat := 0x0120
/-- GALOIS_ELEMENT -/
abbrev cGaloisElement : Nat := 0x0121
/-- OPERAND_OVERLAP -/
abbrev cOperandOverlap : Nat := 0x0122
/-- PACKAGE_FORMAT -/
abbrev cPackageFormat : Nat := 0x0130
/-- PACKAGE_RESULTS_LEVEL -/
abbrev cPackageResultsLevel : Nat := 0x0131
/-- PACKAGE_FEATURE -/
abbrev cPackageFeature : Nat := 0x0132
/-- TRANSLATE_SPACE -/
abbrev cTranslateSpace : Nat := 0x0133
/-- TRANSLATE_LIMIT -/
abbrev cTranslateLimit : Nat := 0x0134
/-- GLAHUS_INVALID -/
abbrev cGlahusInvalid : Nat := 0x0135
/-- BINDING_SHORT -/
abbrev cBindingShort : Nat := 0x0136
/-- CONTEXT_INVALID -/
abbrev cContextInvalid : Nat := 0x0137
/-- CONTEXT_LEVEL -/
abbrev cContextLevel : Nat := 0x0138
/-- CONTEXT_BUSY -/
abbrev cContextBusy : Nat := 0x0139
/-- MATRIX_SEQUENCE -/
abbrev cMatrixSequence : Nat := 0x0140
/-- TILE_QUEUE_EMPTY -/
abbrev cTileQueueEmpty : Nat := 0x0141
/-- TILE_QUEUE_FULL -/
abbrev cTileQueueFull : Nat := 0x0142
/-- VECTOR_LANE -/
abbrev cVectorLane : Nat := 0x0143
/-- VECTOR_OPERAND -/
abbrev cVectorOperand : Nat := 0x0144
/-- NOISE_UNAVAILABLE -/
abbrev cNoiseUnavailable : Nat := 0x0145
/-- NOISE_REQUEST_INVALID -/
abbrev cNoiseRequestInvalid : Nat := 0x0146
/-- LEVEL_EXHAUSTED -/
abbrev cLevelExhausted : Nat := 0x0201
/-- NOISE_BUDGET -/
abbrev cNoiseBudget : Nat := 0x0202
/-- KEYSET_MISMATCH -/
abbrev cKeysetMismatch : Nat := 0x0203
/-- PRIMESET_MISMATCH -/
abbrev cPrimesetMismatch : Nat := 0x0204
/-- POISON_INPUT -/
abbrev cPoisonInput : Nat := 0x0205
/-- HEADER_INVALID -/
abbrev cHeaderInvalid : Nat := 0x0206
/-- SHAPE_MISMATCH -/
abbrev cShapeMismatch : Nat := 0x0207
/-- DOMAIN_MISMATCH -/
abbrev cDomainMismatch : Nat := 0x0208
/-- SCALE_MISMATCH -/
abbrev cScaleMismatch : Nat := 0x0209
/-- SCALE_OVERFLOW -/
abbrev cScaleOverflow : Nat := 0x020A
/-- KEY_MISMATCH -/
abbrev cKeyMismatch : Nat := 0x020B
/-- FLOOD_WIDTH -/
abbrev cFloodWidth : Nat := 0x020C
/-- DESCRIPTOR_ZERO -/
abbrev cDescriptorZero : Nat := 0x0301
/-- STRIDE_ZERO_WRITE -/
abbrev cStrideZeroWrite : Nat := 0x0302
/-- STREAM_BUSY -/
abbrev cStreamBusy : Nat := 0x0303
/-- STREAM_SLOT_EMPTY -/
abbrev cStreamSlotEmpty : Nat := 0x0304
/-- STREAM_RANGE -/
abbrev cStreamRange : Nat := 0x0305
/-- TENSOR_INVALID -/
abbrev cTensorInvalid : Nat := 0x0306
/-- COORD_RANGE -/
abbrev cCoordRange : Nat := 0x0307
/-- STREAM_ABORTED -/
abbrev cStreamAborted : Nat := 0x0308
/-- DESCRIPTOR_INVALID -/
abbrev cDescriptorInvalid : Nat := 0x0309
/-- ECC_CORRECTED -/
abbrev cEccCorrected : Nat := 0x0401
/-- ECC_UNCORRECTABLE -/
abbrev cEccUncorrectable : Nat := 0x0402
/-- POISON_READ -/
abbrev cPoisonRead : Nat := 0x0403
/-- ADDRESS_UNMAPPED -/
abbrev cAddressUnmapped : Nat := 0x0404
/-- ADDRESS_WITHDRAWN -/
abbrev cAddressWithdrawn : Nat := 0x0405
/-- ATOMIC_INVALID -/
abbrev cAtomicInvalid : Nat := 0x0406
/-- CACHE_UNCORRECTABLE -/
abbrev cCacheUncorrectable : Nat := 0x0407
/-- ROW_SPARED -/
abbrev cRowSpared : Nat := 0x0408
/-- PC_RETIRED -/
abbrev cPcRetired : Nat := 0x0409
/-- SPARES_EXHAUSTED -/
abbrev cSparesExhausted : Nat := 0x040A
/-- BADGER_WINDOW -/
abbrev cBadgerWindow : Nat := 0x040B
/-- BADGER_DISABLED -/
abbrev cBadgerDisabled : Nat := 0x040C
/-- BADGER_FAULT -/
abbrev cBadgerFault : Nat := 0x040D
/-- STACK_FAILED -/
abbrev cStackFailed : Nat := 0x040E
/-- MESSAGE_TOO_LONG -/
abbrev cMessageTooLong : Nat := 0x0501
/-- ORPHANED -/
abbrev cOrphaned : Nat := 0x0502
/-- NO_PROGRESS -/
abbrev cNoProgress : Nat := 0x0503
/-- QUEUE_CLOSED -/
abbrev cQueueClosed : Nat := 0x0504
/-- RECV_SHORT -/
abbrev cRecvShort : Nat := 0x0505
/-- COMMAND_INVALID -/
abbrev cCommandInvalid : Nat := 0x0506
/-- IMAGE_REJECTED -/
abbrev cImageRejected : Nat := 0x0601
/-- IMAGE_SOURCE -/
abbrev cImageSource : Nat := 0x0602
/-- PARTITION_DOWN -/
abbrev cPartitionDown : Nat := 0x0603
/-- NV_WRITE_FAILED -/
abbrev cNvWriteFailed : Nat := 0x0604
/-- IMAGE_BUFFER -/
abbrev cImageBuffer : Nat := 0x0605
/-- FACTORY_INVALID -/
abbrev cFactoryInvalid : Nat := 0x0606
/-- LINK_DOWN -/
abbrev cLinkDown : Nat := 0x0701
/-- LANE_DEGRADED -/
abbrev cLaneDegraded : Nat := 0x0702
/-- ROUTE_FAILOVER -/
abbrev cRouteFailover : Nat := 0x0703
/-- LINK_LEVEL -/
abbrev cLinkLevel : Nat := 0x0704
/-- UNREACHABLE -/
abbrev cUnreachable : Nat := 0x0705
/-- COLL_MISMATCH -/
abbrev cCollMismatch : Nat := 0x0706
/-- COLL_TIMEOUT -/
abbrev cCollTimeout : Nat := 0x0707
/-- PEER_TRIPPED -/
abbrev cPeerTripped : Nat := 0x0708
/-- MEMBER_LEFT -/
abbrev cMemberLeft : Nat := 0x0709
/-- JOB_LEVEL_MISMATCH -/
abbrev cJobLevelMismatch : Nat := 0x070A
/-- JOB_NOT_READY -/
abbrev cJobNotReady : Nat := 0x070B
/-- REMOTE_REFUSED -/
abbrev cRemoteRefused : Nat := 0x070C
/-- FREQ_LOCK_LOST -/
abbrev cFreqLockLost : Nat := 0x070D
/-- HOST_BOUNDS -/
abbrev cHostBounds : Nat := 0x0801
/-- DOORBELL_INVALID -/
abbrev cDoorbellInvalid : Nat := 0x0802
/-- DESC_INVALID -/
abbrev cDescInvalid : Nat := 0x0803
/-- HOST_DMA -/
abbrev cHostDma : Nat := 0x0804
/-- PACKAGE_BUSY -/
abbrev cPackageBusy : Nat := 0x0805
/-- PACKAGE_UNKNOWN -/
abbrev cPackageUnknown : Nat := 0x0806
/-- LINK_DEGRADED -/
abbrev cLinkDegraded : Nat := 0x0807
/-- REG_ACCESS -/
abbrev cRegAccess : Nat := 0x0808
/-- PK_ZERO -/
abbrev cPkZero : Nat := 0x0901
/-- PK_RANGE -/
abbrev cPkRange : Nat := 0x0902
/-- PK_NOT_ON_CURVE -/
abbrev cPkNotOnCurve : Nat := 0x0903
/-- PK_SIGNATURE -/
abbrev cPkSignature : Nat := 0x0904
/-- PK_MISMATCH -/
abbrev cPkMismatch : Nat := 0x0905
/-- PK_SLOT -/
abbrev cPkSlot : Nat := 0x0906
/-- PK_DISABLED -/
abbrev cPkDisabled : Nat := 0x0907
/-- PK_MICROCODE -/
abbrev cPkMicrocode : Nat := 0x0908
/-- ENTROPY_FAIL -/
abbrev cEntropyFail : Nat := 0x0909
/-- DRBG_FAIL -/
abbrev cDrbgFail : Nat := 0x090A
/-- OWNER_KEY_PRESENT -/
abbrev cOwnerKeyPresent : Nat := 0x090B
/-- TDI_LOCKED -/
abbrev cTdiLocked : Nat := 0x090C
/-- IDE_VIOLATION -/
abbrev cIdeViolation : Nat := 0x090D
/-- PK_REQUEST -/
abbrev cPkRequest : Nat := 0x090E
/-- THERMAL_TRIP -/
abbrev cThermalTrip : Nat := 0x0A01
/-- BANK_ASLEEP -/
abbrev cBankAsleep : Nat := 0x0A02
/-- CAP_THROTTLE -/
abbrev cCapThrottle : Nat := 0x0A03
/-- THERMAL_THROTTLE -/
abbrev cThermalThrottle : Nat := 0x0A04
/-- AGEING_LIMIT -/
abbrev cAgeingLimit : Nat := 0x0A05
/-- LEDGER_BREACH -/
abbrev cLedgerBreach : Nat := 0x0B01
/-- BIST_NOT_ALLOWED -/
abbrev cBistNotAllowed : Nat := 0x0C01
/-- BIST_INVALID -/
abbrev cBistInvalid : Nat := 0x0C02
/-- LBIST_MISMATCH -/
abbrev cLbistMismatch : Nat := 0x0C03
/-- MBIST_MISMATCH -/
abbrev cMbistMismatch : Nat := 0x0C04
/-- FACTORY_RECORD -/
abbrev cFactoryRecord : Nat := 0x0C05
/-- FW_BANK_INVALID -/
abbrev cFwBankInvalid : Nat := 0x0C06
/-- CORE_RESTARTED -/
abbrev cCoreRestarted : Nat := 0x0C07
/-- CORE_ESCALATED -/
abbrev cCoreEscalated : Nat := 0x0C08
/-- BIST_ABORTED -/
abbrev cBistAborted : Nat := 0x0C09

end Sys2Proof.Machine
end

