-- ==== Sys2Proof/Machine/State.lean ====
section
/-! DEFINITION. The machine's state as plain data, with the value after reset as each field's default. -/

namespace Sys2Proof.Machine

/-- A ciphertext header in a header-file entry (Table 3-3), with the entry-valid bit of R55. -/
structure Header where
  valid : Bool := false
  version : Nat := 0
  scheme : Nat := 0
  logN : Nat := 0
  limbs : Nat := 0
  specials : Nat := 0
  level : Nat := 0
  comps : Nat := 0
  domain : Bool := false
  poison : Bool := false
  boot : Bool := false
  flooded : Bool := false
  scale : Nat := 0
  noise : Nat := 0
  psetId : Nat := 0
  keyTag : Nat := 0
  plainMod : Nat := 0
  bodyAddr : Nat := 0
  format : Bool := false
  order : Bool := false
  poisonCause : Nat := 0
  deriving DecidableEq, Repr

/-- A key header (Table 3-5). -/
structure KeyHeader where
  version : Nat := 0
  scheme : Nat := 0
  logN : Nat := 0
  kind : Nat := 0
  dnum : Nat := 0
  qlimbs : Nat := 0
  specials : Nat := 0
  seeded : Bool := false
  format : Bool := false
  keyIndex : Nat := 0
  psetId : Nat := 0
  keyTag : Nat := 0
  targetTag : Nat := 0
  seed : List Byte := []
  deriving DecidableEq, Repr

/-- A token (Table 4-7). -/
structure Token where
  status : Nat := 0
  source : Nat := 0
  tag : Nat := 0
  deriving DecidableEq, Repr

/-- A prime with its reciprocal and root (R51). -/
structure Prime where
  q : Nat := 0
  mu : Nat := 0
  psi : Nat := 0
  deriving DecidableEq, Repr

/-- A prime set (Table 3-1). -/
structure PrimeSet where
  id : Nat := 0
  logNMax : Nat := 0
  qcount : Nat := 0
  pcount : Nat := 0
  acount : Nat := 0
  width : Nat := 1
  dnum : Nat := 0
  primes : List Prime := []
  deriving DecidableEq, Repr

/-- A noise table (Table 3-6). -/
structure NoiseTable where
  setIndex : Nat := 0
  scheme : Nat := 0
  msgBits : Nat := 0
  precFloor : Nat := 0
  margin : Nat := 0
  fresh : Nat := 0
  rescale : Nat := 0
  bfvMul : Nat := 0
  floodMargin : Nat := 0
  ks : List Nat := []
  bootOut : List Nat := []
  deriving DecidableEq, Repr

/-- A route entry (Table 9-1). -/
structure Route where
  srcEp : Nat := 0
  srcPort : Nat := 0
  dstEp : Nat := 0
  dstQueue : Nat := 0
  credits : Nat := 0
  maxLen : Nat := 0
  depends : Nat := 0
  deriving DecidableEq, Repr

/-- A queue entry (Table 9-2). -/
structure QueueCfg where
  ep : Nat := 0
  queue : Nat := 0
  mode : Nat := 1
  gateEn : Bool := false
  gateFlag : Nat := 0
  ringRow : Nat := 0
  ringRows : Nat := 1
  deriving DecidableEq, Repr

/-- A flag entry (Table 9-3). -/
structure FlagCfg where
  flag : Nat := 0
  dynamic : Bool := false
  setEp : Nat := 0
  setQueue : Nat := 0
  deriving DecidableEq, Repr

/-- A message subsection (R263). -/
structure MsgSub where
  part : Nat := 0
  routes : List Route := []
  queues : List QueueCfg := []
  flags : List FlagCfg := []
  deriving DecidableEq, Repr

/-- A partition entry (Table 10-5). -/
structure PartEntry where
  stks : Nat := 0
  auto : Bool := false
  placeAuto : Bool := false
  spillPages : Nat := 0
  noiseBase : Nat := 0
  spillBase : Nat := 0
  deriving DecidableEq, Repr

/-- The POWER section (Table 14-4), with the defaults of its Reset column. -/
structure PowerPolicy where
  capW : Nat := 1500
  freqMax : Nat := 60
  dieThrottle : Nat := 100
  stackThrottle : Nat := 95
  lizardEn : Bool := true
  deepEn : Bool := false
  lizardDwellUs : Nat := 1000
  deepDwellMs : Nat := 100
  maxExitUs : Nat := 0
  fabricTolUs : Nat := 0xFFFFFFFF
  deriving DecidableEq, Repr

/-- A fabric route entry (Table 11-8). -/
structure FabRoute where
  first : Nat := 0
  last : Nat := 0
  primary : Nat := 0
  altEn : Bool := false
  alternate : Nat := 0
  deriving DecidableEq, Repr

/-- A collective entry (Table 11-8). -/
structure CollCfg where
  kind : Nat := 0
  members : Nat := 0
  rank : Nat := 0
  parent : Nat := 0xFFFF
  children : List Nat := []
  bufAddr : Nat := 0
  bufMib : Nat := 0
  deriving DecidableEq, Repr

/-- The FABRIC section in force; the defaults are those of an absent section (R305). -/
structure FabricCfg where
  moduleAddr : Nat := 0xFFFF
  portEn : Nat := 0xFF
  express : Nat := 0
  maxLevel : Nat := 2
  routes : List FabRoute := []
  colls : List CollCfg := []
  jobId : Nat := 0
  jobLevel : Nat := 0
  jobPart : Nat := 0
  epochUs : Nat := 0
  jobParent : Nat := 0xFFFF
  jobChildren : List Nat := []
  jobMembers : Nat := 0
  deriving DecidableEq, Repr

/-- A parsed Ferant image: its sections, and the section bytes R274 compares. -/
structure Image where
  serial : Nat := 0
  signer : Nat := 1
  m : Nat := 1
  ways0 : Nat := 0
  ways1 : Nat := 0
  parts : List PartEntry := []
  psets : List PrimeSet := []
  noises : List NoiseTable := []
  msgs : List MsgSub := []
  power : PowerPolicy := {}
  /-- none: the section is absent -/
  fabric : Option FabricCfg := none
  psetBytes : List Byte := []
  noiseBytes : List Byte := []
  msgBytes : List Byte := []
  fabricBytes : List Byte := []
  deriving DecidableEq, Repr

/-- A flash slot (Table 10-10) with its image bytes. -/
structure FlashSlot where
  magic : Nat := 0xFFFFFFFF
  gen : Nat := 0xFFFFFFFF
  imageBytes : Nat := 0xFFFFFFFF
  /-- DIGEST, byte 0 first -/
  digest : List Byte := List.replicate 48 255#8
  commit : Nat := 2 ^ 64 - 1
  /-- the image area as far as it has been programmed -/
  bytes : List Byte := []
  deriving DecidableEq, Repr

/-! ### Sequencers -/

/-- A fault of a kernel, with what R113 needs to choose among several. -/
structure FaultRec where
  cycle : Nat := 0
  order : Nat := 0
  stage : Nat := 0
  code : Nat := 0
  opid : Nat := 0
  word : Nat := 0
  tile : Nat := 0
  beat : Nat := 0
  byToken : Bool := false
  /-- the fault is a refusal under Table 3-8 (Table 4-11, class Refused) -/
  refusal : Bool := false
  /-- no operation is aborted by it: a NOP word's, or one whose operation has been dealt with -/
  bare : Bool := false
  /-- the operation's key check failed: its tokens leave with the code (R62) -/
  keyAbort : Bool := false
  /-- replay of the faulting word -/
  replay : Nat := 0
  /-- issue cycle of the beat, where the fault is foreseen at its issue (R146) -/
  issued : Nat := 0
  deriving DecidableEq, Repr

/-- Rows one beat writes in one tile. -/
structure RowOut where
  tile : Nat := 0
  row : Nat := 0
  data : List Byte := []
  deriving DecidableEq, Repr

/-- A finished tile pushed by a beat, or mask bits a beat writes. -/
structure TileOut where
  tile : Nat := 0
  sel : Nat := 0
  vals : List Nat := []
  deriving DecidableEq, Repr

/-- A generator slot (Table 7-5). -/
structure GenSlot where
  key : List Byte := []
  stream : Nat := 0
  dropP : Nat := 0
  deriving DecidableEq, Repr

/-- Rows of an operand: first row, rows, and AGE for a source. -/
structure RowSpan where
  row : Nat := 0
  rows : Nat := 0
  age : Nat := 0
  deriving DecidableEq, Repr

/-- One unit's share of a beat in flight (R86): issued, then read, then written. -/
structure Beat where
  cycle : Nat := 0
  first : Nat := 0
  k : Nat := 0
  /-- 0 ring, 1 matrix, 2 vector, 3 exchange -/
  unit : Nat := 0
  word : BitVec 512 := 0
  idx : Nat := 0
  order : Nat := 0
  /-- result latency L of the unit (Table 4-6) -/
  lat : Nat := 0
  replay : Nat := 0
  suppressed : Bool := false
  last : Bool := false
  read : Bool := false
  /-- an exchange beat has arrived in its destination tiles (R112) -/
  arrived : Bool := false
  /-- parameter registers as the beat issued (R108) -/
  params : SMap Word := []
  srcs : List RowSpan := []
  dsts : List RowSpan := []
  /-- a read, or a write, that collides (R146): 1 + issue cycle of the earliest colliding beat; 0 none -/
  blockR : Nat := 0
  blockW : Nat := 0
  permK : Option Nat := none
  permCycle : Nat := 0
  rows : List RowOut := []
  pushes : List TileOut := []
  masks : List TileOut := []
  gens : List (Nat × Nat × GenSlot) := []
  /-- residues an exchange beat moves: tile, local element, value -/
  moves : List TileOut := []
  deriving DecidableEq, Repr

/-- A word issued and not yet retired. -/
structure FlightWord where
  word : BitVec 512 := 0
  idx : Nat := 0
  order : Nat := 0
  /-- cycle of its last beat, and cycle at which it retires -/
  lastBeat : Nat := 0
  retire : Nat := 0
  replay : Nat := 0
  deriving DecidableEq, Repr

/-- One entry of a patch set (Table 4-8). -/
structure Patch where
  param : Nat := 0
  add : Bool := false
  value : Word := 0
  deriving DecidableEq, Repr

/-- A stream run kicked by a control word (R430). -/
structure KickRec where
  tile : Nat := 0
  slot : Nat := 0
  opid : Nat := 0
  word : Nat := 0
  ended : Bool := false
  code : Nat := 0
  deriving DecidableEq, Repr

/-- The RUN descriptor a kernel runs for. -/
structure RunOwner where
  fn : Nat := 0
  qp : Nat := 0
  cid : Nat := 0
  pkg : Nat := 0
  deriving DecidableEq, Repr

/-- What a sequencer holds of the kernel it runs. -/
structure Kern where
  kernel : Nat := 0
  replays : Nat := 0
  noList : Bool := false
  replay : Nat := 0
  /-- next word, counted from the kernel's first -/
  pos : Nat := 0
  /-- the boundary of this replay is done -/
  bounded : Bool := false
  /-- patch sets fetched and not applied, oldest first -/
  sets : List (List Patch) := []
  /-- replay-list entries and sets fetched -/
  fetched : Nat := 0
  setsFetched : Nat := 0
  /-- code of a set that could not be fetched -/
  fetchBad : Option Nat := none
  waitSince : Option Nat := none
  permK : Option Nat := none
  permCycle : Nat := 0
  /-- KEY_SET_TAG and TARGET_TAG of the key header that passed its checks, by the OPID of the word that kicked its load
  (R61, R63) -/
  keyTags : SMap Nat := []
  targetTags : SMap Nat := []
  /-- the Glahus instructions of a package's kernel (R122, R134); none: the kernel's words run -/
  prog : Option (List (BitVec 256)) := none
  /-- the broadcast of the waiting word met an uncorrectable bridge error -/
  bridgeBad : Bool := false
  /-- the collective whose end the next instruction waits for -/
  collWait : Option Nat := none
  /-- the tile, token queue and TAG of the message completion the instruction waits for -/
  msgWait : Option (Nat × Nat × Nat) := none
  /-- finished tiles the vector word in progress has popped (R193) -/
  popped : Nat := 0
  /-- schedule cycle at which the duty window in progress began (R377) -/
  windowAt : Nat := 0
  matMode : Nat := 0
  matBeats : Nat := 0
  nextOrder : Nat := 0
  words : List FlightWord := []
  beats : List Beat := []
  faults : List FaultRec := []
  begun : List Nat := []
  ended : List Nat := []
  suppressed : List Nat := []
  kicks : List KickRec := []
  poisonStop : Bool := false
  poisonSeen : Bool := false
  owner : Option RunOwner := none
  deriving DecidableEq, Repr

/-- Sequencer Qn (R117). -/
structure Seq where
  kernel : Nat := 0
  replays : Nat := 0
  noList : Bool := false
  /-- 0 idle, 1 issuing, 2 waiting, 3 draining -/
  state : Nat := 0
  done : Bool := false
  fault : Bool := false
  dropped : Bool := false
  faultCode : Nat := 0
  replayIndex : Nat := 0
  fOpid : Nat := 0
  fWord : Nat := 0
  fTile : Nat := 0
  fBeat : Nat := 0
  fByToken : Bool := false
  count : Nat := 0
  replayBase : Nat := 0
  waitLimit : Nat := 100000
  loadSrc : Nat := 0
  ldDest : Nat := 0
  ldCount : Nat := 0
  ldTable : Bool := false
  /-- the running load's source, destination, count and target -/
  runSrc : Nat := 0
  runDest : Nat := 0
  runCount : Nat := 0
  runTable : Bool := false
  ldBusy : Bool := false
  ldError : Bool := false
  ldErrCode : Nat := 0
  params : SMap Word := []
  ktab : SMap (BitVec 64) := []
  cmem : SMap (BitVec 512) := []
  cmemBad : SMap Bool := []
  optab : SMap (BitVec 256) := []
  hdrs : SMap Header := []
  kern : Option Kern := none
  deriving DecidableEq, Repr

/-! ### Tiles -/

/-- VALID and STAMP of a scratchpad row (R85). -/
structure RowTag where
  valid : Bool := false
  stamp : Nat := 0
  deriving DecidableEq, Repr

/-- The values a key load's run latches from the operation that kicks it (R61). -/
structure KeyLatch where
  keyTag : Nat := 0
  psetId : Nat := 0
  scheme : Nat := 0
  logN : Nat := 0
  limbs : Nat := 0
  kind : Nat := 0
  galois : Nat := 0
  dnum : Nat := 0
  /-- ENCPK: check 2 is not made -/
  publicKey : Bool := false
  deriving DecidableEq, Repr

/-- A block of a stream run: its list entry and how far it has come. -/
structure Block where
  entry : BitVec 256 := 0
  started : Bool := false
  /-- transfers of the block, the one in progress, and its lines landed or acknowledged -/
  transfers : Nat := 0
  next : Nat := 0
  line : Nat := 0
  /-- lines of the block, lines requested, lines landed or acknowledged -/
  total : Nat := 0
  requested : Nat := 0
  landed : Nat := 0
  /-- the block's Badger chains: 0 none, 1 begun, 2 all finished and staged, 3 landed, 4 one failed with its code -/
  chain : Nat := 0
  /-- limbs whose chains have begun, and limbs whose chains have finished -/
  chainsOn : Nat := 0
  chainsOk : Nat := 0
  chainCode : Nat := 0
  /-- 1 + the first transfer that was accepted when a bank of its rows was not AWAKE (R374); 0: none -/
  asleep : Nat := 0
  deriving DecidableEq, Repr

/-- A stream run in progress (R157). -/
structure StreamRun where
  base : Nat := 0
  rowBase : Nat := 0
  blocks : List Block := []
  completed : Nat := 0
  latch : Option KeyLatch := none
  keyChecked : Bool := false
  keyHdr : KeyHeader := {}
  headerDone : Bool := false
  /-- tensor runs: the tensor header -/
  tensor : BitVec 512 := 0
  /-- coordinate-list entries read, as 2^64 + entry, or 2^65 + the code of one that cannot be used -/
  coords : SMap Nat := []
  contexts : Nat := 0
  poison : Nat := 0
  skipBody : Bool := false
  /-- reducing tensor stores: the combined value + 1 of each element written, by its bit address -/
  seen : SMap Nat := []
  /-- the store transfer in progress: mask and value of the bits it writes in each line -/
  fields : SMap (Nat × Nat) := []
  kickSeq : Option Nat := none
  deriving DecidableEq, Repr

/-- A descriptor slot (Table 6-9). State: 0 FREE, 1 ARMED, 2 ACTIVE, 3 ABORTING. -/
structure Slot where
  desc : BitVec 512 := 0
  state : Nat := 0
  error : Bool := false
  dropped : Bool := false
  errCode : Nat := 0
  blockIndex : Nat := 0
  run : Option StreamRun := none
  deriving DecidableEq, Repr

/-- A finished tile in the queue, with the cycle from which a dequeuing beat may issue (R185). -/
structure FinTile where
  ready : Nat := 0
  vals : List Nat := []
  deriving DecidableEq, Repr

/-- A tile. -/
structure Tile where
  spad : Mem := []
  tags : SMap RowTag := []
  tokq : SMap (List Token) := []
  /-- tokens a producer outside the array holds until the queue has space (R103) -/
  tokHeld : SMap (List Token) := []
  acc0 : List Nat := []
  acc1 : List Nat := []
  finq : List FinTile := []
  finPart : Nat := 0
  mask0 : BitVec 4096 := BitVec.allOnes 4096
  mask1 : BitVec 4096 := BitVec.allOnes 4096
  gen : SMap GenSlot := []
  slots : SMap Slot := []
  ctxUsed : Nat := 0
  ctxHigh : Nat := 0
  cmds : SMap (BitVec 128) := []
  sleep : Nat := 0
  /-- bank states, 0 AWAKE, 1 DRAINING, 2 ASLEEP, 3 WAKING -/
  banks : SMap Nat := []
  deriving DecidableEq, Repr

/-! ### Messages and ledger -/

/-- A record of a message channel (Table 9-7) with its payload. -/
structure Rec where
  setf : Bool := false
  flag : Nat := 0
  srcEp : Nat := 0
  srcPort : Nat := 0
  route : Nat := 0
  seq : Nat := 0
  spilled : Bool := false
  payload : List Byte := []
  /-- memory code of a poisoned drain read (R248) -/
  memCode : Nat := 0
  /-- where the completion of its SEND goes, while it is in flight -/
  doneQ : Nat := 0
  idx : Nat := 0
  deriving DecidableEq, Repr

/-- A record in a ring, with its offset; skip records carry only a length. -/
structure RingRec where
  offset : Nat := 0
  bytes : Nat := 0
  skip : Bool := false
  msg : Rec := {}
  deriving DecidableEq, Repr

/-- A held command (R240). -/
structure HeldCmd where
  /-- CMD of Table 9-5: 1 SEND to 5 CLRF -/
  kind : Nat := 0
  idx : Nat := 0
  cmd : EpCmd := {}
  deriving DecidableEq, Repr

/-- A record in the spill region (R247). -/
structure SpillRec where
  /-- its page; none: its write failed and it waits for a page (R248) -/
  page : Option Nat := none
  /-- its spill write has completed -/
  written : Bool := false
  msg : Rec := {}
  deriving DecidableEq, Repr

/-- A receive queue (R245 to R249). -/
structure RQueue where
  closed : Bool := false
  rp : Nat := 0
  wp : Nat := 0
  used : Nat := 0
  ring : List RingRec := []
  /-- spill list, oldest first -/
  spill : List SpillRec := []
  /-- records that found no page (R247), oldest first -/
  waiting : List Rec := []
  held : List HeldCmd := []
  lastDelivery : Nat := 0
  reported : Bool := false
  deriving DecidableEq, Repr

/-- The ledger counters of Table 9-10. -/
structure Ledger where
  crTotal : Nat := 0
  crHeld : Nat := 0
  crInUse : Nat := 0
  ringTotal : Nat := 0
  ringUsed : Nat := 0
  ringFree : Nat := 0
  spTotal : Nat := 0
  spFree : Nat := 0
  spUsed : Nat := 0
  spRetired : Nat := 0
  msgSent : Nat := 0
  msgDelivered : Nat := 0
  msgDead : Nat := 0
  msgResident : Nat := 0
  tokEmitted : Nat := 0
  tokConsumed : Nat := 0
  tokRetired : Nat := 0
  tokReturned : Nat := 0
  tokResident : Nat := 0
  wrIssued : Nat := 0
  wrAcked : Nat := 0
  wrFailed : Nat := 0
  wrOutstanding : Nat := 0
  ctxTotal : Nat := 0
  ctxFree : Nat := 0
  ctxUsed : Nat := 0
  collSent : Nat := 0
  collLanded : Nat := 0
  collReturned : Nat := 0
  collInFlight : Nat := 0
  deriving DecidableEq, Repr

/-- The message state of a partition. -/
structure MsgState where
  sub : MsgSub := {}
  /-- per route: credits in use, next SEQ, dead letters, records sent and not arrived -/
  inUse : SMap Nat := []
  seqs : SMap Nat := []
  dead : SMap Nat := []
  flying : SMap (List Rec) := []
  /-- SENDs held for a credit, per route -/
  heldSend : SMap (List HeldCmd) := []
  /-- queues by 16·EP + QUEUE -/
  queues : SMap RQueue := []
  flags : Nat := 0
  /-- spill pages in use, and retired ones -/
  pages : SMap Bool := []
  retiredPages : SMap Bool := []
  deriving DecidableEq, Repr

/-! ### Partitions -/

/-- A kernel of a loaded package. -/
structure PkgKernel where
  ktab : Nat := 0
  base : Nat := 0
  words : Nat := 0
  opBase : Nat := 0
  ops : Nat := 0
  instrs : List (BitVec 256) := []
  defaults : List Nat := []
  deriving DecidableEq, Repr

/-- A loaded package (R132). -/
structure Package where
  id : Nat := 0
  level : Nat := 0
  variant : Nat := 0
  kernels : List PkgKernel := []
  deriving DecidableEq, Repr

/-- A noise request's completed range (R201). -/
structure NoiseRange where
  offset : Nat := 0
  bytes : Nat := 0
  deriving DecidableEq, Repr

/-- A partition. State: 0 absent, 1 up, 2 tearing down, 3 down, 4 failed. -/
structure Part where
  state : Nat := 0
  tiles : Nat := 0
  seq : Nat := 0
  rlActive : Nat := 0
  core : Nat := 0
  stks : Nat := 0
  noiseBase : Nat := 0
  spillBase : Nat := 0
  spillPages : Nat := 0
  pkgs : List Package := []
  binds : SMap Nat := []
  runtimeQ : List Token := []
  /-- finished tiles the last MMUL left for a VPASS, in order; none: the last MMUL left none for one -/
  mmulQ : Option (List (List Nat)) := none
  /-- masks m0 and m1 of logical tile i of a VPASS, at 2·i and 2·i + 1 (assumption log 16) -/
  masks : SMap (BitVec 4096) := []
  /-- the model's own: how the last Glahus command ended, 0 or its code -/
  gCode : Nat := 0
  /-- the tokens of the Glahus operation that ended so leave with its code: it was refused, or its key check failed -/
  gTokens : Bool := false
  /-- the model's own: Glahus commands that wait behind a WAITT, which is the first, and the time its wait began -/
  held : List (Nat × GInstr) := []
  heldSince : Nat := 0
  /-- a Glahus command has recorded its first propagated poison (R403) -/
  poisonSeen : Bool := false
  /-- QRESET_p as written, without GO -/
  qresetReg : Nat := 0
  noiseReq : BitVec 256 := 0
  noiseBusy : Bool := false
  noiseDone : Bool := false
  noiseErr : Nat := 0
  noiseRanges : List NoiseRange := []
  msg : MsgState := {}
  ledger : Ledger := {}
  snapshot : Ledger := {}
  snapped : Bool := false
  snapTime : Nat := 0
  ledgerBusy : Bool := false
  breach : Bool := false
  breachItem : Nat := 0
  dumpAddr : Nat := 0
  poisonStop : Bool := false
  poisoned : Nat := 0
  drained : Nat := 0
  events : Nat := 0
  deriving DecidableEq, Repr

/-! ### Stack memory -/

/-- A stack controller (R205 to R228). -/
structure Stack where
  failed : Bool := false
  /-- retired pseudo-channels, by number -/
  retired : SMap Bool := []
  /-- migrations in progress (R225): the channel and its first row group not yet migrated -/
  migrations : List (Nat × Nat) := []
  /-- row groups a controller has to spare, as pc·49,152 + row group, and units it has to withdraw -/
  due : SMap Bool := []
  wdDue : SMap Bool := []
  corrected : Nat := 0
  uncorrectable : Nat := 0
  spared : Nat := 0
  /-- (pc·49,152 + row group) to 1 + (pc'·1,536 + spare) -/
  remap : SMap Nat := []
  /-- spares used per pseudo-channel -/
  sparesUsed : SMap Nat := []
  /-- per row-group key: line and time of its corrected errors of the last 24 hours (R223) -/
  errors : SMap (List (Nat × Nat)) := []
  /-- times of sparings, per pseudo-channel -/
  sparings : SMap (List Nat) := []
  patrolNext : Nat := 0
  deriving DecidableEq, Repr

/-- A Badger chain of a die (R229 to R231): the slot and block it serves, its Badger's tile, the tiles whose rows it has not
yet landed, the staging it has reserved, and whether it still runs. -/
structure Chain where
  slot : Nat := 0
  block : Nat := 0
  /-- the limb of the block it produces -/
  limb : Nat := 0
  badger : Nat := 0
  users : List Nat := []
  bytes : Nat := 0
  running : Bool := true
  deriving DecidableEq, Repr

/-- A shared cache (R209, R234) and the Badger chains of its die. -/
structure Cache where
  corrected : Nat := 0
  uncorrectable : Nat := 0
  ways : Nat := 0
  chains : List Chain := []
  deriving DecidableEq, Repr

/-- What the health record holds of a stack (R227). -/
structure StackHealth where
  failed : Bool := false
  retired : SMap Bool := []
  remap : SMap Nat := []
  sparesUsed : SMap Nat := []
  deriving DecidableEq, Repr

/-- A sparing event deferred by SPARE_HOLD (R234): stack, pseudo-channel, row group, or a retirement. -/
structure Deferred where
  stack : Nat := 0
  pc : Nat := 0
  rg : Nat := 0
  retire : Bool := false
  /-- lines the copy could not read -/
  bad : List Nat := []
  deriving DecidableEq, Repr

/-- Memory outside the byte contents. -/
structure MemCtl where
  stks : SMap Stack := []
  caches : SMap Cache := []
  patrolHours : Nat := 24
  spareHold : Bool := false
  holdSince : Nat := 0
  deferred : List Deferred := []
  /-- corrected lines waiting for their write-back (R218) -/
  fixups : SMap Bool := []
  /-- lines present in the home caches, and those of them that are dirty, by line address (R210, R211) -/
  cached : SMap Bool := []
  dirty : SMap Bool := []
  /-- poison of the stack's copy of a line whose cached copy is good, by line address -/
  under : SMap Nat := []
  /-- the code a requester's read in flight receives for a line whose error that read found (R216, R218) -/
  fresh : SMap Nat := []
  /-- the health record in flash (R227): withdrawn units, the stacks, units of unfinished entries -/
  healthUnits : SMap Bool := []
  healthStks : SMap StackHealth := []
  healthOpen : SMap Bool := []
  deriving DecidableEq, Repr

/-! ### Image, flash, owner -/

/-- A partition's shape once stacks and regions are settled. -/
structure Place where
  stks : Nat := 0
  noiseBase : Nat := 0
  spillBase : Nat := 0
  spillPages : Nat := 0
  deriving DecidableEq, Repr

/-- A load under way past its checks: the image, its placements, its IMG_STATUS.SOURCE, and whether it has reached step 4 of R273. -/
structure Loading where
  image : Image
  places : List Place
  source : Nat
  installing : Bool
  deriving DecidableEq, Repr

/-- A slot write under way (R281): the slot, false A and true B; the image; and whether only step 6 is left. -/
structure SlotWrite where
  slot : Bool
  image : List Byte
  lastStep : Bool
  deriving DecidableEq, Repr

/-- The IMAGE and NV registers and what stands behind them (R287). -/
structure ImageState where
  source : Nat := 0
  busy : Bool := false
  done : Bool := false
  error : Bool := false
  dropped : Bool := false
  errCode : Nat := 0
  src : Nat := 0
  loadedFrom : Nat := 0
  loads : Nat := 0
  rejReason : Nat := 0
  rejSection : Nat := 0
  rejIndex : Nat := 0
  rejItem : Nat := 0
  resultsDigest : Nat := 0
  nvSlot : Nat := 0
  nvBusy : Bool := false
  nvDone : Bool := false
  nvError : Bool := false
  nvErrCode : Nat := 0
  nvSrc : Nat := 0
  slotA : FlashSlot := {}
  slotB : FlashSlot := {}
  held : Option Nat := none
  /-- a load under way (R273, R406) -/
  loading : Option Loading := none
  /-- a slot write under way (R281) -/
  writing : Option SlotWrite := none
  /-- the structure in force; none: no structure (R282) -/
  image : Option Image := none
  deriving DecidableEq, Repr

/-- Owner record, scrub and owner registers (R283 to R287). -/
structure OwnerState where
  /-- the scrub-pending flag of the always-on domain -/
  pending : Bool := false
  change : Bool := false
  done : Bool := false
  error : Bool := false
  errCode : Nat := 0
  unitsDone : Nat := 0
  unitsTotal : Nat := 0
  restarts : Nat := 0
  /-- used entries of the owner record: REQ and DONE -/
  record : List (Nat × Nat) := []
  deriving DecidableEq, Repr

/-! ### Fabric -/

/-- A flit in the replay buffer (R296). -/
structure FlitOut where
  seq : Nat := 0
  /-- the packets that end in it -/
  packets : List Packet := []
  /-- its 256 bytes -/
  wire : List Byte := []
  deriving DecidableEq, Repr

/-- A Helbole port (Table 11-12, R289 to R306). State: 0 DOWN, 1 TRAINING, 2 ACTIVE, 3 FROG. -/
structure Port where
  state : Nat := 0
  width4 : Bool := false
  upper : Bool := false
  level : Nat := 0
  laneFailed : Nat := 0
  peerAddr : Nat := 0xFFFF
  trainFails : Nat := 0
  disable : Bool := false
  fecCorrected : Nat := 0
  replays : Nat := 0
  uncorrectable : Nat := 0
  txSeq : Nat := 0
  rxNext : Nat := 0
  lastAck : Nat := 0
  nakDue : Bool := false
  /-- flits sent and not acknowledged, oldest first -/
  replayBuf : List FlitOut := []
  unackedSince : Nat := 0
  /-- bytes received of a packet that is not whole yet -/
  rxStream : List Byte := []
  /-- packet buffers drained and not yet returned, by virtual channel -/
  owed : SMap Nat := []
  credits : SMap Nat := []
  ingress : List Packet := []
  /-- packets that wait to leave through this port -/
  egress : List Packet := []
  fails : Nat := 0
  failTime : Nat := 0
  frogAsked : Bool := false
  /-- traffic of virtual channels 0 to 2 makes the port leave Frog -/
  leaving : Bool := false
  peerTol : Nat := 0xFFFFFFFF
  deriving DecidableEq, Repr

/-- A collective: the instance in progress or the next one (R308 to R315). -/
structure Coll where
  /-- number of the instance -/
  inst : Nat := 0
  /-- issued here and not ended -/
  isOpen : Bool := false
  /-- causes of ABORTs that came before the issue, by instance number (R315) -/
  dead : SMap Nat := []
  part : Nat := 0
  entry : Nat := 0
  rx : Nat := 0
  since : Nat := 0
  ownDone : Bool := false
  hdr : Header := {}
  /-- groups landed, announced counts + 1 and headers, by sender's address (gather: groups landed by rank) -/
  landed : SMap Nat := []
  announced : SMap Nat := []
  childHdr : SMap Header := []
  /-- gather: sender's address + 1 of each rank that data packets have shown -/
  ranks : SMap Nat := []
  maxNoise : Nat := 0
  poisonRank : Nat := 0xFFFF
  poisonCause : Nat := 0
  flooded : Bool := false
  sentUp : Bool := false
  resHdr : Option Header := none
  resLanded : Nat := 0
  landPoison : Bool := false
  deriving DecidableEq, Repr

/-- What this module keeps for a peer and virtual channel (R299); keyed by 4·address + VC. -/
structure Peer where
  txSeq : Nat := 0
  /-- unacknowledged packets: PSEQ, partition, collective -/
  unacked : List (Nat × Nat × Nat) := []
  /-- packets that wait for room among the 128 unacknowledged ones -/
  txq : List Packet := []
  /-- next PSEQ in order, and later ones received -/
  rxNext : Nat := 0
  window : SMap Bool := []
  ackDue : Bool := false
  deriving DecidableEq, Repr

/-- A control packet sent on the job tree (Table 11-9): destination, subtype, fields. -/
structure CtlOut where
  dest : Nat := 0
  subtype : Nat := 0
  fields : List Nat := []
  deriving DecidableEq, Repr

/-- The fabric: ports, switch, job (R319). Job state: 0 none, 1 forming, 2 joined, 3 refused. -/
structure FabricState where
  cfg : FabricCfg := {}
  ports : SMap Port := []
  jobState : Nat := 0
  jobFreq : Nat := 0
  ownCeiling : Nat := 0
  epochLow : Nat := 0
  epochNo : Nat := 0
  lastEpoch : Nat := 0
  lockLost : Bool := false
  collLimit : Nat := 100000
  joinLimit : Nat := 10000
  dup : Nat := 0
  childCeil : SMap Nat := []
  childJoin : SMap (Nat × Nat) := []
  sentCeil : Nat := 0
  joinSince : Nat := 0
  joining : Bool := false
  aborts : List (Nat × Nat × Nat × Nat) := []
  colls : SMap Coll := []
  peers : SMap Peer := []
  out : List CtlOut := []
  deriving DecidableEq, Repr

/-! ### Host interface -/

/-- A descriptor fetched and not completed (R336). -/
structure Desc where
  entry : SubEntry := {}
  part : Nat := 0
  sqHead : Nat := 0
  /-- place in the order of fetching (R336) -/
  order : Nat := 0
  /-- a RUN whose kernel has started -/
  running : Bool := false
  /-- its core had begun it when the core halted (R406) -/
  begun : Bool := false
  deriving DecidableEq, Repr

/-- A queue pair (R333). -/
structure QPair where
  sqBase : Nat := 0
  cqBase : Nat := 0
  sqLog : Nat := 0
  cqLog : Nat := 0
  vec : Nat := 0
  enable : Bool := false
  /-- QCFG as written, without ENABLE; its values are in force from an enabling write on (R333) -/
  cfg : Nat := 0
  intCount : Nat := 0
  intUs : Nat := 0
  error : Bool := false
  errCode : Nat := 0
  sqHead : Nat := 0
  cqTail : Nat := 0
  tail : Nat := 0
  head : Nat := 0
  phase : Bool := false
  unsignalled : Nat := 0
  firstTime : Nat := 0
  desc : Option Desc := none
  deriving DecidableEq, Repr

/-- A function page, with the function's BAR2 size, TDI and IDE stream. TDI: 0 CONFIG_UNLOCKED,
1 CONFIG_LOCKED, 2 RUN, 3 ERROR. -/
structure Fn where
  queues : SMap QPair := []
  winBase : Nat := 0
  barLog : Nat := 41
  partChange : Bool := false
  accessErr : Bool := false
  errorRecord : Bool := false
  adminDone : Bool := false
  errCode : Nat := 0
  tdi : Nat := 0
  ideSecure : Bool := false
  /-- configuration space (Table 12-1): D3hot, codes of Max Payload Size and Max Read Request Size, AER mask, and the MSI-X table
  with its mask and pending bits -/
  d3 : Bool := false
  mps : Nat := 0
  mrrs : Nat := 2
  aerMask : Nat := 0
  msixTab : SMap (Nat × Nat) := []
  msixMask : SMap Bool := []
  msixPend : SMap Bool := []
  /-- latched high halves by register address: the value + 1 (R329) -/
  latch : SMap Nat := []
  deriving DecidableEq, Repr

/-- The HOST block and what the device sent to the host. -/
structure HostState where
  speed : Nat := 0
  width : Nat := 0
  mode : Nat := 0
  numVf : Nat := 0
  latTol : Nat := 0xFFFFFFFF
  ltrValue : Nat := 0
  ltrScale : Nat := 0
  ltrReq : Bool := false
  errCode : Nat := 0
  errFn : Nat := 0
  fns : SMap Fn := []
  /-- the last configuration access was answered with Request Retry Status (R390) -/
  retry : Bool := false
  /-- ASPM L1 and PTM enabled (Table 12-1); the base of the committed HDM decoder (Table 12-2) -/
  aspm : Bool := false
  ptm : Bool := false
  hdm : Option Nat := none
  /-- the CXL IDE stream of CXL.cache and CXL.mem is Secure (R351) -/
  cxlIde : Bool := false
  /-- descriptors fetched so far -/
  fetches : Nat := 0
  mem : Mem := []
  msix : List (Nat × Nat) := []
  readData : List Nat := []
  deriving DecidableEq, Repr

/-! ### Security complex -/

/-- A user key (slots 48 to 63). Curve: 1 P-256, 2 P-384. -/
structure UserKey where
  full : Bool := false
  ecdh : Bool := false
  curve : Nat := 0
  d : Nat := 0
  x : Nat := 0
  y : Nat := 0
  deriving DecidableEq, Repr

/-- An SPDM session. -/
structure Session where
  sid : Nat := 0
  doe : Bool := false
  established : Bool := false
  lastBeat : Nat := 0
  secret : Nat := 0
  deriving DecidableEq, Repr

/-- A public-key operation in the engine: when it started, the curve it runs on and its fixed time in cycles (R361). -/
structure PkOp where
  since : Nat := 0
  curve : Nat := 0
  cycles : Nat := 0
  deriving DecidableEq, Repr

/-- A response on MCTP or SPDM: kind and its values. -/
structure MgmtMsg where
  kind : String := ""
  code : Nat := 0
  vals : List Nat := []
  data : List Byte := []
  deriving DecidableEq, Repr

/-- An instance of CTR_DRBG with AES-256 (R362): Key and V of SP 800-90A. -/
structure Drbg where
  key : List Byte := []
  v : List Byte := []
  deriving DecidableEq, Repr

/-- The security complex (R366). -/
structure SecState where
  /-- slots 0 and 1: the private scalars of the device identity key and the alias key; 0 before they are derived (R347) -/
  identityKey : Nat := 0
  aliasKey : Nat := 0
  pkReady : Bool := false
  ownerKey : Option (Nat × Nat) := none
  wiping : Bool := false
  mismatches : Nat := 0
  done : Bool := false
  errCode : Nat := 0
  pkOp : Nat := 0
  pkSlot : Nat := 0
  pkCurve : Nat := 0
  pkEcdh : Bool := false
  pkRsaLen : Nat := 0
  pkBusy : Bool := false
  pkDone : Bool := false
  pkErr : Nat := 0
  running : Option PkOp := none
  microcodeBad : Bool := false
  secOk : Bool := false
  noiseOk : Bool := false
  sourceOk : Bool := false
  testFails : Nat := 0
  epoch : Nat := 0
  ownerBuf : Mem := []
  pkBuf : Mem := []
  users : SMap UserKey := []
  /-- keys of IDE streams plus 1: stream f of PF0 or a VF has key sets 2f and 2f + 1, CXL IDE has 18 and 19 (R351) -/
  ideKeys : SMap Nat := []
  /-- the key set in use of each stream, plus 1 -/
  ideUse : SMap Nat := []
  sessions : List Session := []
  spdmVersion : Nat := 0
  /-- the two DRBG instances (R362), and whether each reseeds before its next request -/
  secDrbg : Drbg := {}
  noiseDrbg : Drbg := {}
  secDue : Bool := false
  noiseDue : Bool := false
  secReqs : Nat := 0
  noiseReqs : Nat := 0
  lastSample : Nat := 0
  repeats : Nat := 0
  /-- the window of the adaptive proportion test: its first sample, how many equal it, and its length so far (R363) -/
  aptFirst : Nat := 0
  aptSame : Nat := 0
  aptLength : Nat := 0
  failTimes : List Nat := []
  heldInstall : Bool := false
  /-- a host operation that waits for the wipe's end: OP and the request (R365) -/
  heldPk : Option (Nat × PkReq) := none
  eid : Nat := 0
  out : List MgmtMsg := []
  deriving DecidableEq, Repr

/-! ### Power -/

/-- An entry of the ageing record (R383): both dies' trims, and whether its check field is valid. -/
structure AgeEntry where
  trim0 : Nat := 0
  trim1 : Nat := 0
  ok : Bool := true
  deriving DecidableEq, Repr

/-- The power and thermal controller (R388). State: 0 A0, 1 A1, 2 Lizard, 3 Deep Lizard, 4 TRIPPED. -/
structure PwrState where
  state : Nat := 0
  freq : Nat := 60
  ceiling : Nat := 60
  cp : Nat := 60
  nCap : Nat := 0
  nDie0 : Nat := 0
  nDie1 : Nat := 0
  capOvr : Nat := 0
  holdA0 : Bool := false
  sampleW : Nat := 0
  meanW : Nat := 0
  inputW : Nat := 0
  estimates : List Nat := []
  c0 : Nat := 60
  c1 : Nat := 60
  cmax : Nat := 60
  tempDie : SMap Int := []
  tempStack : SMap Int := []
  ageLimit : Bool := false
  /-- trim in half millivolts, the ageing record's own unit here: 2.5 mV is 5 -/
  half0 : Nat := 0
  half1 : Nat := 0
  /-- flash: the factory record's trims, and the ageing record's entries, oldest first (R383) -/
  factory0 : Nat := 0
  factory1 : Nat := 0
  ageLog : List AgeEntry := []
  tripSource : Nat := 0
  tripIndex : Nat := 0
  tripTemp : Int := 0
  policy : PowerPolicy := {}
  exiting : Bool := false
  /-- the step a change in progress leads to, and when it began (R376) -/
  changing : Option Nat := none
  changeAt : Nat := 0
  frozen : Bool := false
  /-- frozen cycles per 64-cycle window in force, by die (R377) -/
  dutyFrozen : SMap Nat := []
  lizSince : Option Nat := none
  deepSince : Option Nat := none
  capHeld : Bool := false
  /-- the millisecond in progress: its start, and the sum and number of its estimates -/
  msStart : Nat := 0
  msSum : Nat := 0
  msCount : Nat := 0
  /-- dies that are hot (R380) -/
  hot : SMap Bool := []
  /-- 1 + the time since which a die's readings are cool; 0: not cool -/
  coolSince : SMap Nat := []
  deriving DecidableEq, Repr

/-! ### Faults, cores, firmware, test, pins -/

/-- An error record (Table 15-6). -/
structure ErrRec where
  code : Nat := 0
  severity : Nat := 0
  part : Nat := 0xFF
  block : Nat := 0
  count : Nat := 0
  sequence : Nat := 0
  first : Nat := 0
  last : Nat := 0
  loc0 : Nat := 0
  loc1 : Nat := 0
  loc2 : Nat := 0
  loc3 : Nat := 0
  deriving DecidableEq, Repr

/-- The RAS block's own state (R401, R411). -/
structure RasState where
  head : Nat := 0
  unread : Nat := 0
  tail : Nat := 0
  fatal : Bool := false
  fatalCode : Nat := 0
  lost : Nat := 0
  recs : SMap ErrRec := []
  fatals : List ErrRec := []
  created : Nat := 0
  cause : Nat := 1
  resets : Nat := 0
  deriving DecidableEq, Repr

/-- A service core (R406). State: 0 running, 1 halted, 2 restarting. -/
structure Core where
  state : Nat := 0
  restarts : Nat := 0
  restartedAt : Option Nat := none
  done : Bool := false
  doneIdx : Nat := 0
  doneStatus : Nat := 0
  /-- completions a halted core has not posted (R406): owner, status, result -/
  pendingPosts : List (RunOwner × Nat × Nat) := []
  deriving DecidableEq, Repr

/-- The firmware bank of a delivered module, version 1.0 and security version 0 with results level 1, signed with the keys whose
public halves `Pins` gives as fused (assumption log 5). -/
def deliveredBank : FwBank where
  bytes := toBytes 128 0xc60d63568b3710311e98f4daa338d1805ba9d13d2c33672ab64ed38f930bd2f84d2458c8ae3c6436f1efb0103f45938c0000001000000000000100010000000057465a4b
    ++ toBytes 96 0x49344fed93c6b4f77e95697afd6b6b27b45702557850c015276f49a730cc3a2eaee6e55dd70d271283b0d61b8ed8e85a1085285c0cd5aa8c8753abd6ca74db59f247031d0642a9e836a992309c08f04902e331fb426b587d10f80a46f0e41756
    ++ List.replicate 32 0#8 ++ toBytes 16 0x3165646f636f7263696d204b50205a4b
  micro := {
    place := 0, length := 16, version := 0
    sigR := 0x4da9901882ee367e66228fe2ebcec899368748d5e416cc4e15366bb62a3b280c96a54c80436d7b07973514c8b2ea86ed
    sigS := 0x4749f58e16970ab811b821e0c1150a00605849aba75f083a1a21c37a45e0c40cd1b1e262e1f395305a5be76d279f1abb }

/-- Firmware banks and versions (R397, R398). -/
structure FwState where
  bank0 : FwBank := deliveredBank
  bank1 : FwBank := {}
  /-- a bank newly written since the last firmware restart or start-up (R393) -/
  written : Option Nat := none
  /-- a bank write in progress: the bank, and what it holds when the write is done (R391) -/
  writing : Option (Nat × FwBank) := none
  /-- the running bank; 2: none -/
  running : Nat := 0
  fwRollback : Nat := 0
  microRollback : Nat := 0
  since : Nat := 0
  activation : Option Bool := none
  factoryBad : Bool := false
  deriving DecidableEq, Repr

/-- Self-test (R411). -/
structure TestState where
  cmd : Nat := 0
  target : Nat := 0
  busy : Bool := false
  done : Bool := false
  pass : Bool := false
  errCode : Nat := 0
  failCount : Nat := 0
  misr : SMap Nat := []
  expect : SMap Nat := []
  deriving DecidableEq, Repr

/-- Pins, straps and fuses (R413, R414, R331). -/
structure Pins where
  inputOn : Bool := true
  perst : Bool := false
  moduleReset : Bool := false
  pwrGood : Bool := true
  thermTrip : Bool := false
  refclk : Bool := true
  mgmtSel : Bool := false
  addrStrap : Nat := 0
  hostMode : Nat := 0
  ready : Bool := false
  /-- a device reset held in TRIPPED (R382) -/
  resetHeld : Option ResetCause := none
  /-- a start-up that waits for PERST#, MODULE_RESET# or PWR_GOOD; true: with the full memory test -/
  waiting : Option Bool := none
  vendor : Nat := 0
  order : Nat := 1
  build : Nat := 1
  serial : Nat := 1
  /-- fused: the device secret of 256 bits (R347), Kazfel's firmware key (R398) and microcode key (R357), as P-384 points -/
  deviceSecret : Nat := 1
  fwKey : Nat × Nat := (0x19f11132dcdbea35312625c8c6c86ac3e8e5873b968e8a3d34f8d6723fe227c0bb1ab205d08861e202e3dac578cb0623,
    0xdce4b8a530d8de12359532e418cd980798da5d4c1a9c3ec15e730fc9cdc0c7e05050bf7b5ac1aa7366ac3a0fb3d379fa)
  microKey : Nat × Nat := (0x311e786533e17488f95841976efcb8a695f377c9400eb0408f7cc37b9e3a6ed9bdd695bafb0e17029dcf7625caec680,
    0x79bfae9865270a86c30b03141cba31f6749675c8f820c64e5fbe0c701a6c923187b6965095c8ecd2646b471b4ffb91ee)
  lots : SMap Nat := []
  wafers : SMap Nat := [(0, 1), (1, 1), (2, 1)]
  diePos : SMap Nat := []
  deriving DecidableEq, Repr

/-- The module. `pending` is the queue of waiting commands; `free` counts the free values drawn. -/
structure State where
  pending : List Instr := []
  now : Nat := 0
  free : Nat := 0
  mem : Mem := []
  /-- poisoned lines, by line address, with their cause (R219) -/
  poison : SMap Nat := []
  /-- withdrawn units, by stack·49,152 + unit (R206) -/
  withdrawn : SMap Bool := []
  seqs : SMap Seq := []
  tiles : SMap Tile := []
  parts : SMap Part := []
  memc : MemCtl := {}
  epMem : SMap Mem := []
  img : ImageState := {}
  owner : OwnerState := {}
  fab : FabricState := {}
  host : HostState := {}
  sec : SecState := {}
  pwr : PwrState := {}
  ras : RasState := {}
  cores : SMap Core := []
  fw : FwState := {}
  test : TestState := {}
  progressLimit : Nat := 10000
  pins : Pins := {}
  deriving DecidableEq, Repr

/-- The machine right after reset: every field at the value the spec states, else at the value the
assumption log names (logs 2 to 8). -/
def State.reset : State := {}

/-- Why the model stops. -/
inductive Fault where
  /-- Raised by every meaning for a command that is not well formed (`Instr.wf`): its index names no
  unit of the module, so no sender of the block can send it. Safe. -/
  | illFormed
  deriving DecidableEq, Repr

/-- Why a command has no meaning. -/
inductive Refusal where
  /-- Raised by an arm of `exec` whose command has no meaning yet. Safe. -/
  | notModelled (mnemonic : String)
  deriving DecidableEq, Repr

end Sys2Proof.Machine
end

