-- ==== Sys2Proof/WellFormed.lean ====
section
/-! DEFINITION. Well-formed commands: every index names a unit of the module, every field fits its width (Tables 5-3, 9-5, 11-3,
12-11, 13-12; R17, R82, R177, R205, R290, R332). -/

namespace Sys2Proof

/-- The fields fit their widths (Table 5-3). -/
def gOk (p : Nat) (g : GInstr) : Bool :=
  decide (p < 8) && decide (g.f0 < 256) && decide (g.f1 < 256) && decide (g.f2 < 256) && decide (g.pset < 16)
    && decide (g.param < 16) && decide (g.imm8 < 256) && decide (g.imm64 < 2 ^ 64) && decide (g.rx < 2 ^ 64)
    && decide (g.ry < 2 ^ 64)

/-- A tile and a slot index exist. -/
def slotOk (t i : Nat) : Bool := decide (t < 64) && decide (i < 24)

/-- Bounds of a descriptor command. -/
def descOk (n q : Nat) : Bool := decide (n < 9) && decide (q < 8)

/-- Bounds of a PK_CTRL write. -/
def pkOk (r : PkReq) : Bool :=
  decide (r.slot < 64) && decide (r.curve < 4) && decide (r.rsaLen < 4) && decide (r.reserved < 2 ^ 49)

/-- Bounds of an endpoint command. -/
def epOkArgs (p ep idx : Nat) (c : EpCmd) : Bool :=
  decide (p < 8) && decide (ep < 68) && decide (idx < 256) && decide (c.index < 16) && decide (c.flag < 32)
    && decide (c.row < 2 ^ 16) && decide (c.len < 2 ^ 14) && decide (c.doneQ < 16) && decide (c.reserved < 2 ^ 80)
    && (c.badCmd.all (fun k => k == 0 || (decide (6 ≤ k) && decide (k < 16))))

/-- Bounds of what a training meets. -/
def trainOk (n : Nat) (t : TrainIn) : Bool := decide (n < 8) && decide (t.peerAddr < 2 ^ 16) && t.laneTest.length == 8

/-- Bounds of a packet's fields (Table 11-3). -/
def packetOk (x : Packet) : Bool :=
  decide (x.type < 16) && decide (x.vc < 4) && decide (x.units < 16) && decide (x.dest < 2 ^ 16) && decide (x.src < 2 ^ 16)
    && decide (x.pseq < 2 ^ 24) && decide (x.coll < 256) && decide (x.inst < 256) && decide (x.offset < 2 ^ 32)
    && decide (x.part < 8) && x.body.length == 16 * x.units

/-- Bounds of thermal readings. -/
def tempsOk (d : Nat) (t : DieTemps) : Bool :=
  let r := fun (x : Int) => decide (-32768 ≤ x) && decide (x < 32768)
  decide (d < 2) && r t.die && t.stks.length == 6 && t.stks.all r

/-- A bank of at most 16 MiB (R397), and its microcode's version and signature. -/
def fwBankOk (b : FwBank) : Bool :=
  decide (b.bytes.length ≤ 2 ^ 24) && decide (b.micro.version < 2 ^ 32)
    && decide (b.micro.sigR < 2 ^ 384) && decide (b.micro.sigS < 2 ^ 384)

/-- A temperature reading, in 1/16 °C. -/
def tempOk (x : Int) : Bool := decide (-32768 ≤ x) && decide (x < 32768)

/-- Bounds of a register access. -/
def regOk (n a size : Nat) : Bool := decide (n ≤ 9) && decide (a < 2 ^ 41) && decide (size ≤ 64)

/-- The samples of the start-up entropy tests: 1,024 of 8 bits (R363). -/
def samplesOk (l : List Nat) : Bool := l.length == 1024 && l.all (fun x => decide (x < 256))

/-- Outcomes of a start-up are in range. -/
def startOk (i : StartIn) : Bool :=
  (i.failLines ++ i.softLines).all (fun a => decide (a < Config.stackTop)) && samplesOk i.samples

/-- A configuration access names a function and values Tables 12-1 and 12-2 support. -/
def cfgOk (a : CfgAccess) : Bool :=
  match a with
  | .bar2Size n z => decide (n < 9) && decide (z < 64)
  | .numVfs k => decide (k ≤ 8)
  | .powerState n _ => decide (n < 9)
  | .maxPayload n c => decide (n < 9) && decide (c ≤ 2)
  | .maxRead n c => decide (n < 9) && decide (c ≤ 5)
  | .msixVector n v a d _ => decide (n < 9) && decide (v < 16) && decide (a < 2 ^ 64) && decide (d < 2 ^ 32)
  | .aspm _ => true
  | .ptm _ => true
  | .aerMask n m => decide (n < 9) && decide (m < 2 ^ 64)
  | .hdmDecoder b => b.all (fun x => decide (x < 2 ^ 64))
  | .readId n => decide (n < 9)
  | .other => true

/-- A command that a sender can send. -/
def Instr.wf (c : Instr) : Bool :=
  match c with
  | .operate w => decide (w.seq < 8)
  | .nopWord w => decide (w.seq < 8)
  | .beatRead q => decide (q < 8)
  | .beatWrite q _ => decide (q < 8)
  | .wordRetire q => decide (q < 8)
  | .waitRelease q => decide (q < 8)
  | .waitTimeout q => decide (q < 8)
  | .replayBoundary q => decide (q < 8)
  | .replayFetch q => decide (q < 8)
  | .start q kernel replays _ => decide (q < 8) && decide (kernel < 64) && decide (replays < 2 ^ 24)
  | .stop q => decide (q < 8)
  | .kernelDrainEnd q => decide (q < 8)
  | .kernelComplete q => decide (q < 8)
  | .loadGo q dest count _ => decide (q < 8) && decide (dest < 2 ^ 15) && decide (count < 2 ^ 16)
  | .loadComplete q => decide (q < 8)
  | .ktabWrite q e _ => decide (q < 8) && decide (e < 64)
  | .parameterRegisterWrite q r _ => decide (q < 8) && decide (r < 16)
  | .counterStackCountWrite k _ _ => decide (k < 12)
  | .counterCacheStatusWrite d _ _ => decide (d < 2)
  | .counterPortCountWrite n _ _ => decide (n < 8)
  | .registerWrite n a size _ _ => regOk n a size
  | .nop p g => gOk p g
  | .waitt p g => gOk p g
  | .emitt p g => gOk p g
  | .ldct p g => gOk p g
  | .stct p g => gOk p g
  | .bind p g => gOk p g
  | .ldl p g => gOk p g
  | .stl p g => gOk p g
  | .ldt p g => gOk p g
  | .stt p g => gOk p g
  | .ladd p g => gOk p g
  | .lsub p g => gOk p g
  | .lneg p g => gOk p g
  | .lmul p g => gOk p g
  | .lmac p g => gOk p g
  | .lmulc p g => gOk p g
  | .lntt p g => gOk p g
  | .lintt p g => gOk p g
  | .laut p g => gOk p g
  | .cadd p g => gOk p g
  | .csub p g => gOk p g
  | .cneg p g => gOk p g
  | .caddp p g => gOk p g
  | .cmulp p g => gOk p g
  | .cmul p g => gOk p g
  | .cmuli p g => gOk p g
  | .relin p g => gOk p g
  | .rot p g => gOk p g
  | .ksw p g => gOk p g
  | .modup p g => gOk p g
  | .moddown p g => gOk p g
  | .rescale p g => gOk p g
  | .modsw p g => gOk p g
  | .drop p g => gOk p g
  | .toeval p g => gOk p g
  | .tocoef p g => gOk p g
  | .encpk p g => gOk p g
  | .modraise p g => gOk p g
  | .bootclose p g => gOk p g
  | .flood p g => gOk p g
  | .mmul p g => gOk p g
  | .vpass p g => gOk p g
  | .rseed p g => gOk p g
  | .allred p g => gOk p g
  | .bcast p g => gOk p g
  | .gather p g => gOk p g
  | .streamArm t i => slotOk t i
  | .streamGo t i => slotOk t i
  | .streamAbort t i => slotOk t i
  | .slotWrite t i w _ => slotOk t i && decide (w < 8)
  | .fetchStatusRead t => decide (t < 64)
  | .blockListRead t i => slotOk t i
  | .streamBlockStart t i => slotOk t i
  | .fetchLineLand t i => slotOk t i
  | .storeAck t i => slotOk t i
  | .streamBlockComplete t i => slotOk t i
  | .streamRunComplete t i => slotOk t i
  | .streamAbortDrained t i => slotOk t i
  | .ctHeaderLoad t i => slotOk t i
  | .keyHeaderCheck t i => slotOk t i
  | .tensorHeaderRead t i => slotOk t i
  | .coordinateListRead t i _ => slotOk t i
  | .badgerChainStart t i => slotOk t i
  | .badgerChainEnd t i _ => slotOk t i
  | .noiseRequestGo w => decide (w.part < 8)
  | .noiseRequestDone p => decide (p < 8)
  | .stackRead addr symbols cache => decide (addr < 2 ^ 64) && decide (symbols ≤ 144) && decide (cache.err ≤ 2)
  | .stackWrite addr data symbols => decide (addr < 2 ^ 64) && decide (symbols ≤ 144) && decide (addr % 128 + data.length ≤ 128)
  | .correctedWriteback addr => decide (addr < Config.stackTop)
  | .atomic _ addr _ _ _ => decide (addr < 2 ^ 64)
  | .dirtyWriteback addr => decide (addr < Config.stackTop)
  | .patrolScrub k symbols => decide (k < 12) && decide (symbols ≤ 144)
  | .rowSparing k pc rg _ => decide (k < 12) && decide (pc < 64) && decide (rg < Config.unitsPerStack)
  | .pcRetirement k r => decide (k < 12) && decide (r.pc < 64)
  | .migration k m => decide (k < 12) && decide (m.groups ≤ Config.unitsPerStack)
  | .withdrawal k u => decide (k < 12) && decide (u < Config.unitsPerStack)
  | .healthRecordWrite => true
  | .stackLoss k => decide (k < 12)
  | .spareHoldExpiry => true
  | .send p ep idx c => epOkArgs p ep idx c
  | .recv p ep idx c => epOkArgs p ep idx c
  | .close p ep idx c => epOkArgs p ep idx c
  | .openQueue p ep idx c => epOkArgs p ep idx c
  | .clrf p ep idx c => epOkArgs p ep idx c
  | .heldCommandResume p ep index _ => decide (p < 8) && decide (ep < 68) && decide (index < 16)
  | .recordArrival p route => decide (p < 8) && decide (route < 1088)
  | .spillDrain p ep queue => decide (p < 8) && decide (ep < 68) && decide (queue < 16)
  | .spillWriteComplete p ep queue => decide (p < 8) && decide (ep < 68) && decide (queue < 16)
  | .qreset p ep queue => decide (p < 8) && decide (ep < 256) && decide (queue < 16)
  | .flagSet p mask => decide (p < 8) && decide (mask < 2 ^ 32)
  | .progressWatchdog p ep queue => decide (p < 8) && decide (ep < 256) && decide (queue < 16)
  | .ledgerCheck p _ => decide (p < 8)
  | .snap l => decide (l.part < 8)
  | .dump l => decide (l.part < 8)
  | .load source _ _ => decide (source < 4)
  | .heldLoadStart _ _ => true
  | .teardown w => decide (w.part < 8)
  | .nvWrite slot _ _ => decide (slot < 4)
  | .invalidate slot => decide (slot < 4)
  | .change i => samplesOk i.samples
  | .scrub i => samplesOk i.samples
  | .ownerChangeScrubDone failUnits _ => failUnits.all (fun u => decide (u < 12 * Config.unitsPerStack))
  | .flitReceive n body tail => decide (n < 8) && body.length == 240 && tail.length == 16
  | .replayTimeout n => decide (n < 8)
  | .packetForward n => decide (n < 8)
  | .portTraining n link => trainOk n link
  | .trainingRetry n link => trainOk n link
  | .laneFailure n lane => decide (n < 8) && decide (lane < 8)
  | .portDown n => decide (n < 8)
  | .retrain n link => trainOk n link
  | .contributionArrival pkt => packetOk pkt
  | .dataArrival pkt => packetOk pkt
  | .landingAcknowledgement peer vc upTo => decide (peer < 2 ^ 16) && decide (vc < 2) && decide (upTo < 2 ^ 24)
  | .landingAckSend peer vc => decide (peer < 2 ^ 16) && decide (vc < 2)
  | .collSendUp c => decide (c < 64)
  | .collResultComplete c => decide (c < 64)
  | .collTimeout c => decide (c < 64)
  | .ceiling from_ job step => decide (from_ < 2 ^ 16) && decide (job < 2 ^ 64) && decide (step < 256)
  | .epoch job e f => decide (job < 2 ^ 64) && decide (e < 2 ^ 32) && decide (f < 256)
  | .epochTimer => true
  | .freqLockLost => true
  | .abort from_ job coll inst cause origin => decide (from_ < 2 ^ 16) && decide (job < 2 ^ 64) && decide (coll < 256) && decide (inst < 256) && decide (cause < 2 ^ 16) && decide (origin < 2 ^ 16)
  | .join from_ job level count => decide (from_ < 2 ^ 16) && decide (job < 2 ^ 64) && decide (level < 256) && decide (count < 2 ^ 16)
  | .joinResult job status => decide (job < 2 ^ 64) && decide (status < 2 ^ 16)
  | .leave from_ job origin => decide (from_ < 2 ^ 16) && decide (job < 2 ^ 64) && decide (origin < 2 ^ 16)
  | .advert n tol => decide (n < 8) && decide (tol < 2 ^ 32)
  | .joinLimitExpiry => true
  | .frogEntry n => decide (n < 8)
  | .frogExit n => decide (n < 8)
  | .sqTail n q tail _ => decide (n < 9) && decide (q < 8) && decide (tail < 2 ^ 16)
  | .cqHead n q head _ => decide (n < 9) && decide (q < 8) && decide (head < 2 ^ 16)
  | .qcfgWrite n q _ _ => decide (n < 9) && decide (q < 8)
  | .winBaseWrite n _ _ => decide (n < 9)
  | .descriptorFetch n q _ => decide (n < 9) && decide (q < 8)
  | .nopDescriptor n q => descOk n q
  | .run n q => descOk n q
  | .loadPkg n q => descOk n q
  | .unloadPkg n q => descOk n q
  | .copyIn n q _ => descOk n q
  | .copyOut n q _ => descOk n q
  | .ctxSave n q => descOk n q
  | .ctxRestore n q => descOk n q
  | .interruptTimer n q => descOk n q
  | .bar2Read n x len _ => decide (n < 9) && decide (x < 2 ^ 41) && decide (len ≤ 4096)
  | .bar2Write n x data _ => decide (n < 9) && decide (x < 2 ^ 41) && decide (data.length ≤ 4096)
  | .linkRetrain speed width => decide (speed < 8) && decide (width < 32)
  | .vfFunctionLevelReset n => decide (n < 9)
  | .pf0FunctionLevelReset => true
  | .setEndpointId eid => decide (eid < 256)
  | .getEndpointId => true
  | .getMctpVersionSupport => true
  | .getMessageTypeSupport => true
  | .getEndpointUuid => true
  | .pldmBase cmd => decide (cmd < 256)
  | .pldmMonitoringAndControl _ sensor => decide (sensor < 2 ^ 16)
  | .pldmFru => true
  | .pldmFirmwareUpdate bank _ => fwBankOk bank
  | .firmwareActivation _ => true
  | .regRead a => decide (a < 2 ^ 32)
  | .regWrite a _ => decide (a < 2 ^ 32)
  | .ownerChange i => samplesOk i.samples
  | .ownerScrub i => samplesOk i.samples
  | .getVersion _ => true
  | .getCapabilities _ => true
  | .negotiateAlgorithms _ offer => decide (offer.version < 256)
  | .getCertificate _ slot offset length => decide (slot < 256) && decide (offset < 2 ^ 16) && decide (length < 2 ^ 16)
  | .challenge _ slot nonce => decide (slot < 256) && decide (nonce < 2 ^ 256)
  | .getMeasurements _ index nonce => decide (index < 256) && decide (nonce < 2 ^ 256)
  | .keyExchange _ curve => decide (curve < 256)
  | .heartbeat _ sid => decide (sid < 4)
  | .heartbeatTimeout _ sid => decide (sid < 4)
  | .keyUpdate _ sid => decide (sid < 4)
  | .ideKm sid fn key => decide (sid < 4) && decide (fn < 9) && decide (key.key < 2 ^ 256)
  | .lockInterfaceRequest sid n => decide (sid < 4) && decide (n < 9)
  | .startInterfaceRequest sid n => decide (sid < 4) && decide (n < 9)
  | .stopInterfaceRequest sid n => decide (sid < 4) && decide (n < 9)
  | .installOwner => true
  | .ecdsaVerify r => pkOk r
  | .ecdsaSign r => pkOk r
  | .ecdh r => pkOk r
  | .gen r => pkOk r
  | .readPublic r => pkOk r
  | .rsaVerify r => pkOk r
  | .pkOperationDone _ => true
  | .microcodeCheck _ => true
  | .entropySample sample => decide (sample < 256)
  | .enterA1 => true
  | .enterLizard => true
  | .enterDeepLizard => true
  | .powerStateExit => true
  | .bankSleepWrite t _ => decide (t < 64)
  | .bankPowerOff t b => decide (t < 64) && decide (b < 24)
  | .bankWakeDone t b => decide (t < 64) && decide (b < 24)
  | .frequencyChange => true
  | .dutyWindow => true
  | .powerSample staticW dynamicW input => decide (staticW + dynamicW < 2 ^ 16) && decide (input < 2 ^ 16)
  | .capRecompute staticW dynamicW => decide (staticW + dynamicW < 2 ^ 16)
  | .capCeilingRaise => true
  | .thermalThrottle d temps => tempsOk d temps
  | .thermalStep d temps => tempsOk d temps
  | .trip stack index temp => decide (index < if stack then 12 else 2) && decide (-32768 ≤ temp) && decide (temp < 32768)
  | .ageingTrim a => decide (a.die < 2)
  | .pwrCtrlWrite _ => true
  | .coldStart i => startOk i
  | .deviceReset _ i => startOk i
  | .pwrGoodDeassert => true
  | .refclkLoss => true
  | .watchdogExpiry c i => decide (c < 4) && startOk i
  | .coreRestartDone c => decide (c < 4)
  | .rollbackCounterRaise => true
  | .logicBist target => decide (target < 2 ^ 16)
  | .arrayMemoryBist target => decide (target < 2 ^ 16)
  | .cacheMemoryBist target => decide (target < 2 ^ 16)
  | .stackMemoryBist target => decide (target < 2 ^ 16)
  | .bistAbort target => decide (target < 2 ^ 16)
  | .bistDone misr units => misr.all (fun e => decide (e.1 < 2) && decide (e.2 < 2 ^ 64)) && units.all (fun u => decide (u.unit < 12 * Config.unitsPerStack) && decide (u.misr < 2 ^ 64))
  | .rasTailWrite _ => true
  | .fatalClear => true
  | .pwrGoodAssert i => startOk i
  | .lossOfInput => true
  | .refclkReturn => true
  | .perstDeassertion i => startOk i
  | .trippedResetRelease dieTemps stackTemps i => startOk i && dieTemps.length == 2 && stackTemps.length == 12 && dieTemps.all tempOk && stackTemps.all tempOk
  | .configurationAccess a => cfgOk a
  | .registerRead n a size _ => regOk n a size
  | .finish _ sid => decide (sid < 4)
  | .endSession _ sid => decide (sid < 4)
  | .frequencyChangeEnd => true
  | .powerStateExitDone => true

end Sys2Proof
end

