-- ==== Sys2Proof/Machine/Ops.lean ====
section
/-! DEFINITION. The named operations over the state: components by number, error records, function events,
stack memory, tokens and the ledger counters. -/

namespace Sys2Proof.Machine

/-- The answer of a command. -/
abbrev Out := Host.Outcome State Fault Refusal

/-- A well-formed command answers its next state; an ill-formed one cannot be sent. -/
def guarded (ok : Bool) (s : State) : Out := if ok then .next s else .fault .illFormed

/-! ### Components by number -/

/-- Sequencer Qq. -/
def State.seq (s : State) (q : Nat) : Seq := smGet {} s.seqs q
/-- Change sequencer Qq. -/
def State.modSeq (s : State) (q : Nat) (f : Seq → Seq) : State := { s with seqs := smSet {} s.seqs q (f (s.seq q)) }
/-- Tile t. -/
def State.tile (s : State) (t : Nat) : Tile := smGet {} s.tiles t
/-- Change tile t. -/
def State.modTile (s : State) (t : Nat) (f : Tile → Tile) : State := { s with tiles := smSet {} s.tiles t (f (s.tile t)) }
/-- Partition p. -/
def State.part (s : State) (p : Nat) : Part := smGet {} s.parts p
/-- Change partition p. -/
def State.modPart (s : State) (p : Nat) (f : Part → Part) : State := { s with parts := smSet {} s.parts p (f (s.part p)) }
/-- Stack controller k. -/
def State.stk (s : State) (k : Nat) : Stack := smGet {} s.memc.stks k
/-- Change stack controller k. -/
def State.modStk (s : State) (k : Nat) (f : Stack → Stack) : State :=
  { s with memc := { s.memc with stks := smSet {} s.memc.stks k (f (s.stk k)) } }
/-- Shared cache d. -/
def State.cache (s : State) (d : Nat) : Cache := smGet {} s.memc.caches d
/-- Change shared cache d. -/
def State.modCache (s : State) (d : Nat) (f : Cache → Cache) : State :=
  { s with memc := { s.memc with caches := smSet {} s.memc.caches d (f (s.cache d)) } }
/-- Function page f. -/
def State.fn (s : State) (f : Nat) : Fn := smGet {} s.host.fns f
/-- Change function page n. -/
def State.modFn (s : State) (n : Nat) (f : Fn → Fn) : State :=
  { s with host := { s.host with fns := smSet {} s.host.fns n (f (s.fn n)) } }
/-- Queue pair q of function n. -/
def State.qp (s : State) (n q : Nat) : QPair := smGet {} (s.fn n).queues q
/-- Change queue pair q of function n. -/
def State.modQp (s : State) (n q : Nat) (f : QPair → QPair) : State :=
  s.modFn n (fun x => { x with queues := smSet {} x.queues q (f (smGet {} x.queues q)) })
/-- Port n. -/
def State.port (s : State) (n : Nat) : Port := smGet {} s.fab.ports n
/-- Change port n. -/
def State.modPort (s : State) (n : Nat) (f : Port → Port) : State :=
  { s with fab := { s.fab with ports := smSet {} s.fab.ports n (f (s.port n)) } }
/-- Collective c. -/
def State.coll (s : State) (c : Nat) : Coll := smGet {} s.fab.colls c
/-- Change collective c. -/
def State.modColl (s : State) (c : Nat) (f : Coll → Coll) : State :=
  { s with fab := { s.fab with colls := smSet {} s.fab.colls c (f (s.coll c)) } }
/-- Service core c. -/
def State.core (s : State) (c : Nat) : Core := smGet {} s.cores c
/-- Change service core c. -/
def State.modCore (s : State) (c : Nat) (f : Core → Core) : State := { s with cores := smSet {} s.cores c (f (s.core c)) }
/-- Change the ledger of partition p. -/
def State.modLedger (s : State) (p : Nat) (f : Ledger → Ledger) : State :=
  s.modPart p (fun x => { x with ledger := f x.ledger })
/-- Change the message state of partition p. -/
def State.modMsg (s : State) (p : Nat) (f : MsgState → MsgState) : State :=
  s.modPart p (fun x => { x with msg := f x.msg })

/-- Draw the next free value (assumption log 3). -/
def State.draw (s : State) : Nat × State := (Config.freeNat s.free, { s with free := s.free + 1 })

/-- Bytes of a free string. -/
def freeBytes (idx n : Nat) : List Byte := (upTo n).map (fun j => BitVec.ofNat 8 (Config.freeAt idx j))

/-- The tiles of partition p (Table 4-1). -/
def State.partTiles (s : State) (p : Nat) : List Nat :=
  (upTo (s.part p).tiles).map (fun i => p * (s.part p).tiles + i)

/-- The partition a sequencer drives: an existing partition that names it (R82). -/
def State.seqPart (s : State) (q : Nat) : Option Nat :=
  (upTo 8).find? (fun p => (s.part p).tiles != 0 && (s.part p).seq == q)

/-- The partition a tile belongs to. -/
def State.tilePart (s : State) (t : Nat) : Option Nat :=
  (upTo 8).find? (fun p => decide (p * (s.part p).tiles ≤ t) && decide (t < p * (s.part p).tiles + (s.part p).tiles))

/-- Fold a function over a list of numbers. -/
def State.each (s : State) (l : List Nat) (f : Nat → State → State) : State := l.foldl (fun x i => f i x) s

/-- Partition p reads "up". -/
def State.isUp (s : State) (p : Nat) : Bool := (s.part p).state == 1

/-! ### Function events and error records -/

/-- VF n exists (R325). -/
def State.vfOn (s : State) (n : Nat) : Bool :=
  decide (1 ≤ n) && decide (n ≤ s.host.numVf) && !(s.ras.fatal && s.ras.fatalCode == cFactoryInvalid)

/-- A function exists: PF0, or a VF within NumVFs (R325). -/
def State.fnOn (s : State) (n : Nat) : Bool := n == 0 || s.vfOn n

/-- The configuration of a VF's queues and BARs is closed (Table 13-5). -/
def State.tdiClosed (s : State) (n : Nat) : Bool := (s.fn n).tdi == 1 || (s.fn n).tdi == 2

/-- MSI-X message of a function (R332, R339); that of a masked vector stays pending (assumption log 32). -/
def State.msi (s : State) (n v : Nat) : State :=
  if smGet false (s.fn n).msixMask v then s.modFn n (fun x => { x with msixPend := smSet false x.msixPend v true })
  else { s with host := { s.host with msix := s.host.msix ++ [(n, v)] } }

/-- Raise FN_EVENT.PART_CHANGE of a function that exists; vector 15 signals a rising bit. -/
def State.evPart (s : State) (n : Nat) : State :=
  if ¬ s.fnOn n ∨ (s.fn n).partChange = true then s else (s.modFn n (fun x => { x with partChange := true })).msi n 15
/-- Raise FN_EVENT.ADMIN_DONE of PF0. -/
def State.evAdmin (s : State) : State :=
  if (s.fn 0).adminDone then s else (s.modFn 0 (fun x => { x with adminDone := true })).msi 0 15
/-- Raise FN_EVENT.ERROR_RECORD of PF0. -/
def State.evRecord (s : State) : State :=
  if (s.fn 0).errorRecord then s else (s.modFn 0 (fun x => { x with errorRecord := true })).msi 0 15
/-- Record a host-side error in HOST_ERR and in FN_EVENT of the function (R327). -/
def State.evAccess (s : State) (n code : Nat) : State :=
  let was := (s.fn n).accessErr
  let s := { s with host := { s.host with errCode := code, errFn := n } }
  let s := s.modFn n (fun x => { x with accessErr := true, errCode := code })
  if was then s else s.msi n 15

/-- Codes marked as events in their tables. -/
def eventCodes : List Nat :=
  [cEccCorrected, cRowSpared, cPcRetired, cSparesExhausted, cNoProgress, cLinkDown, cLaneDegraded,
   cRouteFailover, cFreqLockLost, cLinkDegraded, cRegAccess, cEntropyFail, cIdeViolation,
   cCapThrottle, cThermalThrottle, cAgeingLimit, cFwBankInvalid, cCoreEscalated]

/-- Severity of a code (Table 15-5). -/
def severityOf (c : Nat) : Nat :=
  if c = cLedgerBreach ∨ c = cThermalTrip ∨ c = cFactoryInvalid then 3
  else if c = cStackFailed then 2
  else if eventCodes.contains c then 0
  else 1

/-- Faults that create an error record by their code (R400). -/
def recordable (c : Nat) : Bool :=
  severityOf c != 1 || [4, 7, 9, 10, 11, 12].contains (c / 256)
    || c == cBridgeUncorrectable || c == cCmemUncorrectable || c == cHostDma

/-- A stored record a new occurrence merges into (R400): same code, partition and LOC0, less than 1 s old. -/
def recMatches (now code part loc0 : Nat) (r : ErrRec) : Bool :=
  r.code == code && r.part == part && r.loc0 == loc0 && decide (now - r.last < 100000000)

/-- Where an error comes from: its partition (255: the module), BAR0 block and location words (Table 15-7). -/
structure ErrLoc where
  part : Nat := 255
  block : Nat := 0
  loc0 : Nat := 0
  loc1 : Nat := 0
  loc2 : Nat := 0
  loc3 : Nat := 0
  deriving DecidableEq, Repr

/-- Store a new record in slot HEAD (R401). -/
def RasState.store (r : RasState) (e : ErrRec) : RasState :=
  let full := r.unread == 1024
  { r with
    recs := smSet {} r.recs r.head e
    head := (r.head + 1) % 1024
    unread := if full then 1024 else r.unread + 1
    tail := if full then (r.tail + 1) % 1024 else r.tail
    lost := if full then satInc 16 r.lost else r.lost
    fatals := if e.severity = 3 ∧ r.fatals.length < 8 then r.fatals ++ [e] else r.fatals
    created := e.sequence }

/-- Create or merge an error record (R400, R401). -/
def State.record (s : State) (code : Nat) (l : ErrLoc) : State :=
  match (upTo 1024).find? (fun i => recMatches s.now code l.part l.loc0 (smGet {} s.ras.recs i)) with
  | some i =>
    let r := smGet {} s.ras.recs i
    { s with ras := { s.ras with recs := smSet {} s.ras.recs i { r with count := satInc 16 r.count, last := s.now } } }
  | none =>
    let e : ErrRec :=
      { code := code, severity := severityOf code, part := l.part, block := l.block, count := 1
        sequence := s.ras.created + 1, first := s.now, last := s.now
        loc0 := l.loc0, loc1 := l.loc1, loc2 := l.loc2, loc3 := l.loc3 }
    let s := { s with ras := s.ras.store e }
    let s := if severityOf code = 0 ∧ l.part < 8
      then s.modPart l.part (fun x => { x with events := satInc 16 x.events }) else s
    s.evRecord

/-- Report a fault: an error record where R400 asks for one. -/
def State.report (s : State) (code : Nat) (l : ErrLoc) : State := if recordable code then s.record code l else s

/-- Record REG_ACCESS 0x0808 for an access by a function (R329): the event record, HOST_ERR and FN_EVENT. -/
def State.regAccess (s : State) (n block : Nat) : State :=
  (s.record cRegAccess { block := block }).evAccess n cRegAccess

/-! ### Owner requests -/

/-- A request is recorded: some owner-record entry has REQ not all ones and DONE all ones (R284). -/
def State.requestRecorded (s : State) : Bool :=
  s.owner.record.any (fun e => e.1 != 2 ^ 64 - 1 && e.2 == 2 ^ 64 - 1)

/-- The scrub-pending flag is set, or a request is recorded (R286). -/
def State.scrubbing (s : State) : Bool := s.owner.pending || s.requestRecorded

/-! ### Stack memory -/

/-- The stack of a stack address (R203). -/
def stackNo (a : Nat) : Nat := a >>> 37
/-- The stack offset. -/
def stackOff (a : Nat) : Nat := a % 2 ^ 37
/-- The withdrawal unit of an address, numbered over the module (Table 8-1). -/
def unitKey (a : Nat) : Nat := stackNo a * Config.unitsPerStack + stackOff a / Config.unitBytes
/-- The line of an address. -/
def lineOf (a : Nat) : Nat := a / 128 * 128
/-- Pseudo-channel of an address (Table 8-1). -/
def pcOf (a : Nat) : Nat := bits a 13 8
/-- Row group of an address within its pseudo-channel. -/
def rgOf (a : Nat) : Nat := stackOff a / Config.unitBytes

/-- Unit key withdrawn. -/
def State.isWithdrawn (s : State) (u : Nat) : Bool := smGet false s.withdrawn u

/-- Address decode (R203, R204, R206): 0, ADDRESS_UNMAPPED or ADDRESS_WITHDRAWN. -/
def State.decodeCode (s : State) (a : Nat) : Nat :=
  if Config.stackTop ≤ a ∨ Config.stackBytes ≤ stackOff a then cAddressUnmapped
  else if s.isWithdrawn (unitKey a) then cAddressWithdrawn
  else 0

/-- What a read of a line meets (R216, R218): 0, an address code, POISON_READ, or for the read that found the error its own
code. -/
def State.lineCode (s : State) (a : Nat) : Nat :=
  let c := s.decodeCode a
  if c ≠ 0 then c
  else if smGet 0 s.poison (lineOf a) = 0 then 0
  else if smGet 0 s.memc.fresh (lineOf a) ≠ 0 then smGet 0 s.memc.fresh (lineOf a)
  else cPoisonRead

/-- The lines n bytes from an address touch. -/
def linesOf (a n : Nat) : List Nat :=
  if n = 0 then [] else (upTo ((a + n - 1) / 128 - a / 128 + 1)).map (fun i => (a / 128 + i) * 128)

/-- The first memory code of the lines of a range; 0 where every line is good. -/
def State.rangeCode (s : State) (a n : Nat) : Nat :=
  ((linesOf a n).map s.lineCode).find? (· != 0) |>.getD 0

/-- The first address code of the lines of a range; 0 where every line exists. -/
def State.rangeAddr (s : State) (a n : Nat) : Nat :=
  ((linesOf a n).map s.decodeCode).find? (· != 0) |>.getD 0

/-- Lines are delivered to a requester (R210, R218): a line it read with an error has told it so, and where the requester
allocates, the lines are in the home cache. -/
def State.delivered (s : State) (lines : List Nat) (allocate : Bool) : State :=
  let l := lines.filter (fun a => s.decodeCode a == 0)
  { s with memc := { s.memc with
      fresh := l.foldl (fun m a => smSet 0 m (lineOf a) 0) s.memc.fresh
      cached := if allocate then l.foldl (fun m a => smSet false m (lineOf a) true) s.memc.cached else s.memc.cached } }

/-- A requester that allocates has read a range. -/
def State.touch (s : State) (a n : Nat) : State := s.delivered (linesOf a n) true

/-- The bytes of a range. -/
def State.load (s : State) (a n : Nat) : List Byte := memBytes s.mem a n
/-- A little-endian number in memory. -/
def State.loadLE (s : State) (a n : Nat) : Nat := memLE s.mem a n

/-- A line written in its home cache (R211): it is present and dirty, and no write-back of a corrected copy follows. -/
def MemCtl.written (m : MemCtl) (line : Nat) : MemCtl :=
  { m with fixups := smSet false m.fixups line false, cached := smSet false m.cached line true
           dirty := smSet false m.dirty line true, fresh := smSet 0 m.fresh line 0 }

/-- The code a partial write or a copy of a poisoned line ends with (R219, R340): POISON_READ, or ECC_UNCORRECTABLE for the access
that found it. -/
def State.partialCode (s : State) (a : Nat) : Nat := if s.lineCode a = cCacheUncorrectable then cPoisonRead else s.lineCode a

/-- A write within one line (R206, R219): not performed on a bad address, or partly on a poisoned line.
Answers the code of the failure, or 0. -/
def State.storeLine (s : State) (a : Nat) (d : List Byte) : State × Nat :=
  let c := s.decodeCode a
  if c ≠ 0 then (s, c)
  else if smGet 0 s.poison (lineOf a) ≠ 0 ∧ d.length < 128 then (s.delivered [a] true, s.partialCode a)
  else
    ({ s with mem := memWrite s.mem a d
              poison := if d.length = 128 then smSet 0 s.poison (lineOf a) 0 else s.poison
              memc := s.memc.written (lineOf a) }, 0)

/-- Every bit of a line. -/
abbrev lineMask : Nat := 2 ^ 1024 - 1

/-- A write of some bits of the line at a (R38, R219): the others keep their value. One that covers the line is a write of the
whole line. -/
def State.storeBits (s : State) (a mask v : Nat) : State × Nat :=
  let line := lineOf a
  let old := s.loadLE line 128
  if mask = lineMask then s.storeLine line (toBytes 128 v)
  else if smGet 0 s.poison line ≠ 0 ∨ s.decodeCode a ≠ 0 then (s.delivered [a] true, s.partialCode a)
  else
    ({ s with mem := memWrite s.mem line (toBytes 128 ((old &&& (lineMask ^^^ mask)) ||| (v &&& mask)))
              memc := s.memc.written line }, 0)

/-- Write bytes line by line; the first failure's code, or 0. `fuel` bounds the lines. -/
def State.storeLines : Nat → State → Nat → List Byte → State × Nat
  | 0, s, _, _ => (s, 0)
  | fuel + 1, s, a, d =>
    if d.isEmpty then (s, 0)
    else
      let n := 128 - a % 128
      let r := s.storeLine a (d.take n)
      let t := State.storeLines fuel r.1 (a + n) (d.drop n)
      (t.1, if r.2 ≠ 0 then r.2 else t.2)

/-- Write bytes to stack memory; the first failure's code, or 0. -/
def State.store (s : State) (a : Nat) (d : List Byte) : State × Nat := State.storeLines (d.length + 1) s a d

/-- Write bytes, dropping the code. -/
def State.store! (s : State) (a : Nat) (d : List Byte) : State := (s.store a d).1

/-- Mark a line poisoned with a cause (R216, R218). -/
def State.poisonLine (s : State) (a cause : Nat) : State := { s with poison := smSet 0 s.poison (lineOf a) cause }

/-- The stack's copy of a line becomes poisoned (R218, R225); a good copy in the home cache still answers for it (R211). -/
def State.poisonStack (s : State) (a cause : Nat) : State :=
  if smGet false s.memc.cached (lineOf a) ∧ smGet 0 s.poison (lineOf a) = 0 then
    { s with memc := { s.memc with under := smSet 0 s.memc.under (lineOf a) cause } }
  else s.poisonLine a cause

/-- A line leaves its home cache: a dirty one is written back whole; without a dirty copy the stack's answers again. -/
def State.evict (s : State) (a : Nat) : State :=
  let l := lineOf a
  let u := smGet 0 s.memc.under l
  let s := if u ≠ 0 ∧ ¬ smGet false s.memc.dirty l then s.poisonLine a u else s
  { s with memc := { s.memc with cached := smSet false s.memc.cached l false, dirty := smSet false s.memc.dirty l false
                                 under := smSet 0 s.memc.under l 0 } }

/-- Every line whose address meets a condition leaves the caches without a write-back. -/
def State.dropLines (s : State) (p : Nat → Bool) : State :=
  let keep := fun (a : Nat) => !p a
  { s with memc := { s.memc with
      cached := s.memc.cached.filter (fun e => keep e.1), dirty := s.memc.dirty.filter (fun e => keep e.1)
      under := s.memc.under.filter (fun e => keep e.1), fresh := s.memc.fresh.filter (fun e => keep e.1) } }

/-- Every line whose address meets a condition is written back where dirty and leaves the caches. -/
def State.writeBack (s : State) (p : Nat → Bool) : State :=
  ((s.memc.cached.map (fun e => e.1)).filter p).foldl (fun x a => x.evict a) s

/-- A temperature as its register holds it: 16 bits, signed. -/
def tempBits (t : Int) : Nat := fromSigned 16 t

/-- PWR_STATUS as read. -/
def PwrState.status (x : PwrState) : Nat :=
  pack [(0, x.state), (8, x.freq), (16, x.ceiling), (24, x.cp), (32, x.nCap), (38, x.nDie0), (44, x.nDie1)]

/-- BAR0 block number of the HOST block. -/
abbrev hostBlock : Nat := 1

/-- Location words of a memory error (Table 15-7). -/
def memLoc (a requester : Nat) : ErrLoc :=
  { block := 5, loc0 := a, loc1 := pack [(0, stackNo a), (4, pcOf a), (10, rgOf a)], loc2 := requester }

/-- The record of a memory fault that a requester met on one of some lines (R400): the first of them that is bad. A code that the
controller or the cache found stands in the record made there. -/
def State.memFault (s : State) (p requester : Nat) (lines : List Nat) (code : Nat) : State :=
  if code / 256 = 4 ∧ code ≠ cEccUncorrectable ∧ code ≠ cCacheUncorrectable then
    let a := ((lines.find? (fun l => s.lineCode l != 0)).or lines.head?).getD 0
    s.record code { memLoc (lineOf a) requester with part := p }
  else s

/-- The stacks of partition p, as a list. -/
def State.partStacks (s : State) (p : Nat) : List Nat := (upTo 12).filter (fun k => bit (s.part p).stks k)

/-- Every byte of a device range lies in stacks of the partition (R161, R335). -/
def State.inStacks (s : State) (p a n : Nat) : Bool :=
  n == 0 || (decide (a + n ≤ Config.stackTop)
    && (upTo (stackNo (a + n - 1) - stackNo a + 1)).all (fun i => bit (s.part p).stks (stackNo a + i)))

/-- Bytes of a noise region (R201): 64 MiB. -/
abbrev noiseBytes : Nat := 0x4000000

/-- A range meets the noise region of a partition. -/
def State.meetsNoise (s : State) (p a n : Nat) : Bool :=
  let b := (s.part p).noiseBase
  (s.part p).tiles != 0 && decide (a < b + noiseBytes) && decide (b < a + n)

/-- An address lies in some partition's noise region. -/
def State.inNoise (s : State) (a : Nat) : Bool := (upTo 8).any (fun p => s.meetsNoise p a 1)

/-! ### Tokens and the ledger (R99 to R103, R255) -/

/-- Ledger: a token emitted into a queue. -/
def Ledger.emit (l : Ledger) : Ledger := { l with tokEmitted := l.tokEmitted + 1, tokResident := l.tokResident + 1 }
/-- Ledger: a token consumed by a wait. -/
def Ledger.consume (l : Ledger) : Ledger := { l with tokConsumed := l.tokConsumed + 1, tokResident := l.tokResident - 1 }
/-- Ledger: a token flushed. -/
def Ledger.retire (l : Ledger) (n : Nat) : Ledger := { l with tokRetired := l.tokRetired + n, tokResident := l.tokResident - n }
/-- Ledger: an overflowing token returned. -/
def Ledger.returned (l : Ledger) : Ledger := { l with tokEmitted := l.tokEmitted + 1, tokReturned := l.tokReturned + 1 }
/-- Ledger: n write issues. -/
def Ledger.wrIssue (l : Ledger) (n : Nat) : Ledger := { l with wrIssued := l.wrIssued + n, wrOutstanding := l.wrOutstanding + n }
/-- Ledger: a write acknowledged or failed. -/
def Ledger.wrEnd (l : Ledger) (ok : Bool) : Ledger :=
  { l with wrAcked := l.wrAcked + b2n ok, wrFailed := l.wrFailed + b2n (!ok), wrOutstanding := l.wrOutstanding - 1 }
/-- Ledger: n fetch contexts taken. -/
def Ledger.ctxTake (l : Ledger) (n : Nat) : Ledger := { l with ctxUsed := l.ctxUsed + n, ctxFree := l.ctxFree - n }
/-- Ledger: n fetch contexts returned. -/
def Ledger.ctxGive (l : Ledger) (n : Nat) : Ledger := { l with ctxUsed := l.ctxUsed - n, ctxFree := l.ctxFree + n }

/-- A partition's write within one line: issued and acknowledged or failed (R212, R255). -/
def State.storeLineP (s : State) (p a : Nat) (d : List Byte) : State × Nat :=
  let r := (s.modLedger p (fun l => l.wrIssue 1)).storeLine a d
  (r.1.modLedger p (fun l => l.wrEnd (r.2 == 0)), r.2)

/-- A partition's writes line by line; the first failure's code, or 0. `fuel` bounds the lines. -/
def State.storeLinesP (p : Nat) : Nat → State → Nat → List Byte → State × Nat
  | 0, s, _, _ => (s, 0)
  | fuel + 1, s, a, d =>
    if d.isEmpty then (s, 0)
    else
      let n := 128 - a % 128
      let r := s.storeLineP p a (d.take n)
      let t := State.storeLinesP p fuel r.1 (a + n) (d.drop n)
      (t.1, if r.2 ≠ 0 then r.2 else t.2)

/-- Write bytes for a partition; the first failure's code, or 0. -/
def State.storeP (s : State) (p a : Nat) (d : List Byte) : State × Nat := State.storeLinesP p (d.length + 1) s a d

/-- The partition that holds the stack of an address (R255): its ledger counts writes and atomics of every requester there. -/
def State.stackPart (s : State) (a : Nat) : Option Nat :=
  (upTo 8).find? (fun p => (s.part p).tiles != 0 && bit (s.part p).stks (stackNo a))

/-- Write bytes for a requester that is no partition's: the partition that holds the stack counts the writes. -/
def State.storeH (s : State) (a : Nat) (d : List Byte) : State × Nat :=
  match s.stackPart a with
  | some p => s.storeP p a d
  | none => s.store a d

/-- A partition's write of some bits of a line: issued and acknowledged or failed (R212, R255). -/
def State.storeBitsP (s : State) (p a mask v : Nat) : State × Nat :=
  let r := (s.modLedger p (fun l => l.wrIssue 1)).storeBits a mask v
  (r.1.modLedger p (fun l => l.wrEnd (r.2 == 0)), r.2)

/-- Change the ledger of a tile's partition. -/
def State.tileLedger (s : State) (t : Nat) (f : Ledger → Ledger) : State :=
  match s.tilePart t with
  | some p => s.modLedger p f
  | none => s

/-- Tokens in queue q of tile t. -/
def State.tokens (s : State) (t q : Nat) : List Token := smGet [] (s.tile t).tokq q

/-- A producer outside the array emits a token into a tile queue; it holds the token while the queue is full
(R103). -/
def State.emitTile (s : State) (t q : Nat) (k : Token) : State :=
  if (s.tokens t q).length < 64 then
    (s.modTile t (fun x => { x with tokq := smSet [] x.tokq q (smGet [] x.tokq q ++ [k]) })).tileLedger t Ledger.emit
  else s.modTile t (fun x => { x with tokHeld := smSet [] x.tokHeld q (smGet [] x.tokHeld q ++ [k]) })

/-- Deliver a held token once the queue has space. -/
def State.refill (s : State) (t q : Nat) : State :=
  match smGet [] (s.tile t).tokHeld q with
  | [] => s
  | k :: r =>
    if (s.tokens t q).length < 64 then
      (s.modTile t (fun x => { x with tokq := smSet [] x.tokq q (smGet [] x.tokq q ++ [k])
                                      tokHeld := smSet [] x.tokHeld q r })).tileLedger t Ledger.emit
    else s

/-- Remove the head token of a tile queue (R101). -/
def State.takeToken (s : State) (t q : Nat) : State :=
  let s := (s.modTile t (fun x => { x with tokq := smSet [] x.tokq q ((smGet [] x.tokq q).drop 1) })).tileLedger t Ledger.consume
  s.refill t q

/-- A token placed in the named queue of every tile of a partition (R100). -/
def State.emitPart (s : State) (p q : Nat) (k : Token) : State := s.each (s.partTiles p) (fun t x => x.emitTile t q k)

/-- A token emitted to the runtime core's queue; a running core takes it as it comes, a halted one leaves it there
(R406; assumption log 8). -/
def State.emitRuntime (s : State) (p : Nat) (k : Token) : State :=
  if (s.core (s.part p).core).state = 0 then s.modLedger p (fun l => l.emit.consume)
  else s.modPart p (fun x => { x with runtimeQ := x.runtimeQ ++ [k], ledger := x.ledger.emit })

/-- Flush every token queue of a partition: the ledger counts the tokens as retired (R114). -/
def State.flushQueues (s : State) (p : Nat) : State :=
  s.each (s.partTiles p) (fun t x =>
    let n := ((x.tile t).tokq.map (fun e => e.2.length)).sum
    (x.modTile t (fun y => { y with tokq := [] })).modLedger p (fun l => l.retire n))

/-- Deliver every token a producer holds for a tile queue that has space (R103). -/
def State.refillAll (s : State) (p : Nat) : State :=
  s.each (s.partTiles p) (fun t x => (x.tile t).tokHeld.foldl (fun y e => y.each (upTo e.2.length) (fun _ z => z.refill t e.1)) x)

/-- The flush of a stopped kernel's queues (R114): the tokens that producers outside the array hold then find space (R103). -/
def State.flushTokens (s : State) (p : Nat) : State := (s.flushQueues p).refillAll p

/-- The flush of a teardown: what producers still hold goes with them (R276). -/
def State.dropTokens (s : State) (p : Nat) : State :=
  (s.flushQueues p).each (s.partTiles p) (fun t x => x.modTile t (fun y => { y with tokHeld := [] }))

/-- Why no work is taken: a module-fatal state or TRIPPED (R404, R382); 0: it is. -/
def State.haltCode (s : State) : Nat :=
  if s.ras.fatal then s.ras.fatalCode else if s.pwr.state = 4 then cThermalTrip else 0

/-! ### Completions and interrupts (R337, R339, R342) -/

/-- Work has begun for which the module is not eligible for Lizard: its dwells start again (R370). -/
def State.stir (s : State) : State := { s with pwr := { s.pwr with lizSince := none, deepSince := none } }

/-- Any queue of any function has a fetched descriptor or a tail ahead of its head (R342). -/
def State.queueBusy (s : State) : Bool :=
  (upTo 9).any (fun n => (upTo 8).any (fun q =>
    let x := s.qp n q
    x.desc.isSome || x.tail != x.sqHead))

/-- The module's LTR value: 8 µs, 100 µs or no requirement (R342). -/
def State.ltr (s : State) : State :=
  let (v, sc, req) :=
    if s.queueBusy then ((Config.ltrEncoding 8).1, (Config.ltrEncoding 8).2, true)
    else if s.pwr.state ≤ 1 then ((Config.ltrEncoding 100).1, (Config.ltrEncoding 100).2, true)
    else (0, 0, false)
  let s := { s with host := { s.host with ltrValue := v, ltrScale := sc, ltrReq := req } }
  if s.queueBusy then s.stir else s

/-- Raise a completion ring's vector when enough completions are unsignalled (R339). -/
def State.signal (s : State) (n q : Nat) : State :=
  let x := s.qp n q
  if max 1 x.intCount ≤ x.unsignalled then
    (s.modQp n q (fun y => { y with unsignalled := 0 })).msi n x.vec
  else s

/-- The completion entry (Table 12-13). -/
def completionEntry (result cid sqHead status : Nat) (phase : Bool) : Nat :=
  pack [(0, result % 2 ^ 64), (64, cid), (80, sqHead), (96, status), (112, b2n phase)]

/-- Write a completion entry and end the queue's descriptor (R337). -/
def State.post (s : State) (n q status result : Nat) : State :=
  let x := s.qp n q
  match x.desc with
  | none => s
  | some d =>
    let e := completionEntry result d.entry.cid d.sqHead status x.phase
    let s := { s with host := { s.host with mem := memPutLE s.host.mem (x.cqBase + 16 * x.cqTail) 16 e } }
    let t := (x.cqTail + 1) % 2 ^ x.cqLog
    let s := s.modQp n q (fun y =>
      { y with cqTail := t, phase := if t = 0 then !y.phase else y.phase, desc := none
               unsignalled := y.unsignalled + 1, firstTime := if y.unsignalled = 0 then s.now else y.firstTime })
    (s.signal n q).ltr

/-- Post the completion of a RUN's owner when its queue still holds that descriptor. -/
def State.postOwner (s : State) (o : RunOwner) (status result : Nat) : State :=
  match (s.qp o.fn o.qp).desc with
  | some d => if d.running && d.entry.cid == o.cid then s.post o.fn o.qp status result else s
  | none => s

/-- Abandon a queue's fetched descriptor without a completion (R328, R394). -/
def State.abandon (s : State) (n q : Nat) : State := s.modQp n q (fun y => { y with desc := none })

end Sys2Proof.Machine
end

