-- ==== Sys2Proof/Machine/Drbg.lean ====
section
/-! DEFINITION. CTR_DRBG of SP 800-90A with AES-256 and the derivation function, HMAC-SHA-384, and the two DRBG instances of the
security complex (R347, R362, R363; assumption logs 9 and 26). -/

namespace Sys2Proof.Machine

/-! ### AES-256 -/

/-- Substitute each byte. -/
def aesSubAll (l : List Byte) : List Byte := l.map aesSub

/-- The next two round keys of AES-256 from the last two and the round constant. -/
def aes256NextKeys (k : List Byte) (rcon : Byte) : List Byte :=
  let part := fun (i : Nat) => (k.drop (4 * i)).take 4
  let t := xorBytes (aesSubAll [by_ k 29, by_ k 30, by_ k 31, by_ k 28]) [rcon, 0, 0, 0]
  let a := xorBytes (part 0) t
  let b := xorBytes (part 1) a
  let c := xorBytes (part 2) b
  let d := xorBytes (part 3) c
  let e := xorBytes (part 4) (aesSubAll d)
  let f := xorBytes (part 5) e
  let g := xorBytes (part 6) f
  a ++ b ++ c ++ d ++ e ++ f ++ g ++ xorBytes (part 7) g

/-- Round keys of AES-256, two for each of n pairs. -/
def aes256Keys : Nat → Byte → List Byte → List (List Byte)
  | 0, _, _ => []
  | n + 1, rcon, k => k.take 16 :: k.drop 16 :: aes256Keys n (aesXtime rcon) (aes256NextKeys k rcon)

/-- Rounds over a list of round keys; the last has no MixColumns. -/
def aes256Rounds : List (List Byte) → List Byte → List Byte
  | [], s => s
  | k :: r, s =>
    let t := aesShift (aesSubAll s)
    aes256Rounds r (xorBytes (if r.isEmpty then t else aesMix t) k)

/-- AES-256 encryption of one block. -/
def aes256 (key blk : List Byte) : List Byte :=
  match (aes256Keys 8 1#8 key).take 15 with
  | [] => blk
  | k :: r => aes256Rounds r (xorBytes blk k)

/-! ### CTR_DRBG -/

/-- The chained value of a string of blocks under a key (BCC of SP 800-90A); n blocks. -/
def drbgChain (key : List Byte) : Nat → List Byte → List Byte → List Byte
  | 0, _, c => c
  | n + 1, l, c => drbgChain key n (l.drop 16) (aes256 key (xorBytes c (l.take 16)))

/-- Keystream of n blocks that encrypts its own last block. -/
def drbgStretch (key : List Byte) : Nat → List Byte → List Byte
  | 0, _ => []
  | n + 1, x => let y := aes256 key x; y ++ drbgStretch key n y

/-- The derivation function for a seed of 48 bytes (Block_Cipher_df). -/
def drbgDf (input : List Byte) : List Byte :=
  let s := toBytesBE 4 input.length ++ toBytesBE 4 48 ++ input ++ [0x80#8]
  let s := s ++ List.replicate ((16 - s.length % 16) % 16) 0#8
  let k := (upTo 32).map (BitVec.ofNat 8)
  let t := (upTo 3).flatMap (fun i =>
    drbgChain k (1 + s.length / 16) (toBytesBE 4 i ++ List.replicate 12 0#8 ++ s) (List.replicate 16 0#8))
  drbgStretch (t.take 32) 3 (t.drop 32)

/-- n blocks of output, each of the next V. -/
def Drbg.blocks : Nat → Drbg → List Byte × Drbg
  | 0, d => ([], d)
  | n + 1, d =>
    let d := { d with v := toBytesBE 16 ((ofBytesBE d.v + 1) % 2 ^ 128) }
    let r := Drbg.blocks n d
    (aes256 d.key d.v ++ r.1, r.2)

/-- Key and V after an update with 48 bytes. -/
def Drbg.update (d : Drbg) (seed : List Byte) : Drbg :=
  let t := xorBytes (d.blocks 3).1 seed
  { key := t.take 32, v := t.drop 32 }

/-- Instantiate with entropy input, nonce and personalisation string (R362). -/
def Drbg.start (entropy nonce personal : List Byte) : Drbg :=
  ({ key := List.replicate 32 0, v := List.replicate 16 0 } : Drbg).update (drbgDf (entropy ++ nonce ++ personal))

/-- Reseed with 48 bytes of fresh entropy. -/
def Drbg.reseed (d : Drbg) (entropy : List Byte) : Drbg := d.update (drbgDf entropy)

/-- A generate request of n bytes. -/
def Drbg.generate (d : Drbg) (n : Nat) : List Byte × Drbg :=
  let r := d.blocks (ceilDiv n 16)
  (r.1.take n, r.2.update (List.replicate 48 0#8))

/-! ### The two instances (R362, R363) -/

/-- Fresh entropy of n bytes: the source's samples, conditioned, are free. -/
def State.entropy (s : State) (n : Nat) : List Byte × State := (freeBytes s.free n, { s with free := s.free + 1 })

/-- A generate request to an instance, true the noise instance: its bytes. After 2^20 requests, and before the first one after a
change of owner, the instance reseeds, which needs the entropy source; without it the instance stops. -/
def State.drbgRequest (s : State) (noise : Bool) (n : Nat) : List Byte × State :=
  let c := s.sec
  let reqs := if noise then c.noiseReqs else c.secReqs
  let fresh := if noise then c.noiseDue else c.secDue
  let set := fun (s : State) (d : Drbg) (k : Nat) =>
    { s with sec := if noise then { s.sec with noiseDrbg := d, noiseReqs := k, noiseDue := false }
                    else { s.sec with secDrbg := d, secReqs := k, secDue := false } }
  if ¬ (if noise then c.noiseOk else c.secOk) then ([], s)
  else
    let d := if noise then c.noiseDrbg else c.secDrbg
    if fresh ∨ 2 ^ 20 ≤ reqs then
      if ¬ c.sourceOk then ([], { s with sec := if noise then { c with noiseOk := false } else { c with secOk := false } })
      else
        let e := s.entropy 48
        let r := (d.reseed e.1).generate n
        (r.1, set e.2 r.2 1)
    else
      let r := d.generate n
      (r.1, set s r.2 (reqs + 1))

/-- Generate requests of some sizes, one after another. -/
def State.drbgRequests (s : State) (noise : Bool) (sizes : List Nat) : State :=
  sizes.foldl (fun x n => (x.drbgRequest noise n).2) s

/-- A number drawn from the security instance. -/
def State.secNumber (s : State) (bytes : Nat) : Nat × State :=
  let r := s.drbgRequest false bytes
  (Config.scalarOf r.1, r.2)

/-- Requests of at most 65,536 bytes for n bytes (R362). -/
def requestSizes (n : Nat) : List Nat :=
  (upTo (ceilDiv n 65536)).map (fun i => min 65536 (n - 65536 * i))

/-! ### HMAC and key derivation (R347) -/

/-- HMAC with SHA-384; a key of at most 128 bytes. -/
def hmac384 (key m : List Byte) : List Byte :=
  let k := key ++ List.replicate (128 - key.length) 0#8
  let pad := fun (b : Byte) => k.map (fun x => x ^^^ b)
  sha384 (pad 0x5c#8 ++ sha384 (pad 0x36#8 ++ m))

/-- Block i of the counter mode of SP 800-108: HMAC of a 32-bit counter and the fixed input data. -/
def kdfBlock (secret input : List Byte) (i : Nat) : List Byte := hmac384 secret (toBytesBE 4 i ++ input)

/-- A P-384 private scalar by testing candidates (FIPS 186-5): the first block that is at most n − 2, plus 1; 0, an empty slot, where
none of the first 64 is. -/
def deriveScalar (secret input : List Byte) : Nat :=
  match (upTo 64).find? (fun i => decide (ofBytesBE (kdfBlock secret input (i + 1)) ≤ p384.n - 2)) with
  | some i => ofBytesBE (kdfBlock secret input (i + 1)) + 1
  | none => 0

end Sys2Proof.Machine
end

