-- ==== Sys2Proof/Machine/Operands.lean ====
section
/-! DEFINITION. Operand forms: packed-36 and wide-64 limbs, scratchpad rows, the logical scratchpad, regions,
device addresses, prime selection and the fields of control words (R38 to R40, R85, R90, R109, R123 to R127). -/

namespace Sys2Proof.Machine

/-! ### Limb formats -/

/-- One packed-36 group of eight residues (Table 2-4). -/
def packGroup (r : List Nat) : Nat := r.foldr (fun v acc => v % 2 ^ 36 + 2 ^ 36 * acc) 0

/-- n packed-36 groups as bytes. -/
def packGroups : Nat → List Nat → List Byte
  | 0, _ => []
  | n + 1, r => toBytes 36 (packGroup (r.take 8)) ++ packGroups n (r.drop 8)

/-- Residues in packed-36 form (R38). -/
def pack36 (r : List Nat) : List Byte := packGroups (ceilDiv r.length 8) r

/-- The eight residues of a group. -/
def unpackGroup (v : Nat) : List Nat := (upTo 8).map (fun i => (v >>> (36 * i)) % 2 ^ 36)

/-- n groups of residues from packed-36 bytes. -/
def unpackGroups : Nat → List Byte → List Nat
  | 0, _ => []
  | n + 1, b => unpackGroup (ofBytes (b.take 36)) ++ unpackGroups n (b.drop 36)

/-- Residues of packed-36 bytes (R38). -/
def unpack36 (b : List Byte) : List Nat := unpackGroups (b.length / 36) b

/-- Residues in wide-64 form, bits [63:36] zero (R39, R40). -/
def packWide (r : List Nat) : List Byte := (r.map (fun v => toBytes 8 (v % 2 ^ 36))).flatten

/-- n 64-bit words of wide-64 bytes, high bits kept for the canonicity check. -/
def unpackWide : Nat → List Byte → List Nat
  | 0, _ => []
  | n + 1, b => ofBytes (b.take 8) :: unpackWide n (b.drop 8)

/-- Bytes of a limb of 2^n elements in a memory format: packed-36, or wide-64 when `wide`. -/
def limbBytes (n : Nat) (wide : Bool) : Nat := if wide then 8 * 2 ^ n else 9 * 2 ^ n / 2

/-- Elements of memory bytes in a format; wide words keep their high bits. -/
def decodeElems (wide : Bool) (b : List Byte) : List Nat := if wide then unpackWide (b.length / 8) b else unpack36 b

/-- Elements in a memory format. -/
def encodeElems (wide : Bool) (r : List Nat) : List Byte := if wide then packWide r else pack36 r

/-- The canonicity check of R29 over elements as delivered. -/
def canonBad (q : Nat) (r : List Nat) : Bool := r.any (fun v => decide (q ≤ v))

/-! ### Scratchpad rows (R85, R96) -/

/-- Tag of a row. -/
def State.tag (s : State) (t row : Nat) : RowTag := smGet {} (s.tile t).tags row

/-- n bytes from the start of a row. -/
def State.rowBytes (s : State) (t row n : Nat) : List Byte := memBytes (s.tile t).spad (row * 128) n

/-- Set the tags of n rows. -/
def setTags (m : SMap RowTag) (row n : Nat) (f : RowTag → RowTag) : SMap RowTag :=
  (upTo n).foldl (fun x i => smMod {} x (row + i) f) m

/-- Write bytes from a row's start; every row touched gets VALID = 1 and the stamp (R96, R158). -/
def State.writeRows (s : State) (t row : Nat) (d : List Byte) (stamp : Nat) : State :=
  s.modTile t (fun x =>
    { x with spad := memWrite x.spad (row * 128) d
             tags := setTags x.tags row (ceilDiv d.length 128) (fun _ => { valid := true, stamp := stamp }) })

/-- Set VALID = 0 on n rows. -/
def State.invalidRows (s : State) (t row n : Nat) : State :=
  s.modTile t (fun x => { x with tags := setTags x.tags row n (fun g => { g with valid := false }) })

/-- Every row of a range has VALID = 1. -/
def State.rowsValid (s : State) (t row n : Nat) : Bool := (upTo n).all (fun i => (s.tag t (row + i)).valid)

/-- Every row zero with VALID = 0: a bank or tile after power-up, teardown or reset. -/
def clearRows (x : Tile) (row n : Nat) : Tile :=
  { x with spad := memClear x.spad (row * 128) (n * 128)
           tags := x.tags.filter (fun e => !(decide (row ≤ e.1) && decide (e.1 < row + n))) }

/-! ### The logical scratchpad (R123; assumption log 11 for the mapping) -/

/-- Tile and byte of a logical address of partition p. -/
def State.lgPlace (s : State) (p a : Nat) : Nat × Nat :=
  (p * (s.part p).tiles + a / Config.logicalPerTile, a % Config.logicalPerTile)

/-- Size of the logical scratchpad. -/
def State.lgSize (s : State) (p : Nat) : Nat := (s.part p).tiles * Config.logicalPerTile

/-- n bytes of the logical scratchpad. -/
def State.lgRead (s : State) (p : Nat) : Nat → Nat → List Byte
  | _, 0 => []
  | a, n + 1 => memByte (s.tile (s.lgPlace p a).1).spad (s.lgPlace p a).2 :: s.lgRead p (a + 1) n

/-- Every logical row of a range has VALID = 1. -/
def State.lgValid (s : State) (p a n : Nat) : Bool :=
  n == 0 || (upTo ((a + n - 1) / 128 - a / 128 + 1)).all (fun i =>
    let w := s.lgPlace p ((a / 128 + i) * 128)
    (s.tag w.1 (w.2 / 128)).valid)

/-- Write within one logical row. -/
def State.lgPut (s : State) (p a : Nat) (d : List Byte) (stamp : Nat) : State :=
  let w := s.lgPlace p a
  s.modTile w.1 (fun x =>
    { x with spad := memWrite x.spad w.2 d, tags := smSet {} x.tags (w.2 / 128) { valid := true, stamp := stamp } })

/-- Write bytes row by row. -/
def State.lgWriteLoop : Nat → State → Nat → Nat → List Byte → Nat → State
  | 0, s, _, _, _, _ => s
  | fuel + 1, s, p, a, d, stamp =>
    if d.isEmpty then s
    else
      let n := 128 - a % 128
      State.lgWriteLoop fuel (s.lgPut p a (d.take n) stamp) p (a + n) (d.drop n) stamp

/-- Write bytes to the logical scratchpad; rows touched get VALID = 1. -/
def State.lgWrite (s : State) (p a : Nat) (d : List Byte) (stamp : Nat) : State :=
  State.lgWriteLoop (d.length + 1) s p a d stamp

/-- Set VALID = 0 on the logical rows of a range. -/
def State.lgInvalid (s : State) (p a n : Nat) : State :=
  if n = 0 then s
  else s.each (upTo ((a + n - 1) / 128 - a / 128 + 1)) (fun i x =>
    let w := x.lgPlace p ((a / 128 + i) * 128)
    x.invalidRows w.1 (w.2 / 128) 1)

/-! ### Parameters, regions and device addresses -/

/-- Parameter register Pi of a sequencer. -/
def Seq.reg (x : Seq) (i : Nat) : Nat := (smGet 0 x.params i).toNat

/-- The sequencer of partition p. -/
def State.pseq (s : State) (p : Nat) : Seq := s.seq (s.part p).seq

/-- Kernel parameter Ak: parameter register P(k + 4) (R125). -/
def State.kparam (s : State) (p k : Nat) : Nat := (s.pseq p).reg (k + 4)

/-- Operations with a work region (Table 5-4): RELIN, ROT, KSW and MODDOWN. -/
def hasWork (o : Nat) : Bool := o == 0x307 || o == 0x308 || o == 0x309 || o == 0x30B

/-- A region operand (Table 5-2) with its COUNT after patching. -/
structure Region where
  base : Nat := 0
  stride : Int := 0
  count : Nat := 0
  fromParam : Bool := false
  deriving DecidableEq, Repr

/-- Decode a region operand for partition p. -/
def State.region (s : State) (p v : Nat) : Region :=
  let src := bits v 63 60
  { base := bits v 31 0, stride := toSigned 16 (bits v 47 32)
    count := if src = 0 then bits v 59 48 else s.kparam p (src - 1) % 4096
    fromParam := src != 0 }

/-- Logical byte address of limb c of a region. -/
def Region.limbAt (r : Region) (c : Nat) : Int := r.base + c * r.stride * 2048
/-- Logical byte address of block c of a byte region. -/
def Region.blockAt (r : Region) (c : Nat) : Int := r.base + c * r.stride * 128

/-- Byte range a region spans with items of n bytes (R49): first byte and one past the last. -/
def Region.span (r : Region) (unit : Int) (n : Nat) : Int × Int :=
  if r.count = 0 then (r.base, r.base)
  else
    let e : Int := r.base + ((r.count : Int) - 1) * r.stride * unit
    (min (r.base : Int) e, max (r.base : Int) e + n)

/-- Two spans share a byte; an empty span shares none. -/
def spansMeet (a b : Int × Int) : Bool :=
  decide (a.1 < a.2) && decide (b.1 < b.2) && decide (a.1 < b.2) && decide (b.1 < a.2)

/-- Two regions are identical (R49): BASE, STRIDE and COUNT. That two regions of COUNT 1 with unequal STRIDE are not is the
model's choice (assumption log 38). -/
def Region.same (a b : Region) : Bool := a.base == b.base && a.stride == b.stride && a.count == b.count

/-- The operand fields of a 32-byte instruction (Table 5-3). -/
def gInstrOf (v : Nat) : GInstr :=
  { canon := bit v 16, conj := bit v 17, f0 := bits v 31 24, f1 := bits v 39 32, f2 := bits v 47 40, pset := bits v 51 48
    param := bits v 55 52, imm8 := bits v 63 56, imm64 := bits v 127 64, rx := bits v 191 128, ry := bits v 255 192 }

/-- A limb or block range inside the logical scratchpad. -/
def State.lgFits (s : State) (p : Nat) (a : Int) (n : Nat) : Bool :=
  decide (0 ≤ a) && decide (a + n ≤ s.lgSize p)

/-- Set VALID = 0 on every item of a region: `unit` bytes a step of STRIDE, n bytes an item. -/
def State.dropItems (s : State) (p : Nat) (r : Region) (unit : Int) (n : Nat) : State :=
  s.each (upTo r.count) (fun c x =>
    let a : Int := r.base + c * r.stride * unit
    if x.lgFits p a n then x.lgInvalid p a.toNat n else x)

/-- The region bound to a header entry; none where nothing is bound. -/
def State.bound (s : State) (p e : Nat) : Option Region :=
  let v := smGet 0 (s.part p).binds e
  if v = 0 then none else some (s.region p (v - 1))

/-- Bytes of a limb of a region whose LOG_N the instruction does not name: those of the largest ring whose limbs its STRIDE keeps
apart, else of the smallest: the model's choice (assumption log 29). -/
def Region.limbGuess (r : Region) : Nat :=
  (([17, 16, 15, 14, 13].map (fun n => limbBytes n false)).find? (fun b => decide (b ≤ r.stride.natAbs * 2048))).getD (limbBytes 12 false)

/-- The destination region of an operation (Table 5-4), with the bytes of a step of its STRIDE and of an item. A block's size is
taken from the STRIDE (assumption log 29). -/
def State.dstRegion (s : State) (p o : Nat) (g : GInstr) : Option (Region × Int × Nat) :=
  let x := s.region p g.rx
  let limbs := fun (r : Region) => (r, (2048 : Int), r.limbGuess)
  if o / 256 = 2 ∨ o = 0x103 then some (x, 2048, limbBytes g.f1 false)
  else if o = 0x100 ∨ o = 0x504 then some (limbs x)
  else if o / 256 = 3 ∨ o = 0x502 ∨ o = 0x503 then (s.bound p g.f0).map limbs
  else if o = 0x105 ∨ o = 0x400 ∨ o = 0x401 ∨ o = 0x501 then some (x, 128, max 1 x.stride.natAbs * 128)
  else none

/-- The work region of an operation. -/
def State.workRegion (s : State) (p o : Nat) (g : GInstr) : Option (Region × Int × Nat) :=
  if hasWork o then let x := s.region p g.rx; some (x, 2048, x.limbGuess) else none

/-- The per-tile rows in which a byte range of the logical scratchpad lies: the first, and how many; every row where it spans
tiles (R123; assumption log 11). -/
def State.rowRange (s : State) (p : Nat) (x : Int × Int) : Nat × Nat :=
  let lo := x.1.toNat
  let hi := min x.2.toNat (s.lgSize p)
  let t := Config.logicalPerTile
  if hi ≤ lo then (0, 0)
  else if lo / t = (hi - 1) / t then (lo % t / 128, (hi - 1) % t / 128 - lo % t / 128 + 1)
  else (0, t / 128)

/-- The per-tile rows of a region (R129, R130); none for a region of no items. -/
def State.regionRows (s : State) (p : Nat) (z : Option (Region × Int × Nat)) : Nat × Nat :=
  match z with
  | some (r, unit, n) => s.rowRange p (r.span unit n)
  | none => (0, 0)

/-- Set VALID = 0 on the rows of an operation's destination and work regions (Table 4-11). -/
def State.dropRegions (s : State) (p o : Nat) (g : GInstr) : State :=
  ([s.dstRegion p o g, s.workRegion p o g].filterMap id).foldl (fun x z => x.dropItems p z.1 z.2.1 z.2.2) s

/-- Residues of a limb in the logical scratchpad. -/
def State.lgLimb (s : State) (p a n : Nat) : List Nat := unpack36 (s.lgRead p a (limbBytes n false))

/-- Device address of a Glahus instruction (R127). -/
def State.gAddr (s : State) (p : Nat) (g : GInstr) : Nat :=
  if g.param = 0 then g.imm64 else (s.kparam p (g.param - 1) + g.imm64) % 2 ^ 64

/-! ### Prime sets and noise tables of the structure in force -/

/-- Prime set i. -/
def State.pset? (s : State) (i : Nat) : Option PrimeSet := s.img.image.bind (fun x => x.psets[i]?)
/-- Prime set i, the empty set where absent. -/
def State.pset (s : State) (i : Nat) : PrimeSet := (s.pset? i).getD {}
/-- Noise table of a pair (R66). -/
def State.noise? (s : State) (i scheme : Nat) : Option NoiseTable :=
  s.img.image.bind (fun x => x.noises.find? (fun t => t.setIndex == i && t.scheme == scheme))
/-- Entry e of a set. -/
def PrimeSet.entry (x : PrimeSet) (e : Nat) : Prime := x.primes.getD e {}
/-- The prime of entry e; 0 beyond the set. -/
def PrimeSet.q (x : PrimeSet) (e : Nat) : Nat := (x.entry e).q
/-- Digit width α. -/
def PrimeSet.alpha (x : PrimeSet) : Nat := ceilDiv x.qcount x.dnum
/-- Top level T. -/
def PrimeSet.top (x : PrimeSet) : Nat := x.qcount / x.width - 1
/-- ψ_n of entry e. -/
def PrimeSet.psiN (x : PrimeSet) (e n : Nat) : Nat :=
  Sys2Proof.Machine.psiN (x.q e) (x.entry e).psi x.logNMax n
/-- LQ(ℓ): sum of lq over the q-primes of level ℓ. -/
def PrimeSet.lqLevel (x : PrimeSet) (l : Nat) : Nat := ((x.primes.take (x.width * (l + 1))).map (fun p => lq p.q)).sum
/-- Entry of limb i of a body with `limbs` q-limbs: q-primes, then special primes. -/
def PrimeSet.limbEntry (x : PrimeSet) (limbs i : Nat) : Nat := if i < limbs then i else x.qcount + (i - limbs)

/-! ### Control words (Table 4-2) -/

/-- Bits [hi:lo] of a control word. -/
def cw (w : BitVec 512) (hi lo : Nat) : Nat := bits w.toNat hi lo
/-- The address generator at bit lo. -/
def cwGen (w : BitVec 512) (lo : Nat) : Nat := cw w (lo + 31) lo
/-- Generator positions. -/
abbrev gRingA : Nat := 96
abbrev gRingB : Nat := 128
abbrev gRingC : Nat := 160
abbrev gRingD : Nat := 192
abbrev gMatCtrl : Nat := 224
abbrev gMatA : Nat := 256
abbrev gMatB : Nat := 288
abbrev gMatD : Nat := 320
abbrev gVecCtrl : Nat := 352
abbrev gVecD : Nat := 384
abbrev gExchS : Nat := 448
abbrev gExchD : Nat := 480

/-- First row of a generator at beat k (R90), as a signed number. -/
def genRow (x : Seq) (g k : Nat) : Int :=
  let b := bits g 27 24
  (bits g 15 0 : Int) + (if b = 0 then 0 else (x.reg b % 2 ^ 16 : Nat)) + (k : Int) * toSigned 8 (bits g 23 16)

/-- The base register's must-be-zero bits hold a one (R109). -/
def genBaseBad (x : Seq) (g : Nat) : Bool := bits g 27 24 != 0 && decide (2 ^ 16 ≤ x.reg (bits g 27 24))

/-- Beats of a word (Table 4-2, R109). -/
def wordBeats (x : Seq) (w : BitVec 512) : Nat :=
  let r := cw w 30 26
  if r = 0 then cw w 25 18 + 1 else x.reg (r % 16) % 2 ^ 16

/-- Prime-set index and entry of beat k for limb slot u (R91). -/
def primeSel (x : Seq) (w : BitVec 512) (k u : Nat) : Nat × Nat :=
  let r := x.reg (cw w 47 44)
  (bits r 3 0, bits r 14 8 + cw w 54 48 + k * cw w 55 55 + u)

/-- The prime-selection register breaks Table 4-9. -/
def primeRegBad (x : Seq) (w : BitVec 512) : Bool :=
  let r := x.reg (cw w 47 44)
  r != bits r 3 0 + (bits r 14 8) * 256

/-- Elements of a tile's share: G tiles per slot. -/
def slotTiles (tiles n : Nat) : Nat := min tiles (2 ^ n / 1024)

/-- Slot tile and local position of element i (R83): `block` distribution or cyclic. -/
def placeElem (block : Bool) (g n i : Nat) : Nat × Nat :=
  if block then (i * g / 2 ^ n, i % (2 ^ n / g)) else (i % g, i / g)

/-- Element at a local position of a slot tile (R83). -/
def elemAt (block : Bool) (g n τ j : Nat) : Nat := if block then τ * (2 ^ n / g) + j else j * g + τ

/-! ### Noise draws (R200, R362) -/

/-- Bits a coefficient of a noise request takes: ternary (kind 0), CBD21 (kind 1), uniform of a width (kind 2). -/
def drawBits (kind width : Nat) : Nat := if kind = 0 then 2 else if kind = 1 then 42 else width + 1

/-- The DRBG generate requests of one noise request, each of at most 65,536 bytes (R362). -/
def drawRequests (kind width logN : Nat) : List Nat := requestSizes (ceilDiv (2 ^ logN * drawBits kind width) 8)

/-- The coefficient a draw of w bits gives (R200). -/
def noiseCoeff (kind width v : Nat) : Int :=
  if kind = 0 then (v % 2 : Int) - (v / 2 % 2 : Nat)
  else if kind = 1 then
    let ones := fun (x : Nat) => ((upTo 21).map (fun i => b2n (bit x i))).sum
    (ones v : Int) - (ones (v / 2 ^ 21) : Nat)
  else (v % 2 ^ (width + 1) : Nat) - (2 ^ width : Nat)

/-- The polynomial a noise request draws: the DRBG's bits are free. -/
def drawPoly (kind width logN draw : Nat) : List Int :=
  (upTo (2 ^ logN)).map (fun i => noiseCoeff kind width (Config.freeAt draw i % 2 ^ drawBits kind width))

end Sys2Proof.Machine
end

