-- ==== Sys2Proof/Machine/StackMem.lean ====
section
/-! DEFINITION. Stack controllers and shared caches: reads, writes, atomics, sparing, retirement, withdrawal
(R203 to R228, R234). Their requesters' loads and stores are in Ops.lean. -/

namespace Sys2Proof.Machine

/-- Hand a requester the values it receives (log 17). -/
def State.deliver (s : State) (l : List Nat) : State := { s with host := { s.host with readData := s.host.readData ++ l } }

/-- Key of a row group in a stack's tables. -/
def rgKey (pc rg : Nat) : Nat := pc * Config.unitsPerStack + rg

/-- The home cache of an address (R209). -/
def homeDie (a : Nat) : Nat := if stackNo a < 6 then 0 else 1

/-- 24 hours in ticks of 10 ns. -/
abbrev ticksPerDay : Nat := 8640000000000

/-- A row group becomes due for sparing (R223). -/
def State.spareDue (s : State) (a : Nat) : State :=
  s.modStk (stackNo a) (fun x => { x with due := smSet false x.due (rgKey (pcOf a) (rgOf a)) true })

/-- A corrected error on a read of the line at a (R218, R223): counted, recorded, written back later. An error of more than 2
symbols, or a second distinct line of the row group within 24 hours, makes the row group due for sparing. -/
def State.corrected (s : State) (a symbols requester : Nat) : State :=
  let k := stackNo a
  let key := rgKey (pcOf a) (rgOf a)
  let recent := (smGet [] (s.stk k).errors key).filter (fun e => decide (s.now - e.2 < ticksPerDay))
  let s := s.modStk k (fun x => { x with
    corrected := satInc 32 x.corrected, errors := smSet [] x.errors key (recent ++ [(lineOf a, s.now)]) })
  let s := { s with memc := { s.memc with fixups := smSet false s.memc.fixups (lineOf a) true } }
  let s := s.record cEccCorrected (memLoc (lineOf a) requester)
  if 2 < symbols ∨ recent.any (fun e => e.1 != lineOf a) then s.spareDue a else s

/-- An uncorrectable error on a requester's read of the stack's line at a (R218, R223): counted, recorded, written back as
poisoned. -/
def State.uncorrectable (s : State) (a requester : Nat) : State :=
  let s := s.modStk (stackNo a) (fun x => { x with uncorrectable := satInc 16 x.uncorrectable })
  let s := (s.poisonStack a cEccUncorrectable).report cEccUncorrectable (memLoc (lineOf a) requester)
  s.spareDue a

/-- What the controller finds reading the stack's line with an error of some symbols (R217, R218): the state after it and 0 or
the code found. An error of more than 12 symbols may go undetected: whether it does is free. -/
def State.eccRead (s : State) (a symbols requester : Nat) : State × Nat :=
  if symbols = 0 then (s, 0)
  else if symbols ≤ 4 then (s.corrected a symbols requester, 0)
  else if symbols ≤ 12 then (s.uncorrectable a requester, cEccUncorrectable)
  else
    let d := s.draw
    if d.1 % 2 = 0 then (d.2.uncorrectable a requester, cEccUncorrectable) else (d.2, 0)

/-- A requester's read of a line that is not in its home cache: a line stored as poisoned, an earlier read's finding included, is
delivered as such, otherwise the stack is
read, and an uncorrectable error is what the read in flight receives (R218). -/
def State.demandRead (s : State) (a symbols requester : Nat) : State × Nat :=
  let s := s.delivered [a] false
  let c := s.lineCode a
  if c ≠ 0 then (s, c)
  else
    let r := s.eccRead a symbols requester
    if r.2 = 0 then r
    else ({ r.1 with memc := { r.1.memc with fresh := smSet 0 r.1.memc.fresh (lineOf a) r.2 } }, r.2)

/-- A cache ECC error that a requester's access finds on the line at a in its home cache (R216): 1 corrected, 2 uncorrectable. A
clean line is discarded. -/
def State.cacheError (s : State) (a e requester : Nat) : State × Nat :=
  let d := homeDie a
  let l := lineOf a
  if ¬ smGet false s.memc.cached l then (s, 0)
  else if e = 1 then (s.modCache d (fun x => { x with corrected := satInc 32 x.corrected }), 0)
  else if e = 2 then
    let s := s.modCache d (fun x => { x with uncorrectable := satInc 16 x.uncorrectable })
    if smGet false s.memc.dirty l then
      let s := (s.poisonLine a cCacheUncorrectable).report cCacheUncorrectable (memLoc l requester)
      ({ s with memc := { s.memc with fresh := smSet 0 s.memc.fresh l cCacheUncorrectable } }, cCacheUncorrectable)
    else (s.evict a, 0)
  else (s, 0)

/-- STACK_READ (R204, R206, R210, R216, R218): the line reaches the requester with its code. A line in its home cache is not
read from the stack. A code found here is also what the read this access serves receives (assumption log 17). -/
def execStackRead (addr symbols : Nat) (cache : CacheIn) (s : State) : Out :=
  guarded (decide (addr < 2 ^ 64) && decide (symbols ≤ 144) && decide (cache.err ≤ 2)) <|
    let fault := fun (x : State) (c : Nat) => x.memFault ((x.stackPart addr).getD 255) cache.requester [addr] c
    if s.decodeCode addr ≠ 0 then (fault s (s.decodeCode addr)).deliver [s.decodeCode addr, 0]
    else
      let e := s.cacheError addr cache.err cache.requester
      let hit := smGet false e.1.memc.cached (lineOf addr)
      let kept := e.1.delivered [addr] false
      let r := if e.2 ≠ 0 then e else if hit then (kept, kept.lineCode addr) else e.1.demandRead addr symbols cache.requester
      let free := symbols > 12 ∧ ¬ hit ∧ r.2 = 0
      let v := if free then Config.freeAt s.free 0 % 2 ^ 1024 else ofBytes (r.1.load (lineOf addr) 128)
      let s := if cache.allocate then
          { r.1 with memc := { r.1.memc with cached := smSet false r.1.memc.cached (lineOf addr) true } } else r.1
      (fault s r.2).deliver [r.2, v]

/-- STACK_WRITE (R204, R206, R212, R219): within one line; a partial write of a poisoned or uncorrectable line does not take
place. -/
def execStackWrite (addr : Nat) (data : List Byte) (symbols : Nat) (s : State) : Out :=
  guarded (decide (addr < 2 ^ 64) && decide (symbols ≤ 144) && decide (addr % 128 + data.length ≤ 128)) <|
    let part := decide (data.length < 128) && s.decodeCode addr == 0 && !smGet false s.memc.cached (lineOf addr)
    let s := if part then (s.demandRead addr symbols 0).1 else s
    let w := s.storeH addr data
    (w.1.memFault ((w.1.stackPart addr).getD 255) 0 [addr] w.2).deliver [w.2]

/-- CORRECTED_WRITEBACK (R218): the corrected line reaches the stack. -/
def execCorrectedWriteback (addr : Nat) (s : State) : Out :=
  guarded (decide (addr < Config.stackTop)) <|
    { s with memc := { s.memc with fixups := smSet false s.memc.fixups (lineOf addr) false } }

/-- DIRTY_WRITEBACK (R211): a line is evicted from its home cache, written back where it is dirty. -/
def execDirtyWriteback (addr : Nat) (s : State) : Out :=
  guarded (decide (addr < Config.stackTop)) (s.evict addr)

/-! ### Atomics (R213 to R215) -/

/-- Bytes of one element of an atomic and elements it takes at least and at most, with its alignment. -/
structure AtomicShape where
  bytes : Nat
  most : Nat
  align : Nat
  deriving DecidableEq, Repr

/-- Table 8-4. -/
def atomicShape (op : Nat) : Option AtomicShape :=
  if op = 1 then some { bytes := 36, most := 64, align := 4 }
  else if op = 2 then some { bytes := 8, most := 256, align := 8 }
  else if op = 3 ∨ op = 5 ∨ op = 6 then some { bytes := 4, most := 512, align := 4 }
  else if op = 4 ∨ op = 7 ∨ op = 8 then some { bytes := 8, most := 1, align := 8 }
  else none

/-- The new value of one element; `d` its operand words from index i. -/
def atomicElem (op q old : Nat) (d : List Word) (i : Nat) : Nat :=
  let v := fun j => (d.getD j 0).toNat
  if op = 1 then
    packGroup ((upTo 8).map (fun e => addM q (fold (old >>> (36 * e) % 2 ^ 36) q) (fold (v (8 * i + e) % 2 ^ 36) q)))
  else if op = 2 then addM q (fold (old % 2 ^ 36) q) (fold (v i % 2 ^ 36) q)
  else if op = 3 then (old + v i) % 2 ^ 32
  else if op = 4 then (old + v i) % 2 ^ 64
  else if op = 5 then (if toSigned 32 (v i) < toSigned 32 old then v i % 2 ^ 32 else old)
  else if op = 6 then (if toSigned 32 old < toSigned 32 (v i) then v i % 2 ^ 32 else old)
  else if op = 7 then v 0
  else if old = v 0 then v 1 else old

/-- Elements an atomic's operands give. -/
def atomicCount (op : Nat) (d : List Word) : Nat := if op = 1 then d.length / 8 else if op = 8 then d.length / 2 else d.length

/-- A byte address is a limb base (a multiple of 2,048) plus 36g (Table 8-4). -/
def groupAligned (addr : Nat) : Bool := (upTo 512).any (fun g => decide (36 * g ≤ addr) && (addr - 36 * g) % 2048 == 0)

/-- An atomic is invalid (R214). -/
def State.atomicBad (s : State) (op addr pset entry : Nat) (d : List Word) : Bool :=
  match atomicShape op with
  | none => true
  | some z =>
    let n := atomicCount op d
    addr % z.align != 0 || (op == 1 && !groupAligned addr) || n == 0 || decide (z.most < n) || (op == 1 && d.length % 8 != 0) || (op == 8 && d.length != 2)
      || ((op == 1 || op == 2) && (match s.pset? pset with
          | some x => decide (x.primes.length ≤ entry)
          | none => true))

/-- Perform an atomic (R213, R214): its state and code; lines that are poisoned stay as they are. -/
def State.atomicDo (s : State) (op addr pset entry : Nat) (d : List Word) : State × Nat :=
  let q := (s.pset pset).q entry
  let w := ((atomicShape op).map (fun z => z.bytes)).getD 8
  (upTo (atomicCount op d)).foldl (fun (acc : State × Nat) i =>
    let a := addr + w * i
    let c := acc.1.rangeCode a w
    if c ≠ 0 then (acc.1.delivered (linesOf a w) true, if acc.2 ≠ 0 then acc.2 else c)
    else (acc.1.store! a (toBytes w (atomicElem op q (acc.1.loadLE a w) d i)), acc.2)) (s, 0)

/-- ATOMIC: its completion code and, for a returning operation, the old value. It occupies one outstanding-write count of the
partition that holds the stack (R212, R255). -/
def execAtomic (op addr pset entry : Nat) (data : List Word) (s : State) : Out :=
  guarded (decide (addr < 2 ^ 64)) <|
    let count := fun (x : State) (f : Ledger → Ledger) => match s.stackPart addr with
      | some p => x.modLedger p f
      | none => x
    let s := count s.stir (fun l => l.wrIssue 1)
    let old := s.loadLE addr 8
    let r := if s.decodeCode addr ≠ 0 then (s, s.decodeCode addr)
      else if s.atomicBad op addr pset entry data then (s, cAtomicInvalid)
      else s.atomicDo op addr pset entry data
    let ret := [4, 7, 8].contains op && s.decodeCode addr == 0 && !s.atomicBad op addr pset entry data
    let bytes := ((atomicShape op).map (fun z => z.bytes)).getD 8 * atomicCount op data
    let r := (r.1.memFault ((s.stackPart addr).getD 255) 0 (linesOf addr bytes) r.2, r.2)
    (count r.1 (fun l => l.wrEnd (r.2 == 0))).deliver ([r.2] ++ (if ret then [old] else []))

/-! ### Patrol, sparing, retirement, withdrawal -/

/-- Lines of a stack. -/
abbrev linesPerStack : Nat := Config.stackBytes / 128

/-- PATROL_SCRUB (R220): the next line of the stack is read; lines of withdrawn units are passed over. Patrol pauses while an
owner-change scrub runs (R221), and in Lizard and Deep Lizard (R372). -/
def execPatrolScrub (k symbols : Nat) (s : State) : Out :=
  guarded (decide (k < 12) && decide (symbols ≤ 144)) <|
    if s.memc.patrolHours = 0 ∨ s.scrubbing ∨ 2 ≤ s.pwr.state then s
    else
      let a := k * Config.stackStride + 128 * (s.stk k).patrolNext
      let s := s.modStk k (fun x => { x with patrolNext := (x.patrolNext + 1) % linesPerStack })
      if s.decodeCode a ≠ 0 ∨ smGet 0 s.poison (lineOf a) ≠ 0 then s else (s.eccRead a symbols 0).1

/-- Free spares of a pseudo-channel. -/
def Stack.sparesOf (x : Stack) (pc : Nat) : Nat :=
  if smGet false x.retired pc then 0 else Config.sparesPerPc - smGet 0 x.sparesUsed pc

/-- SPARES_LEFT (Table 8-6). -/
def Stack.sparesLeft (x : Stack) : Nat := ((upTo 64).map x.sparesOf).sum

/-- The first address of a row group's unit. -/
def unitAddr (k u : Nat) : Nat := k * Config.stackStride + u * Config.unitBytes

/-- Bytes of a spill page (R247). -/
abbrev pageBytes : Nat := 16384

/-- Free spill pages in units that have been withdrawn are retired (R257); a page in use is retired when its record leaves it. -/
def State.retirePages (s : State) : State :=
  s.each (upTo 8) (fun p x =>
    let y := x.part p
    let l := (upTo y.spillPages).filter (fun i =>
      !smGet false y.msg.pages i && !smGet false y.msg.retiredPages i && x.isWithdrawn (unitKey (y.spillBase + pageBytes * i)))
    if y.tiles = 0 ∨ l = [] then x
    else (x.modMsg p (fun m => { m with retiredPages := l.foldl (fun r i => smSet false r i true) m.retiredPages })).modLedger p
      (fun z => { z with spFree := z.spFree - l.length, spRetired := z.spRetired + l.length }))

/-- Withdraw a unit (R226): its lines in the cache are discarded, its free spill pages retired and the event recorded. -/
def State.withdrawUnit (s : State) (k u : Nat) : State :=
  let key := k * Config.unitsPerStack + u
  if s.isWithdrawn key then s
  else
    let s := { s with withdrawn := smSet false s.withdrawn key true }
    let s := (s.dropLines (fun a => unitKey a == key)).retirePages
    s.record cSparesExhausted (memLoc (unitAddr k u) 0)

/-- The lines a copy could not read become poisoned, each an uncorrectable read (R218, R223, R225). -/
def State.badLines (s : State) (ok : Nat → Bool) (l : List Nat) : State :=
  (l.filter ok).foldl (fun x a =>
    let x := x.modStk (stackNo a) (fun y => { y with uncorrectable := satInc 16 y.uncorrectable })
    (x.poisonStack a cEccUncorrectable).report cEccUncorrectable (memLoc (lineOf a) 0)) s

/-- Spare a row group (R223, R226). -/
def State.spareRow (s : State) (k pc rg : Nat) (bad : List Nat) : State :=
  let x := s.stk k
  let s := s.modStk k (fun y => { y with due := smSet false y.due (rgKey pc rg) false })
  if x.sparesOf pc = 0 then s.modStk k (fun y => { y with wdDue := smSet false y.wdDue rg true })
  else
    let u := smGet 0 x.sparesUsed pc
    let s := s.badLines (fun a => stackNo a == k && pcOf a == pc && rgOf a == rg) bad
    let s := s.modStk k (fun y => { y with
      remap := smSet 0 y.remap (rgKey pc rg) (1 + pc * Config.sparesPerPc + u)
      sparesUsed := smSet 0 y.sparesUsed pc (u + 1), spared := satInc 16 y.spared
      sparings := smMod [] y.sparings pc (fun l => l ++ [s.now]) })
    s.record cRowSpared (memLoc (unitAddr k rg + pc * 256) 0)

/-- ROW_SPARING (R223): a row group that is due is spared; SPARE_HOLD defers it. -/
def execRowSparing (k pc rg : Nat) (badLines : List Nat) (s : State) : Out :=
  guarded (decide (k < 12) && decide (pc < 64) && decide (rg < Config.unitsPerStack)) <|
    if ¬ smGet false (s.stk k).due (rgKey pc rg) then s
    else if s.memc.spareHold then
      let s := s.modStk k (fun y => { y with due := smSet false y.due (rgKey pc rg) false })
      { s with memc := { s.memc with deferred := s.memc.deferred ++ [{ stack := k, pc := pc, rg := rg, bad := badLines }] } }
    else s.spareRow k pc rg badLines

/-- Spares taken from the other pseudo-channels in turn (R224): row group, and the channel and spare it gets. -/
def retireAssign (free : Nat → Nat) (pc : Nat) : Nat → Nat → Nat → SMap Nat → List (Nat × Nat × Nat) → List (Nat × Nat × Nat)
  | 0, _, _, _, acc => acc.reverse
  | n + 1, rg, at_, used, acc =>
    let order := (upTo 64).map (fun i => (at_ + i) % 64)
    match order.find? (fun c => c != pc && decide (smGet 0 used c < free c)) with
    | none => acc.reverse
    | some c =>
      let u := smGet 0 used c
      retireAssign free pc n (rg + 1) ((c + 1) % 64) (smSet 0 used c (u + 1)) ((rg, c, u) :: acc)

/-- Retire a pseudo-channel (R224, R226). -/
def State.retirePc (s : State) (k pc : Nat) : State :=
  let x := s.stk k
  if smGet false x.retired pc then s
  else
    let l := retireAssign x.sparesOf pc Config.unitsPerStack 0 ((pc + 1) % 64) [] []
    let s := s.stir.modStk k (fun y => { y with
      retired := smSet false y.retired pc true, migrations := y.migrations ++ [(pc, 0)]
      remap := l.foldl (fun m e =>
        smSet 0 m (rgKey pc e.1) (1 + e.2.1 * Config.sparesPerPc + smGet 0 y.sparesUsed e.2.1 + e.2.2)) y.remap
      sparesUsed := (upTo 64).foldl (fun m c =>
        let n := (l.filter (fun e => e.2.1 == c)).length
        if n = 0 then m else smSet 0 m c (smGet 0 m c + n)) y.sparesUsed
      wdDue := ((upTo (Config.unitsPerStack - l.length)).map (fun i => l.length + i)).foldl
        (fun m u => smSet false m u true) y.wdDue })
    s.record cPcRetired (memLoc (k * Config.stackStride + pc * 256) 0)

/-- Row groups of a pseudo-channel spared in the last hour. -/
def State.sparedInHour (s : State) (k pc : Nat) : Nat :=
  ((smGet [] (s.stk k).sparings pc).filter (fun t => decide (s.now - t < 360000000000))).length

/-- PC_RETIREMENT (R224): on 64 row groups spared within an hour, on three parity failures of command or address within a
second, or on failed interface retraining; the last two are the channel's own reports. SPARE_HOLD defers it. -/
def execPcRetirement (k : Nat) (r : RetireIn) (s : State) : Out :=
  guarded (decide (k < 12) && decide (r.pc < 64)) <|
    if r.why = .sparings ∧ s.sparedInHour k r.pc < 64 then s
    else if s.memc.spareHold then
      { s with memc := { s.memc with deferred := s.memc.deferred ++ [{ stack := k, pc := r.pc, retire := true }] } }
    else s.retirePc k r.pc

/-- MIGRATION (R225): the next row groups of the first migrating channel are copied in ascending order; lines that cannot be
read, and every line where the channel has stopped responding, become poisoned. After the last row group the migration ends. -/
def execMigration (k : Nat) (m : MigrationIn) (s : State) : Out :=
  guarded (decide (k < 12) && decide (m.groups ≤ Config.unitsPerStack)) <|
    match (s.stk k).migrations with
    | [] => s
    | (pc, g) :: rest =>
      let last := min (g + m.groups) Config.unitsPerStack
      let all := (upTo ((last - g) * 256)).map (fun i =>
        unitAddr k (g + i / 256) + i % 256 / 2 * 16384 + pc * 256 + i % 2 * 128)
      let s := s.badLines (fun a => stackNo a == k && pcOf a == pc && decide (g ≤ rgOf a) && decide (rgOf a < last) &&
        s.decodeCode a == 0) (if m.dead then all else m.badLines)
      s.modStk k (fun y => { y with
        migrations := if last = Config.unitsPerStack then rest else (pc, last) :: rest })

/-- WITHDRAWAL (R226): a unit whose row group found no spare is withdrawn. -/
def execWithdrawal (k u : Nat) (s : State) : Out :=
  guarded (decide (k < 12) && decide (u < Config.unitsPerStack)) <|
    if smGet false (s.stk k).wdDue u then
      (s.modStk k (fun y => { y with wdDue := smSet false y.wdDue u false })).withdrawUnit k u
    else s

/-- Union of two sets of keys. -/
def smUnion (a b : SMap Bool) : SMap Bool := b.foldl (fun m e => smSet false m e.1 true) a

/-- Row groups of a stack whose remapping is not finished: due, without a spare, or not yet migrated. -/
def Stack.openUnits (x : Stack) : List Nat :=
  x.due.map (fun e => e.1 % Config.unitsPerStack) ++ x.wdDue.map (fun e => e.1) ++ x.migrations.map (fun e => e.2)

/-- Write the memory health record: remap entries, retirements and withdrawn units (R227), and which units are not finished. -/
def State.writeHealth (s : State) : State :=
  { s with memc := { s.memc with
      healthUnits := smUnion s.memc.healthUnits s.withdrawn
      healthStks := (upTo 12).foldl (fun m k =>
        let x := s.stk k
        smSet {} m k { failed := x.failed, retired := x.retired, remap := x.remap, sparesUsed := x.sparesUsed }) []
      healthOpen := (upTo 12).foldl (fun m k =>
        (s.stk k).openUnits.foldl (fun m u => smSet false m (k * Config.unitsPerStack + u) true) m) [] } }

/-- HEALTH_RECORD_WRITE (R227). -/
def execHealthRecordWrite (s : State) : Out := guarded true s.writeHealth

/-- End SPARE_HOLD and apply what it deferred (R234). -/
def State.endSpareHold (s : State) : State :=
  let l := s.memc.deferred
  l.foldl (fun x d => if d.retire then x.retirePc d.stack d.pc else x.spareRow d.stack d.pc d.rg d.bad)
    { s with memc := { s.memc with spareHold := false, deferred := [] } }

/-- SPARE_HOLD_EXPIRY (R234): after 10 s the device clears SPARE_HOLD. -/
def execSpareHoldExpiry (s : State) : Out :=
  guarded true <|
    if s.memc.spareHold ∧ 1000000000 ≤ s.now - s.memc.holdSince then s.endSpareHold else s

/-- Every unit of a stack withdrawn (R228). -/
def State.withdrawStack (s : State) (k : Nat) : State :=
  let lo := k * Config.unitsPerStack
  let hi := lo + Config.unitsPerStack
  let s := { s with
    withdrawn := s.withdrawn.filter (fun (e : Nat × Bool) => decide (e.1 < lo)) ++ (upTo Config.unitsPerStack).map (fun u => (lo + u, true))
      ++ s.withdrawn.filter (fun (e : Nat × Bool) => decide (hi ≤ e.1)) }
  (s.dropLines (fun a => stackNo a == k)).retirePages

/-- VISIBLE_UNITS of a stack. -/
def State.visibleUnits (s : State) (k : Nat) : Nat :=
  Config.unitsPerStack - (s.withdrawn.filter (fun e => e.1 / Config.unitsPerStack == k)).length

end Sys2Proof.Machine
end

