-- ==== Sys2Proof/Machine/Flits.lean ====
section
/-! DEFINITION. Helbole on the wire: packets as bytes, flit trailers, CRC-32C and the light FEC (R290 to R292; assumption log
23). -/

namespace Sys2Proof.Machine

/-! ### Packets (Table 11-3) -/

/-- Bytes padded to units of 16. -/
def padUnits (b : List Byte) : List Byte := b ++ List.replicate (ceilDiv b.length 16 * 16 - b.length) 0#8

/-- A packet's header unit. -/
def packetHeader (x : Packet) : Nat :=
  pack [(0, x.type), (4, x.vc), (6, b2n x.detour), (8, x.units), (16, x.dest), (32, x.src), (48, x.pseq), (72, x.coll)
        , (80, x.inst), (88, x.offset), (120, x.part)]

/-- A packet in the stream: its header unit and its data units. -/
def packetBytes (x : Packet) : List Byte := toBytes 16 (packetHeader x) ++ x.body

/-- Bytes of a packet whose header unit is `h`. -/
def packetLength (h : Nat) : Nat := 16 * (1 + bits h 11 8)

/-- The packet that bytes of the stream hold. -/
def packetOf (b : List Byte) : Packet :=
  let h := leAt b 0 16
  { type := bits h 3 0, vc := bits h 5 4, detour := bit h 6, units := bits h 11 8, dest := bits h 31 16, src := bits h 47 32
    pseq := bits h 71 48, coll := bits h 79 72, inst := bits h 87 80, offset := bits h 119 88, part := bits h 122 120
    body := b.drop 16 }

/-- Cut a stream into its whole packets and what is left of the next (R290). -/
def cutStream : Nat → List Byte → List Packet × List Byte
  | 0, b => ([], b)
  | n + 1, b =>
    let m := packetLength (leAt b 0 16)
    if b.length < 16 ∨ b.length < m then ([], b)
    else
      let r := cutStream n (b.drop m)
      (packetOf (b.take m) :: r.1, r.2)

/-- Fill a body to whole flit bodies of 240 bytes with an idle packet (R290). -/
def fillBody (b : List Byte) : List Byte :=
  let n := (ceilDiv (max 1 b.length) 240 * 240 - b.length) / 16
  if n = 0 then b else b ++ packetBytes { vc := 3, units := n - 1, body := List.replicate (16 * (n - 1)) 0#8 }

/-! ### CRC-32C -/

/-- One bit of the CRC register (polynomial 0x1EDC_6F41, bit-reversed). -/
def crcBit (c : Nat) : Nat := if c % 2 = 1 then (c / 2) ^^^ 0x82F63B78 else c / 2

/-- One byte into the CRC register. -/
def crcByte (c : Nat) (b : Byte) : Nat :=
  crcBit (crcBit (crcBit (crcBit (crcBit (crcBit (crcBit (crcBit (c ^^^ b.toNat))))))))

/-- CRC-32C of bytes; its bit order, start value and final inversion are PRESUMED, those of the CRC of that name (assumption log
23). -/
def crc32c (b : List Byte) : Nat := (b.foldl crcByte 0xFFFFFFFF) ^^^ 0xFFFFFFFF

/-! ### The light FEC (R291) -/

/-- Every second byte, from the first. -/
def everyOther : List Byte → List Byte
  | a :: _ :: r => a :: everyOther r
  | l => l

/-- Interleave two lists. -/
def weave : List Byte → List Byte → List Byte
  | a :: r, b :: s => a :: b :: weave r s
  | l, [] => l
  | [], l => l

/-- The 128 symbols of a code: the flit's even bytes for code 0, its odd bytes for code 1. -/
def fecSymbols (code : Nat) (wire : List Byte) : List Byte := everyOther (wire.drop code)

/-- The 4 parity symbols of 124 data symbols. The field and the generator of the codes are open (assumption log 23). -/
def fecParity (data : List Byte) : List Byte := toBytes 4 (Config.fecParity (ofBytes data))

/-- A word of the code. -/
def fecWord (s : List Byte) : Bool := s.drop 124 == fecParity (s.take 124)

/-- The words that differ from one in a chosen symbol. -/
def symbolFixes (s : List Byte) : List (List Byte) :=
  (upTo 128).flatMap (fun i => (upTo 256).map (fun v => s.set i (BitVec.ofNat 8 v)))

/-- A code corrects up to two symbols: the word and how many were corrected; none: uncorrectable. -/
def fecCorrect (s : List Byte) : Option (List Byte × Nat) :=
  if fecWord s then some (s, 0)
  else
    match (symbolFixes s).find? fecWord with
    | some t => some (t, 1)
    | none => ((symbolFixes s).findSome? (fun t => (symbolFixes t).find? fecWord)).map (fun t => (t, 2))

/-! ### Flits (Table 11-2) -/

/-- Trailer bits [31:0] of a flit that is sent. -/
def flitTrailer (seq ack : Nat) (nak : Bool) (crVc crCount : Nat) : Nat :=
  pack [(0, seq), (12, ack), (24, b2n nak), (25, crVc), (27, crCount)]

/-- A flit's 256 bytes from its body and trailer. -/
def flitBytes (body : List Byte) (trailer : Nat) : List Byte :=
  let t := body ++ toBytes 4 trailer
  let d := t ++ toBytes 4 (crc32c t)
  d ++ weave (fecParity (fecSymbols 0 d)) (fecParity (fecSymbols 1 d))

/-- A received flit after the FEC: its bytes and the symbols corrected; none where a code is uncorrectable. -/
def flitCorrected (wire : List Byte) : Option (List Byte × Nat) :=
  match fecCorrect (fecSymbols 0 wire), fecCorrect (fecSymbols 1 wire) with
  | some a, some b => some (weave a.1 b.1, a.2 + b.2)
  | _, _ => none

/-- The CRC of a flit holds. -/
def flitCrcOk (d : List Byte) : Bool := leAt d 244 4 == crc32c (d.take 244)

end Sys2Proof.Machine
end

