-- ==== Sys2Proof/Machine/Flags.lean ====
section
/-! DEFINITION. Headers: their layout, the issue-time checks of Table 3-8, and the predicted output header of
Table 3-7 (R54 to R81). -/

namespace Sys2Proof.Machine

/-- A ciphertext header from its 64 bytes (Table 3-3); reserved bits are not kept. -/
def headerOf (n : Nat) : Header where
  valid := true
  version := bits n 7 0
  scheme := bits n 15 8
  logN := bits n 23 16
  limbs := bits n 31 24
  specials := bits n 39 32
  level := bits n 47 40
  comps := bits n 55 48
  domain := bit n 56
  poison := bit n 57
  boot := bit n 58
  flooded := bit n 59
  scale := bits n 79 64
  noise := bits n 95 80
  psetId := bits n 127 96
  keyTag := bits n 191 128
  plainMod := bits n 255 192
  bodyAddr := bits n 319 256
  format := bit n 320
  order := bit n 321
  poisonCause := bits n 351 336

/-- The 64 bytes of a header, VERSION and reserved fields as kept. -/
def headerBits (h : Header) : Nat :=
  pack [(0, h.version), (8, h.scheme), (16, h.logN), (24, h.limbs), (32, h.specials), (40, h.level), (48, h.comps),
        (56, b2n h.domain), (57, b2n h.poison), (58, b2n h.boot), (59, b2n h.flooded), (64, h.scale), (80, h.noise),
        (96, h.psetId), (128, h.keyTag), (192, h.plainMod), (256, h.bodyAddr), (320, b2n h.format),
        (321, b2n h.order), (336, h.poisonCause)]

/-- A key header from its bytes (Table 3-5). -/
def keyHeaderOf (n : Nat) : KeyHeader where
  version := bits n 7 0
  scheme := bits n 15 8
  logN := bits n 23 16
  kind := bits n 31 24
  dnum := bits n 39 32
  qlimbs := bits n 47 40
  specials := bits n 55 48
  seeded := bit n 56
  format := bit n 57
  keyIndex := bits n 95 64
  psetId := bits n 127 96
  keyTag := bits n 191 128
  targetTag := bits n 255 192
  seed := toBytes 32 (bits n 511 256)

/-- The key checks of R61 and R231, in order: 0 or the first failed check's code. -/
def keyCheck (l : KeyLatch) (k : KeyHeader) (ways : Nat) : Nat :=
  if k.psetId ≠ l.psetId then cPrimesetMismatch
  else if !l.publicKey && k.keyTag != l.keyTag then cKeysetMismatch
  else if k.version ≠ 1 ∨ k.kind ≠ l.kind ∨ (l.kind = 2 ∧ k.keyIndex ≠ l.galois) ∨ k.dnum ≠ l.dnum
      ∨ k.qlimbs < l.limbs ∨ k.scheme ≠ l.scheme ∨ k.logN ≠ l.logN then cKeyMismatch
  else if k.seeded ∧ ways = 0 then cBadgerDisabled
  else 0

/-! ### Opcodes of class 0x03 (Table 5-4) -/

abbrev oCadd : Nat := 0x0300
abbrev oCsub : Nat := 0x0301
abbrev oCneg : Nat := 0x0302
abbrev oCaddp : Nat := 0x0303
abbrev oCmulp : Nat := 0x0304
abbrev oCmul : Nat := 0x0305
abbrev oCmuli : Nat := 0x0306
abbrev oRelin : Nat := 0x0307
abbrev oRot : Nat := 0x0308
abbrev oKsw : Nat := 0x0309
abbrev oModup : Nat := 0x030A
abbrev oModdown : Nat := 0x030B
abbrev oRescale : Nat := 0x030C
abbrev oModsw : Nat := 0x030D
abbrev oDrop : Nat := 0x030E
abbrev oToeval : Nat := 0x030F
abbrev oTocoef : Nat := 0x0310
abbrev oEncpk : Nat := 0x0311
abbrev oModraise : Nat := 0x0312
abbrev oBootclose : Nat := 0x0313
abbrev oFlood : Nat := 0x0314

/-- Key kind an operation needs (R61); 0 for none. -/
def keyKind (o : Nat) : Nat := if o = oRelin then 1 else if o = oRot then 2 else if o = oEncpk then 3 else if o = oKsw then 4 else 0

/-- What the header checks of an operation are given. -/
structure OpReq where
  opcode : Nat := 0
  /-- first and second source headers; the second only for binary operations -/
  a : Header := {}
  b : Header := {}
  /-- the operation's prime set and the noise tables of its index -/
  pset : Option PrimeSet := none
  noise : Nat → Option NoiseTable := fun _ => none
  imm8 : Nat := 0
  /-- CMULI: the constant is 0; otherwise ⌈256·log2 |c|⌉ -/
  constZero : Bool := false
  constLog : Nat := 0
  /-- ROT with a directly named Galois element -/
  direct : Option Nat := none
  keyTag : Nat := 0
  targetTag : Nat := 0
  stop : Bool := false

/-- Binary operations name two headers. -/
def isBinary (o : Nat) : Bool := [oCadd, oCsub, oCaddp, oCmulp, oCmul].contains o
/-- The second operand is a plaintext. -/
def plainSecond (o : Nat) : Bool := o == oCaddp || o == oCmulp

/-- The operands of an operation. -/
def OpReq.ins (r : OpReq) : List Header := if isBinary r.opcode then [r.a, r.b] else [r.a]

/-- R56: a zero in LOG_N or LIMBS, or a zero PLAIN_MODULUS under BGV or BFV. -/
def headerZero (h : Header) : Bool :=
  h.logN == 0 || h.limbs == 0 || ((h.scheme == 2 || h.scheme == 3) && h.plainMod == 0)

/-- Fields out of the range of Table 3-3 (R56). -/
def headerRangeBad (h : Header) : Bool :=
  h.version != 1 || h.scheme == 0 || decide (3 < h.scheme) || decide (h.logN < 12) || decide (17 < h.logN)
    || decide (64 < h.limbs) || decide (16 < h.specials) || h.comps == 0 || decide (3 < h.comps)
    || (!h.poison && h.poisonCause != 0) || h.bodyAddr % 2048 != 0
    || (h.scheme == 1 && h.plainMod != 0) || (h.scheme != 1 && h.scale != 0) || (h.comps == 1 && h.keyTag != 0)

/-- The set-dependent limits of R56 and Table 3-4. -/
def headerSetBad (o : Nat) (x : PrimeSet) (h : Header) : Bool :=
  decide (x.logNMax < h.logN) || h.limbs != x.width * (h.level + 1) || decide (x.top < h.level)
    || decide (x.pcount < h.specials)
    || (h.scheme != 1 && (x.width != 1 || h.boot || decide (h.plainMod < 2) || decide (2 ^ 60 ≤ h.plainMod)
          || x.primes.any (fun p => h.plainMod % p.q == 0)))
    || (h.scheme == 3 && (h.level != x.top || (o == oCmul && decide (x.acount < h.limbs + 1))))

/-- Order 1 of Table 3-8 for one operand: 0 or a code. -/
def headerCode (o : Nat) (x : Option PrimeSet) (h : Header) : Nat :=
  if headerZero h then cDescriptorZero
  else if !h.valid || headerRangeBad h then cHeaderInvalid
  else
    match x with
    | some x => if x.id = h.psetId ∧ headerSetBad o x h then cHeaderInvalid else 0
    | none => 0

/-- COMPONENTS an operation accepts in its ciphertext operands. Table 3-8 names no set for each operation: the model's choice
(assumption log 12). -/
def compsOk (o c : Nat) : Bool :=
  if [oCadd, oCsub, oCaddp, oCmulp, oModup, oModdown, oBootclose].contains o then c == 2 || c == 3
  else if [oCmul, oRot, oKsw, oModraise, oFlood].contains o then c == 2
  else if o = oRelin then c == 3
  else if o = oEncpk then c == 1
  else true

/-- SPECIALS an operation accepts (R68). That MODDOWN needs some and that CADD and CSUB need equal ones is the model's choice
(assumption log 12). -/
def specialsOk (o : Nat) (l : List Header) : Bool :=
  let z := l.all (fun h => h.specials == 0)
  if o = oModdown then l.all (fun h => h.specials != 0)
  else if o = oCadd ∨ o = oCsub then l.all (fun h => h.specials == (l.headD {}).specials)
  else if o = oCneg ∨ o = oToeval ∨ o = oTocoef then true
  else z

/-- Order 3 of Table 3-8: SHAPE_MISMATCH conditions. -/
def shapeBad (r : OpReq) (x : PrimeSet) : Bool :=
  let o := r.opcode
  let a := r.a
  let b := r.b
  (isBinary o && (a.scheme != b.scheme || a.logN != b.logN || a.level != b.level || a.plainMod != b.plainMod
      || (!plainSecond o && a.boot != b.boot)))
    || !compsOk o a.comps
    || (isBinary o && (if plainSecond o then b.comps != 1 else !compsOk o b.comps))
    || !specialsOk o r.ins
    || (o == oRescale && a.scheme != 1) || (o == oModsw && a.scheme != 2) || (o == oDrop && a.scheme == 3)
    || (o == oModraise && (a.scheme != 1 || a.level != 0 || a.boot))
    || (o == oBootclose && !a.boot) || (o == oFlood && a.boot)
    || (o == oEncpk && a.scheme == 3 && r.imm8 != x.top)

/-- Order 3: unequal key-set tags of two ciphertext operands. -/
def tagsBad (r : OpReq) : Bool := isBinary r.opcode && !plainSecond r.opcode && r.a.keyTag != r.b.keyTag

/-- Order 4: the domain does not suit the operation. -/
def domainBad (r : OpReq) : Bool :=
  let o := r.opcode
  if [oCmulp, oCmul, oRelin, oRot, oKsw].contains o then r.ins.any (fun h => !h.domain)
  else if [oCadd, oCsub, oCaddp].contains o then r.a.domain != r.b.domain
  else if o = oToeval then r.a.domain
  else if o = oTocoef then !r.a.domain
  else false

/-- M(x): the message bound of an operand (R67). -/
def msgBound (t : NoiseTable) (h : Header) : Nat :=
  if h.scheme = 1 then h.scale + t.msgBits else logT h.plainMod + 256 * h.logN

/-- A sum of bound terms; 0xFFFF where an input bound is 0xFFFF (R65). -/
def boundOf (ins : List Nat) (v : Nat) : Nat := if ins.contains 0xFFFF then 0xFFFF else satB v

/-- A predicted header with its SCALE_EXP before storage. -/
structure Predicted where
  hdr : Header := {}
  scale : Int := 0
  deriving DecidableEq, Repr

/-- The output header of Table 3-7, R70, R76, R78 and R79, without the POISON changes of R74. For a propagated RESCALE or MODSW
at LEVEL 0 and a propagated DROP to no lower level, where Table 3-7 gives no LEVEL, the input's is the model's choice
(assumption log 12). -/
def predict (r : OpReq) (x : PrimeSet) (t : NoiseTable) : Predicted :=
  let o := r.opcode
  let a := r.a
  let b := r.b
  let h : Header := { a with flooded := r.ins.any (fun h => h.flooded) }
  let s : Int := a.scale
  if o = oCadd ∨ o = oCsub then
    { hdr := { h with comps := max a.comps b.comps, noise := ladd a.noise b.noise }, scale := s }
  else if o = oCaddp then { hdr := { h with noise := ladd a.noise b.noise }, scale := s }
  else if o = oToeval then { hdr := { h with domain := true }, scale := s }
  else if o = oTocoef then { hdr := { h with domain := false }, scale := s }
  else if (o = oCmulp ∨ o = oCmul) ∧ a.scheme = 1 then
    { hdr := { h with
        comps := if o = oCmul then 3 else a.comps
        noise := boundOf [a.noise, b.noise]
          (ladd (ladd (satB (a.noise + msgBound t b)) (satB (b.noise + msgBound t a))) (satB (a.noise + b.noise))) }
      scale := s + b.scale }
  else if o = oCmulp then { hdr := { h with noise := boundOf [a.noise] (a.noise + msgBound t b) }, scale := 0 }
  else if o = oCmul then
    { hdr := { h with
        comps := 3
        noise := boundOf [a.noise, b.noise]
          (if a.scheme = 2 then a.noise + b.noise
           else plusB (plusB (ladd a.noise b.noise) (logT a.plainMod)) t.bfvMul) }
      scale := 0 }
  else if o = oCmuli then
    { hdr := { h with noise := if r.constZero then 0 else boundOf [a.noise] (a.noise + r.constLog) }, scale := s }
  else if o = oRelin ∨ o = oRot ∨ o = oKsw ∨ o = oModdown then
    { hdr := { h with comps := 2, specials := 0, noise := ladd a.noise (t.ks.getD a.level 0)
                      keyTag := if o = oKsw then r.targetTag else a.keyTag }
      scale := s }
  else if o = oModup then { hdr := { h with specials := x.pcount }, scale := s }
  else if (o = oRescale ∨ o = oModsw) ∧ a.level ≠ 0 then
    let pd := (((x.primes.take (x.width * (a.level + 1))).drop (x.width * a.level)).map (fun p => lq p.q)).sum
    let term := if o = oRescale then t.rescale else t.rescale + logT a.plainMod
    { hdr := { h with level := a.level - 1, limbs := a.limbs - x.width, noise := ladd (lsub a.noise pd) (satB term) }
      scale := if o = oRescale then s - pd else 0 }
  else if o = oDrop ∧ r.imm8 < a.level then
    { hdr := { h with level := r.imm8, limbs := x.width * (r.imm8 + 1) }, scale := s }
  else if o = oEncpk then
    -- LIMBS is an 8-bit field (Table 3-3)
    { hdr := { h with level := r.imm8, limbs := x.width * (r.imm8 + 1) % 256, comps := 2, specials := 0, noise := t.fresh
                      keyTag := r.keyTag }
      scale := s }
  else if o = oModraise then
    { hdr := { h with level := x.top, limbs := x.width * (x.top + 1), boot := true }, scale := s }
  else if o = oBootclose then
    { hdr := { h with boot := false, noise := t.bootOut.getD a.level 0xFFFF }, scale := s }
  else if o = oFlood then
    { hdr := { h with noise := ladd a.noise (256 * (r.imm8 + a.logN)), flooded := true }, scale := s }
  else { hdr := h, scale := s }

/-- A predicted header as stored: SCALE_EXP clamped to 16 bits (R67). -/
def Predicted.stored (p : Predicted) : Header :=
  { p.hdr with scale := if p.scale < 0 then 0 else if 0xFFFF < p.scale then 0xFFFF else p.scale.toNat }

/-- The budget conditions of R69 on a predicted output: 0 or a code. -/
def budgetCode (p : Predicted) (x : PrimeSet) (t : NoiseTable) : Nat :=
  let h := p.hdr
  let lql := x.lqLevel h.level
  if h.scheme = 1 then
    if h.noise = 0xFFFF ∨ p.scale - h.noise < t.precFloor then cNoiseBudget
    else if lql < p.scale + t.msgBits + 256 then cScaleOverflow
    else 0
  else
    let extra := if h.scheme = 3 then logT h.plainMod else 0
    if h.noise = 0xFFFF ∨ lql < h.noise + t.margin + extra + 256 then cNoiseBudget else 0

/-- Order 8 (R69, R77): budget where it applies, then storability. -/
def order8 (p : Predicted) (x : PrimeSet) (t : NoiseTable) : Nat :=
  let c := if 2 ≤ p.hdr.comps ∧ ¬ p.hdr.boot then budgetCode p x t else 0
  if c ≠ 0 then c else if p.scale < 0 ∨ 0xFFFF < p.scale then cScaleOverflow else 0

/-- What the header checks answer: a refusal code with its stage of Table 15-8, or the predicted header,
suppressed where R74 propagates. -/
structure Verdict where
  code : Nat := 0
  stage : Nat := 0
  suppressed : Bool := false
  hdr : Header := {}
  deriving DecidableEq, Repr

/-- Stages of Table 15-8; header order i is 40 + 2i, GALOIS_ELEMENT of ROT 43. -/
abbrev stStop : Nat := 0
abbrev stWait : Nat := 10
abbrev stFetch : Nat := 20
abbrev stSeq : Nat := 30
abbrev stHdr : Nat := 40
abbrev stBind : Nat := 60
abbrev stRead : Nat := 70
abbrev stUnit : Nat := 80
abbrev stWrite : Nat := 90

/-- Refuse at an order of Table 3-8. -/
def refuse (c order : Nat) : Verdict := { code := c, stage := stHdr + 2 * order }

/-- The header checks of Table 3-8 in order, with FLOOD's margin test and the stop policy of R403 (R72). -/
def checkHeaders (r : OpReq) : Verdict :=
  let o := r.opcode
  match (r.ins.map (headerCode o r.pset)).find? (· != 0) with
  | some c => refuse c 1
  | none =>
    if (match r.direct with | some k => galoisBad r.a.logN k | none => false) then
      { code := cGaloisElement, stage := stHdr + 3 }
    else
      match r.pset, r.noise r.a.scheme with
      | some x, some t =>
        if r.ins.any (fun h => h.psetId != x.id) then refuse cPrimesetMismatch 2
        else if tagsBad r then refuse cKeysetMismatch 3
        else if shapeBad r x then refuse cShapeMismatch 3
        else if domainBad r then refuse cDomainMismatch 4
        else
          match r.ins.find? (fun h => h.poison) with
          | some h =>
            if r.stop ∨ o = oFlood then refuse cPoisonInput 5
            else
              { suppressed := true
                hdr := { (predict r x t).stored with poison := true, noise := 0xFFFF, poisonCause := h.poisonCause } }
          | none =>
            if [oCadd, oCsub, oCaddp].contains o && r.a.scheme == 1 && r.a.scale != r.b.scale then
              refuse cScaleMismatch 6
            else if ((o == oRescale || o == oModsw) && r.a.level == 0) || (o == oDrop && decide (r.a.level ≤ r.imm8))
                || (o == oEncpk && decide (r.a.level < r.imm8)) then refuse cLevelExhausted 7
            else if o == oFlood && (r.a.noise == 0xFFFF || decide (256 * r.imm8 < r.a.noise + t.floodMargin)) then
              refuse cFloodWidth 8
            else
              let p := predict r x t
              let c := order8 p x t
              if c ≠ 0 then refuse c 8 else { hdr := p.stored }
      | _, _ => refuse cPrimesetMismatch 2

/-- FLOOD's width checks in the Sequencer stage (R79). -/
def floodWidthCode (f : Nat) : Nat := if f = 0 then cDescriptorZero else if 60 < f then cFloodWidth else 0

end Sys2Proof.Machine
end

