-- ==== Sys2Proof/Machine/Float.lean ====
section
/-! DEFINITION. Binary floating point of the matrix and vector units (R183, R189) and the vector
operations (R188 to R191, R194 to R196). -/

namespace Sys2Proof.Machine

/-- A decoded value: NaN, an infinity, or (−1)^neg · m · 2^(e − 1000). -/
inductive FVal where
  | nan
  | inf (neg : Bool)
  | fin (neg : Bool) (m e : Nat)
  deriving DecidableEq, Repr

/-- Offset of the exponents kept in `FVal.fin`. -/
abbrev fOff : Nat := 1000

/-- Decode an IEEE-style encoding of eb exponent bits and mb mantissa bits. -/
def fDecode (eb mb n : Nat) : FVal :=
  let neg := bit n (eb + mb)
  let ex := bits n (eb + mb - 1) mb
  let m := n % 2 ^ mb
  let bias := 2 ^ (eb - 1) - 1
  if ex = 2 ^ eb - 1 then (if m = 0 then .inf neg else .nan)
  else if ex = 0 then .fin neg m (fOff + 1 - bias - mb)
  else .fin neg (2 ^ mb + m) (fOff + ex - bias - mb)

/-- Decode fp32. -/
def f32 (n : Nat) : FVal := fDecode 8 23 n
/-- Decode bf16. -/
def bf16 (n : Nat) : FVal := fDecode 8 7 n
/-- Decode E5M2. -/
def e5m2 (n : Nat) : FVal := fDecode 5 2 n
/-- Decode E4M3: all exponent and mantissa bits set is NaN, no infinity (R183). -/
def e4m3 (n : Nat) : FVal :=
  let neg := bit n 7
  let ex := bits n 6 3
  let m := n % 8
  if n % 128 = 127 then .nan
  else if ex = 0 then .fin neg m (fOff + 1 - 7 - 3)
  else .fin neg (8 + m) (fOff + ex - 7 - 3)

/-- Round m / 2^sh to an integer: nearest even, or toward zero. -/
def roundShift (nearest : Bool) (m sh : Nat) : Nat :=
  if sh = 0 then m
  else
    let q := m >>> sh
    let rem := m % 2 ^ sh
    let half := 2 ^ (sh - 1)
    if nearest && (decide (half < rem) || (rem == half && q % 2 == 1)) then q + 1 else q

/-- Round a finite magnitude m·2^(e − fOff) to a format of mb mantissa bits whose least subnormal is
2^(emin − fOff): the integer of exponent and mantissa fields, unbounded above. -/
def roundMag (nearest : Bool) (mb emin m e : Nat) : Nat :=
  if m = 0 then 0
  else
    let top := m.log2 + e
    -- exponent of the last place kept
    let lsb := if top < emin + mb then emin else top - mb
    let q := if e ≤ lsb then roundShift nearest m (lsb - e) else m <<< (e - lsb)
    -- exponent field 0 holds q below 2^mb; each further binade adds 2^mb
    (lsb - emin) * 2 ^ mb + q

/-- Round to fp32, nearest even. -/
def toF32 : FVal → Nat
  | .nan => 0x7FC00000
  | .inf neg => 0x7F800000 + b2n neg * 2 ^ 31
  | .fin neg m e =>
    let r := roundMag true 23 (fOff - 149) m e
    (if 0x7F800000 ≤ r then 0x7F800000 else r) + b2n neg * 2 ^ 31

/-- Exact product of two values. -/
def fMul : FVal → FVal → FVal
  | .nan, _ => .nan
  | _, .nan => .nan
  | .inf s, .inf t => .inf (s != t)
  | .inf s, .fin t m _ => if m = 0 then .nan else .inf (s != t)
  | .fin s m _, .inf t => if m = 0 then .nan else .inf (s != t)
  | .fin s m e, .fin t n f => .fin (s != t) (m * n) (e + f - fOff)

/-- Exact sum of two values; an exact zero of opposite signs is +0. -/
def fAdd : FVal → FVal → FVal
  | .nan, _ => .nan
  | _, .nan => .nan
  | .inf s, .inf t => if s = t then .inf s else .nan
  | .inf s, .fin _ _ _ => .inf s
  | .fin _ _ _, .inf t => .inf t
  | .fin s m e, .fin t n f =>
    let g := min e f
    let a := m <<< (e - g)
    let b := n <<< (f - g)
    if s = t then .fin s (a + b) g
    else if b < a then .fin s (a - b) g
    else if a < b then .fin t (b - a) g
    else .fin false 0 g

/-- One accumulation step: acc ← RNE_fp32(acc + a·b) (R183). -/
def fMac (acc : Nat) (a b : FVal) : Nat := toF32 (fAdd (f32 acc) (fMul a b))

/-! ### Vector operations -/

/-- Clamp to signed w-bit range. -/
def satS (w : Nat) (i : Int) : Int :=
  let h : Int := (2 ^ (w - 1) : Nat)
  if i < -h then -h else if h - 1 < i then h - 1 else i

/-- rnd(t, c) of R189 with the element's random bits r: RND 0 nearest even, 1 toward zero, 2 stochastic. -/
def rndI (rnd : Nat) (t : Int) (c r : Nat) : Int :=
  let p : Int := (2 ^ c : Nat)
  if c = 0 then t
  else if rnd = 1 then t.tdiv p
  else if rnd = 2 then (t + r) / p
  else
    let q := t / p
    let rem := t - q * p
    let half : Int := (2 ^ (c - 1) : Nat)
    if half < rem ∨ (rem = half ∧ q % 2 = 1) then q + 1 else q

/-- fp32 bits to bf16 (CVTBF, R189). -/
def cvtBf (rnd x r : Nat) : Nat :=
  let sgn := b2n (bit x 31) * 2 ^ 15
  let mag := x % 2 ^ 31
  if 0x7F800000 < mag then 0x7FC0
  else if mag = 0x7F800000 then sgn + 0x7F80
  else if rnd = 2 then sgn + (mag + r) >>> 16
  else sgn + roundShift (rnd = 0) mag 16

/-- fp32 bits to E4M3 (CVTE4): magnitudes beyond 448 saturate to 448, NaN gives 0x7F. -/
def cvtE4 (rnd x : Nat) : Nat :=
  match f32 x with
  | .nan => 0x7F
  | .inf neg => 0x7E + b2n neg * 128
  | .fin neg m e =>
    let r := roundMag (rnd = 0) 3 (fOff - 9) m e
    (if 0x7E < r then 0x7E else r) + b2n neg * 128

/-- fp32 bits to E5M2 (CVTE5): overflow gives an infinity, NaN gives 0x7E. Assumption log 10. -/
def cvtE5 (rnd x : Nat) : Nat :=
  match f32 x with
  | .nan => 0x7E
  | .inf neg => 0x7C + b2n neg * 128
  | .fin neg m e =>
    let r := roundMag (rnd = 0) 2 (fOff - 16) m e
    (if 0x7C ≤ r then 0x7C else r) + b2n neg * 128

/-- What a lane of the vector unit is given (R187). -/
structure LaneIn where
  vop : Nat := 0
  x : Nat := 0
  y : Nat := 0
  rnd : Nat := 0
  shift : Nat := 0
  maskBit : Bool := true
  key : List Byte := []
  stream : Nat := 0
  dropP : Nat := 0
  index : Nat := 0
  deriving DecidableEq, Repr

/-- What a lane gives: its result bits, the mask bit it writes, and its faults (R191). -/
structure LaneOut where
  val : Nat := 0
  mask : Option Bool := none
  sat : Bool := false
  bad : Bool := false
  deriving DecidableEq, Repr

/-- The lane's random bits for cut width c (R194); none are drawn for c = 0 (R195). -/
def laneRand (l : LaneIn) (c : Nat) : Nat :=
  if c = 0 then 0 else randBits l.key l.stream l.index c

/-- A sat32 result with its saturation fault. -/
def lane32 (i : Int) : LaneOut :=
  { val := fromSigned 32 (satS 32 i), sat := decide (satS 32 i ≠ i) }

/-- REQ and REQ4 (Table 7-4): w result bits. -/
def laneReq (w : Nat) (l : LaneIn) : LaneOut :=
  let m : Nat := l.y % 2 ^ 16
  let s := bits l.y 20 16
  let z := toSigned 8 (bits l.y 31 24)
  if l.rnd = 2 ∧ s ≠ l.shift then { bad := true }
  else
    let r := if l.rnd = 2 then laneRand l l.shift else 0
    let v := rndI l.rnd (toSigned 32 l.x * (m : Int)) s r + z
    { val := fromSigned w (satS w v), sat := decide (satS w v ≠ v) }

/-- Magnitude of fp32 bits is an infinity or NaN. -/
def f32Special (x : Nat) : Bool := decide (0x7F800000 ≤ x % 2 ^ 31)

/-- An unmasked lane's operation (Table 7-4). -/
def laneOp (l : LaneIn) : LaneOut :=
  let x := toSigned 32 l.x
  let y := toSigned 32 l.y
  if l.vop = 1 then { val := l.x }
  else if l.vop = 2 then lane32 (x + y)
  else if l.vop = 3 then lane32 (x - y)
  else if l.vop = 4 then lane32 (x * y)
  else if l.vop = 5 then { val := l.x &&& l.y }
  else if l.vop = 6 then { val := l.x ||| l.y }
  else if l.vop = 7 then { val := l.x ^^^ l.y }
  else if l.vop = 8 then lane32 (x * (2 ^ l.shift : Nat))
  else if l.vop = 9 then
    { val := fromSigned 32 (rndI l.rnd x l.shift (if l.rnd = 2 then laneRand l l.shift else 0)) }
  else if l.vop = 10 then { val := if x < y then l.y else l.x }
  else if l.vop = 11 then { val := if y < x then l.y else l.x }
  else if l.vop = 12 then { val := l.x, mask := some (decide (x < y)) }
  else if l.vop = 13 then { val := if l.maskBit then l.x else l.y }
  else if l.vop = 14 then laneReq 8 l
  else if l.vop = 15 then laneReq 4 l
  else if l.vop = 16 then
    let v := cvtBf l.rnd l.x (if l.rnd = 2 then laneRand l 16 else 0)
    { val := v, sat := f32Special l.x || decide (0x7F80 ≤ v % 2 ^ 15) }
  else if l.vop = 17 then
    let exact := roundMag (l.rnd = 0) 3 (fOff - 9)
    let beyond := match f32 l.x with
      | .fin _ m e => decide (0x7E < exact m e)
      | _ => true
    { val := cvtE4 l.rnd l.x, sat := beyond }
  else if l.vop = 18 then
    let v := cvtE5 l.rnd l.x
    { val := v, sat := f32Special l.x || decide (0x7C ≤ v % 128) }
  else if l.vop = 19 then
    let keep := decide (l.dropP ≤ laneRand l 16)
    { val := if keep then l.x else 0, mask := some keep }
  else {}

/-- Bits of one result of a vector operation (Table 7-4). -/
def vopBits (vop : Nat) : Nat :=
  if vop = 14 ∨ vop = 17 ∨ vop = 18 then 8 else if vop = 15 then 4 else if vop = 16 then 16 else 32

end Sys2Proof.Machine
end

