-- ==== Sys2Proof/Machine/Tensor.lean ====
section
/-! DEFINITION. Tensor headers, tile blocks and their elements in memory (R169 to R173). -/

namespace Sys2Proof.Machine

/-- A tensor header's fields (Table 6-6). -/
structure Tensor where
  version : Nat
  dtype : Nat
  rank : Nat
  mode : Nat
  scaled : Bool
  scaleFp8 : Bool
  group : Nat
  reduce : Nat
  d0 : Nat
  d1 : Nat
  d2 : Nat
  d3 : Nat
  s1 : Int
  s2 : Int
  s3 : Int
  tileR : Nat
  tileC : Nat
  listCount : Nat
  listAddr : Nat
  /-- KH, KW, SH, SW, PH, PW, DH, DW -/
  win : List Nat
  reservedBad : Bool
  deriving DecidableEq, Repr

/-- Decode a tensor header; dimensions above the rank act as 1. -/
def tensorOf (n : Nat) : Tensor :=
  let rank := bits n 13 12 + 1
  let dim := fun i v => if i < rank then v else 1
  { version := bits n 7 0, dtype := bits n 11 8, rank := rank, mode := bits n 15 14, scaled := bit n 16
    scaleFp8 := bit n 17, group := 32 * 2 ^ bits n 19 18, reduce := bits n 22 20
    d0 := bits n 47 32, d1 := dim 1 (bits n 63 48), d2 := dim 2 (bits n 79 64), d3 := dim 3 (bits n 95 80)
    s1 := toSigned 32 (bits n 127 96), s2 := toSigned 32 (bits n 159 128), s3 := toSigned 32 (bits n 191 160)
    tileR := bits n 199 192, tileC := bits n 207 200, listCount := bits n 223 208, listAddr := bits n 319 256
    win := (upTo 8).map (fun i => bits n (320 + 8 * i + 7) (320 + 8 * i))
    reservedBad := bits n 31 23 != 0 || bits n 255 224 != 0 || bits n 511 384 != 0 }

/-- Window parameter i. -/
def Tensor.w (t : Tensor) (i : Nat) : Nat := t.win.getD i 0

/-- Bits of an element. -/
def Tensor.ebits (t : Tensor) : Nat :=
  if t.dtype = 2 then 4 else if t.dtype = 3 then 16 else if t.dtype = 6 ∨ t.dtype = 7 then 32 else 8

/-- Bytes of a scale. -/
def Tensor.sbytes (t : Tensor) : Nat := if t.scaleFp8 then 1 else 2

/-- The zero fields that report DESCRIPTOR_ZERO (R169). -/
def Tensor.zeroBad (t : Tensor) : Bool :=
  t.tileR == 0 || t.tileC == 0 ||
    (t.mode == 2 && (t.w 0 == 0 || t.w 1 == 0 || t.w 2 == 0 || t.w 3 == 0 || t.w 6 == 0 || t.w 7 == 0))

/-- A header that breaks Table 6-6 or R173; `store` for a tensor store. -/
def Tensor.invalid (t : Tensor) (store : Bool) : Bool :=
  t.version != 1 || t.dtype == 0 || decide (7 < t.dtype) || t.mode == 3 || t.reservedBad
    || (t.scaled && !([1, 2, 4, 5].contains t.dtype))
    || decide (4 < t.reduce)
    || (1 ≤ t.reduce && t.reduce ≤ 3 && t.dtype != 6) || (t.reduce == 4 && t.dtype != 7)
    || decide (128 < t.tileR) || decide (128 < t.tileC)
    || (t.scaled && (t.d0 % t.group != 0 || t.tileC % t.group != 0))
    || (t.dtype == 2 && (t.d0 % 2 == 1 || t.tileC % 2 == 1))
    || t.listAddr % 8 != 0
    || (t.mode == 2 && (t.rank != 4 || t.scaled || t.dtype == 6 || t.dtype == 7 || store))

/-- Output size of a window dimension (R173). -/
def winOut (size pad dil k stride : Nat) : Nat :=
  if size + 2 * pad < dil * (k - 1) + 1 then 0 else (size + 2 * pad - dil * (k - 1) - 1) / stride + 1

/-- OH and OW. -/
def Tensor.oh (t : Tensor) : Nat := winOut t.d2 (t.w 4) (t.w 6) (t.w 0) (t.w 2)
def Tensor.ow (t : Tensor) : Nat := winOut t.d1 (t.w 5) (t.w 7) (t.w 1) (t.w 3)

/-- Columns and rows of the two-dimensional view tiles are cut from. -/
def Tensor.cols (t : Tensor) : Nat := if t.mode = 2 then t.w 0 * t.w 1 * t.d0 else t.d0
def Tensor.rows (t : Tensor) : Nat := if t.mode = 2 then t.d3 * t.oh * t.ow else t.d1
/-- Tile counts (R170). -/
def Tensor.tcMax (t : Tensor) : Nat := ceilDiv t.cols t.tileC
def Tensor.trMax (t : Tensor) : Nat := ceilDiv t.rows t.tileR

/-- Byte length of a tile's elements, scales and padded block. -/
def Tensor.valBytes (t : Tensor) : Nat := t.tileR * t.tileC * t.ebits / 8
def Tensor.scaleBytes (t : Tensor) : Nat := if t.scaled then t.tileR * (t.tileC / t.group) * t.sbytes else 0
def Tensor.blockBytes (t : Tensor) : Nat := ceilDiv (t.valBytes + t.scaleBytes) 128 * 128

/-- Position of a tile: tile column, tile row, d2 and d3; none for a null entry. -/
structure TilePos where
  tc : Nat := 0
  tr : Nat := 0
  i2 : Nat := 0
  i3 : Nat := 0
  deriving DecidableEq, Repr

/-- Row-major position of tile index i (R170). -/
def Tensor.posOf (t : Tensor) (i : Nat) : TilePos :=
  let per := t.tcMax * t.trMax
  if t.mode = 2 then { tc := i % t.tcMax, tr := i / t.tcMax }
  else { tc := i % t.tcMax, tr := i / t.tcMax % t.trMax, i2 := i / per % t.d2, i3 := i / per / t.d2 }

/-- Byte offset of innermost index d0 with interleaved scales (R171), in bits. -/
def Tensor.d0Bits (t : Tensor) (d0 : Nat) : Nat :=
  if t.scaled then
    d0 / t.group * (t.group * t.ebits + 8 * t.sbytes) + d0 % t.group * t.ebits
  else d0 * t.ebits

/-- Bit offset in the data of element (r, c) of a tile; none outside the tensor or the input. -/
def Tensor.elemBit (t : Tensor) (q : TilePos) (r c : Nat) : Option Int :=
  let row := q.tr * t.tileR + r
  let col := q.tc * t.tileC + c
  if t.mode = 2 then
    if t.rows ≤ row ∨ t.cols ≤ col then none
    else
      let ch := col % t.d0
      let kx := col / t.d0 % t.w 1
      let ky := col / t.d0 / t.w 1
      let ox := row % t.ow
      let oy := row / t.ow % t.oh
      let n := row / t.ow / t.oh
      let iy : Int := (oy * t.w 2 + ky * t.w 6 : Nat) - (t.w 4 : Int)
      let ix : Int := (ox * t.w 3 + kx * t.w 7 : Nat) - (t.w 5 : Int)
      if iy < 0 ∨ ix < 0 ∨ (t.d2 : Int) ≤ iy ∨ (t.d1 : Int) ≤ ix then none
      else some ((t.d0Bits ch : Int) + 8 * (ix * t.s1 + iy * t.s2 + n * t.s3))
  else if t.d0 ≤ col ∨ t.d1 ≤ row ∨ t.d2 ≤ q.i2 ∨ t.d3 ≤ q.i3 then none
  else some ((t.d0Bits col : Int) + 8 * (row * t.s1 + q.i2 * t.s2 + q.i3 * t.s3))

/-- Byte offset of the scale of group g of tile row r; none outside the tensor. -/
def Tensor.scaleAt (t : Tensor) (q : TilePos) (r g : Nat) : Option Int :=
  let row := q.tr * t.tileR + r
  let gg := q.tc * (t.tileC / t.group) + g
  if t.d0 ≤ gg * t.group ∨ t.d1 ≤ row ∨ t.d2 ≤ q.i2 ∨ t.d3 ≤ q.i3 then none
  else
    let rec_ := t.group * t.ebits / 8 + t.sbytes
    some ((gg * rec_ + t.group * t.ebits / 8 : Nat) + row * t.s1 + q.i2 * t.s2 + q.i3 * t.s3)

/-- What a chunk moves: a field of w bits from bit `mem` of device memory, and where it stands in the chunk's rows with its
width there. A wide-64 residue takes 64 bits in memory and 36 in the rows. -/
structure Piece where
  mem : Int := 0
  mw : Nat := 0
  spad : Nat := 0
  sw : Nat := 0
  deriving DecidableEq, Repr

/-- w bits of a byte memory from a bit. -/
def memBits (m : Mem) (i w : Nat) : Nat := (memLE m (i / 8) ((i % 8 + w + 7) / 8) >>> (i % 8)) % 2 ^ w

/-- A piece as memory holds it. -/
def Piece.fromMem (p : Piece) (m : Mem) : Nat := memBits m p.mem.toNat p.mw

/-- A number with fields at their bits. -/
def placeBits (l : List (Nat × Nat)) : Nat := l.foldl (fun acc e => acc ||| e.2 <<< e.1) 0

/-- The n bytes of rows whose pieces hold the given values; bits of no piece are zero. -/
def pieceBytes (n : Nat) (l : List Piece) (v : List Nat) : List Byte :=
  toBytes n (placeBits (List.zipWith (fun p x => (p.spad, x % 2 ^ p.sw)) l v))

/-- The 128-byte lines a piece touches, by address. -/
def Piece.lines (p : Piece) : List Nat :=
  let a := p.mem.toNat
  if p.mw = 0 then [] else (upTo ((a + p.mw - 1) / 1024 - a / 1024 + 1)).map (fun i => (a / 1024 + i) * 128)

/-- The lines some pieces touch, each once, by rising address. -/
def pieceLines (l : List Piece) : List Nat :=
  (l.foldl (fun m p => p.lines.foldl (fun x a => smSet false x a true) m) []).map (fun e => e.1)

/-- Put a field of w bits at a bit of memory into the masks and values of the lines it lies in. -/
def putField (m : SMap (Nat × Nat)) (p : Piece) (v : Nat) : SMap (Nat × Nat) :=
  let a := p.mem.toNat
  p.lines.foldl (fun x line =>
    let lo := max a (8 * line)
    let hi := min (a + p.mw) (8 * line + 1024)
    let mask := (2 ^ (hi - lo) - 1) <<< (lo - 8 * line)
    let bits_ := ((v >>> (lo - a)) % 2 ^ (hi - lo)) <<< (lo - 8 * line)
    let old := smGet (0, 0) x line
    smSet (0, 0) x line (old.1 ||| mask, (old.2 &&& (2 ^ 1024 - 1 ^^^ mask)) ||| bits_)) m

/-- The pieces of the tile at a position of a tensor whose data begins at byte `base`: its elements in row-major order, then
its scales (R170, R171). None for a null entry; pieces outside the tensor are left out. -/
def Tensor.pieces (t : Tensor) (base : Int) (q : Option TilePos) : List Piece :=
  match q with
  | none => []
  | some q =>
    let per := t.tileC / t.group
    (upTo (t.tileR * t.tileC)).filterMap (fun i =>
      (t.elemBit q (i / t.tileC) (i % t.tileC)).map (fun o =>
        { mem := 8 * base + o, mw := t.ebits, spad := i * t.ebits, sw := t.ebits }))
    ++ (if t.scaled then
        (upTo (t.tileR * per)).filterMap (fun i =>
          (t.scaleAt q (i / per) (i % per)).map (fun o =>
            { mem := 8 * (base + o), mw := 8 * t.sbytes, spad := 8 * (t.valBytes + i * t.sbytes), sw := 8 * t.sbytes }))
      else [])

/-- The tile block of a tile at a position; a null position gives zeros (R170, R172). -/
def Tensor.loadBlock (t : Tensor) (m : Mem) (base : Int) (q : Option TilePos) : List Byte :=
  let l := t.pieces base q
  pieceBytes t.blockBytes l (l.map (fun p => p.fromMem m))

/-- Pack w-bit values into bytes. -/
def packElems (w : Nat) (l : List Nat) : List Byte :=
  if w = 4 then
    (upTo (ceilDiv l.length 2)).map (fun i => BitVec.ofNat 8 (l.getD (2 * i) 0 % 16 + 16 * (l.getD (2 * i + 1) 0 % 16)))
  else (l.map (fun v => toBytes (w / 8) v)).flatten

/-- Combine an old and a new element under a tensor's REDUCE (R163, R171). -/
def tensorCombine (reduce old new : Nat) : Nat :=
  if reduce = 1 then (old + new) % 2 ^ 32
  else if reduce = 2 then (if toSigned 32 new < toSigned 32 old then new else old)
  else if reduce = 3 then (if toSigned 32 old < toSigned 32 new then new else old)
  else if reduce = 4 then toF32 (fAdd (f32 old) (f32 new))
  else new

/-- Combine two tile blocks of 32-bit elements under REDUCE, element by element, an element outside the tensor and a null entry's
tile as zeros (R163, R170, R172). -/
def combineBlocks (reduce : Nat) (old new : List Byte) : List Byte :=
  ((upTo (new.length / 4)).map (fun i => toBytes 4 (tensorCombine reduce (leAt old (4 * i) 4) (leAt new (4 * i) 4)))).flatten

/-- The fields a store writes, piece by piece in ascending logical index: a later one replaces an earlier at the same place, or
under REDUCE combines with what the run has written there (R163, R171). `seen` holds those values + 1. -/
def storeFields (reduce : Nat) (seen : SMap Nat) (l : List Piece) (v : List Nat) : SMap Nat × SMap (Nat × Nat) :=
  (List.zip l v).foldl (fun acc e =>
    let a := e.1.mem.toNat
    let old := smGet 0 acc.1 a
    let w := if reduce ≠ 0 ∧ old ≠ 0 then tensorCombine reduce (old - 1) e.2 else e.2
    (if reduce ≠ 0 then smSet 0 acc.1 a (w + 1) else acc.1, putField acc.2 e.1 w)) (seen, [])

end Sys2Proof.Machine
end

