-- ==== Sys2Proof/Machine/Streams.lean ====
section
/-! DEFINITION. Stream engines: slots, runs, blocks, lines, aborts, key streaming with the Badger units
(R152 to R177, R229 to R233; assumption log 13). A block is a list of transfers, each a list of memory lines that land or are
acknowledged in order. -/

namespace Sys2Proof.Machine

/-- Slot i of tile t. -/
def State.slot (s : State) (t i : Nat) : Slot := smGet {} (s.tile t).slots i
/-- Change slot i of tile t. -/
def State.modSlot (s : State) (t i : Nat) (f : Slot → Slot) : State :=
  s.modTile t (fun x => { x with slots := smMod {} x.slots i f })
/-- The slot's run; an empty one where none is in progress. -/
def State.run (s : State) (t i : Nat) : StreamRun := (s.slot t i).run.getD {}
/-- Change a slot's run. -/
def State.modRun (s : State) (t i : Nat) (f : StreamRun → StreamRun) : State :=
  s.modSlot t i (fun x => { x with run := x.run.map f })

/-- Bits of a descriptor (Table 6-2). -/
def sd (d : BitVec 512) (hi lo : Nat) : Nat := bits d.toNat hi lo
/-- OP. -/
def sdOp (d : BitVec 512) : Nat := sd d 3 0
/-- Loads: byte, limb, key, tensor. -/
def sdIsLoad (d : BitVec 512) : Bool := [0, 2, 4, 5].contains (sdOp d)
/-- Limb-shaped operations. -/
def sdIsLimb (d : BitVec 512) : Bool := [2, 3, 4].contains (sdOp d)
/-- Tensor operations. -/
def sdIsTensor (d : BitVec 512) : Bool := sdOp d == 5 || sdOp d == 6
/-- log N. -/
def sdLogN (d : BitVec 512) : Nat := sd d 10 8 + 12
/-- REDUCE. -/
def sdReduce (d : BitVec 512) : Nat := sd d 13 11
/-- CT. -/
def sdCt (d : BitVec 512) : Bool := sd d 14 14 == 1
/-- BLOCKS. -/
def sdBlocks (d : BitVec 512) : Nat := sd d 47 32

/-- R155: why a descriptor cannot be armed. -/
def armBad (d : BitVec 512) : Bool :=
  let op := sdOp d
  let limb := sdIsLimb d
  let lim2 := op == 2 || op == 3
  decide (6 < op)
    || sd d 15 15 != 0 || sd d 31 29 != 0 || sd d 63 60 != 0 || sd d 71 71 != 0 || sd d 127 88 != 0 || sd d 511 320 != 0
    || decide (5 < sd d 10 8) || decide (4 < sdReduce d)
    || sd d 255 192 % 32 != 0 || sd d 319 256 % 2048 != 0
    || (sd d 28 28 == 0 && sdBlocks d == 0)
    || (sd d 5 5 == 1 && op != 2 && op != 4)
    || (!limb && (sd d 6 6 != 0 || sd d 7 7 != 0 || sd d 10 8 != 0 || sd d 59 56 != 0 || sd d 70 64 != 0))
    || (sdReduce d == 1 && !lim2) || (decide (2 ≤ sdReduce d) && op != 0 && op != 1)
    || (sdCt d && !lim2) || (sd d 27 24 != 0 && op != 4)
    || (!sdCt d && sd d 79 72 != 0) || (!sdCt d && op != 4 && sd d 319 256 != 0)

/-! ### Block-list entries (Table 6-3) -/

/-- Bits of a block-list entry. -/
def be (b : BitVec 256) (hi lo : Nat) : Nat := bits b.toNat hi lo
/-- CHUNKS. -/
def beChunks (b : BitVec 256) : Nat := be b 111 96
/-- MEM_STRIDE. -/
def beMemStride (b : BitVec 256) : Int := toSigned 32 (be b 159 128)
/-- SPAD_STRIDE. -/
def beSpadStride (b : BitVec 256) : Int := toSigned 16 (be b 127 112)
/-- First memory byte of chunk k (R161). -/
def beMem (d : BitVec 512) (r : StreamRun) (b : BitVec 256) (k : Nat) : Int :=
  (sd d 191 128 : Int) + r.base + toSigned 48 (be b 47 0) + k * beMemStride b
/-- First scratchpad row of chunk k. -/
def beRow (r : StreamRun) (b : BitVec 256) (k : Nat) : Int := (be b 63 48 : Int) + r.rowBase + k * beSpadStride b
/-- First regenerated row of chunk k. -/
def beRow2 (r : StreamRun) (b : BitVec 256) (k : Nat) : Int := (be b 175 160 : Int) + r.rowBase + k * beSpadStride b

/-- The entry at an index of a run's list. -/
def State.entryAt (s : State) (d : BitVec 512) (i : Nat) : BitVec 256 :=
  BitVec.ofNat 256 (s.loadLE (sd d 255 192 + 32 * i) 32)

/-- Slot tiles G and slot tile of a tile for limbs of 2^n (R83). -/
def State.share (s : State) (t n : Nat) : Nat × Nat :=
  match s.tilePart t with
  | some p =>
    let g := slotTiles (s.part p).tiles n
    (g, (t - p * (s.part p).tiles) % g)
  | none => (1, 0)

/-- Bytes a chunk takes in a tile's rows: the share of a limb, a tile block, or LENGTH. -/
def State.chunkBytes (s : State) (t : Nat) (d : BitVec 512) (r : StreamRun) (b : BitVec 256) : Nat :=
  if sdIsLimb d then 2 ^ sdLogN d / (s.share t (sdLogN d)).1 * 9 / 2
  else if sdIsTensor d then (tensorOf r.tensor.toNat).blockBytes
  else be b 95 64

/-- Rows a chunk takes. -/
def State.chunkRows (s : State) (t : Nat) (d : BitVec 512) (r : StreamRun) (b : BitVec 256) : Nat :=
  ceilDiv (s.chunkBytes t d r b) 128

/-- Bytes of a chunk in memory; 0 for tensors, whose pieces are checked one by one. -/
def chunkMem (d : BitVec 512) (b : BitVec 256) : Nat :=
  if sdIsLimb d then limbBytes (sdLogN d) (sd d 7 7 == 1) else if sdIsTensor d then 0 else be b 95 64

/-- The elements of a slot tile's share of a limb at byte a (R83, R166): packed-36 residues stand every 36 bits. -/
def limbPieces (block wide : Bool) (g n tau : Nat) (a : Int) : List Piece :=
  let u := if wide then 64 else 36
  (upTo (2 ^ n / g)).map (fun j => { mem := 8 * a + (u * elemAt block g n tau j : Nat), mw := u, spad := 36 * j, sw := 36 })

/-- Bytes at a byte address: one piece, or 32-bit words for a reduction (R163). -/
def bytePieces (a : Int) (n : Nat) (words : Bool) : List Piece :=
  if words then (upTo (ceilDiv n 4)).map (fun i =>
    let w := min 32 (8 * n - 32 * i)
    { mem := 8 * a + (32 * i : Nat), mw := w, spad := 32 * i, sw := w })
  else if n = 0 then [] else [{ mem := 8 * a, mw := 8 * n, spad := 0, sw := 8 * n }]

/-- Prime of chunk k: entry PRIME_E0 + PRIME_OFF + k; for a ciphertext load, the entry its header's counts give the
limb at the chunk's body offset (R166, R431). 0 beyond the set. -/
def State.chunkPrime (s : State) (t : Nat) (d : BitVec 512) (b : BitVec 256) (k : Nat) : Nat :=
  let x := s.pset (sd d 59 56)
  if sdCt d then
    let h := smGet {} (s.pseq ((s.tilePart t).getD 0)).hdrs (sd d 79 72)
    let i := ((toSigned 48 (be b 47 0) + k * beMemStride b) / (limbBytes (sdLogN d) (sd d 7 7 == 1) : Nat)).toNat
    let per := h.limbs + h.specials
    let c := if h.order then i / max 1 h.comps else i % max 1 per
    x.q (x.limbEntry h.limbs c)
  else x.q (sd d 70 64 + be b 198 192 + k)

/-- Tile position of tile index i: from the coordinate list where the tensor has one. -/
def tilePos (tn : Tensor) (r : StreamRun) (i : Nat) : Option TilePos :=
  if tn.mode = 1 then
    let v := smGet 0 r.coords i
    if v % 2 ^ 16 = 0xFFFF then none
    else some { tc := bits v 15 0, tr := bits v 31 16, i2 := bits v 47 32, i3 := bits v 63 48 }
  else some (tn.posOf i)

/-- The code of a coordinate-list entry that cannot be used (R172); 0 where it can. -/
def coordCode (d : BitVec 512) (r : StreamRun) (i : Nat) : Nat :=
  let v := smGet 0 r.coords i
  if sdIsTensor d ∧ (tensorOf r.tensor.toNat).mode = 1 ∧ 2 ^ 65 ≤ v then v - 2 ^ 65 else 0

/-- First byte of a tensor's data (R169). -/
def tensorData (d : BitVec 512) (r : StreamRun) : Int := (sd d 191 128 : Int) + r.base + 2048

/-- The pieces of chunk k that a tile moves. -/
def State.chunkPieces (s : State) (t : Nat) (d : BitVec 512) (r : StreamRun) (b : BitVec 256) (k : Nat) : List Piece :=
  if sdIsLimb d then
    let g := s.share t (sdLogN d)
    limbPieces (sd d 6 6 == 1) (sd d 7 7 == 1) g.1 (sdLogN d) g.2 (beMem d r b k)
  else if sdIsTensor d then
    let tn := tensorOf r.tensor.toNat
    tn.pieces (tensorData d r) (tilePos tn r (be b 47 0 + k))
  else bytePieces (beMem d r b k) (be b 95 64) (decide (2 ≤ sdReduce d))

/-- The run's descriptor or tensor declares a reduction (R163, R171). -/
def runReduces (d : BitVec 512) (r : StreamRun) : Bool :=
  sdReduce d != 0 || (sdIsTensor d && (tensorOf r.tensor.toNat).reduce != 0)

/-- All chunks of a block share one memory range: a broadcast load fetches it once, a reducing store writes it once (R162,
R163). Tensor operations do not use MEM_STRIDE. -/
def oneTransfer (d : BitVec 512) (b : BitVec 256) : Bool :=
  !sdIsTensor d && beMemStride b == 0 && decide (1 < beChunks b) && (sdIsLoad d || sdReduce d != 0)

/-- All chunks of a load's block share one destination and are combined (R163). -/
def sharedRows (d : BitVec 512) (r : StreamRun) (b : BitVec 256) : Bool :=
  sdIsLoad d && runReduces d r && beSpadStride b == 0 && decide (1 < beChunks b)

/-- Transfers of a block; none for LENGTH 0 in a byte operation (R157). -/
def transferCount (d : BitVec 512) (b : BitVec 256) : Nat :=
  if ¬ sdIsLimb d ∧ ¬ sdIsTensor d ∧ be b 95 64 = 0 then 0 else if oneTransfer d b then 1 else beChunks b

/-- The chunks of transfer k. -/
def chunksOf (d : BitVec 512) (b : BitVec 256) (k : Nat) : List Nat := if oneTransfer d b then upTo (beChunks b) else [k]

/-- Combine a chunk's values with those of the chunks before it (R163); `q` is the chunk's prime. An unchecked chunk whose entry
lies beyond the set has no prime to add under: the sum cut to 36 bits is the model's choice (R40; assumption log 13). -/
def combine (d : BitVec 512) (r : StreamRun) (q : Nat) (old new : List Nat) : List Nat :=
  if sdReduce d = 1 then List.zipWith (fun x y => addM q (fold x q) (fold (y % 2 ^ 36) q)) old new
  else List.zipWith (fun x y =>
    tensorCombine (if sdIsTensor d then (tensorOf r.tensor.toNat).reduce else sdReduce d - 1) x y) old new

/-- The combined values of chunks 0 to n − 1 whose values are given, in ascending chunk order. -/
def State.combined (s : State) (t : Nat) (d : BitVec 512) (r : StreamRun) (b : BitVec 256) (v : Nat → List Nat) : List Nat :=
  let first := if sdReduce d = 1 then (v 0).map (fun x => fold (x % 2 ^ 36) (s.chunkPrime t d b 0)) else v 0
  (upTo (beChunks b - 1)).foldl (fun acc i => combine d r (s.chunkPrime t d b (i + 1)) acc (v (i + 1))) first

/-- The values memory holds for chunk k, piece by piece. -/
def State.memVals (s : State) (t : Nat) (d : BitVec 512) (r : StreamRun) (b : BitVec 256) (k : Nat) : List Nat :=
  (s.chunkPieces t d r b k).map (fun p => p.fromMem s.mem)

/-- The values a tile's rows hold for chunk k. -/
def State.rowVals (s : State) (t : Nat) (d : BitVec 512) (r : StreamRun) (b : BitVec 256) (k : Nat) : List Nat :=
  (s.chunkPieces t d r b k).map (fun p => memBits (s.tile t).spad (1024 * (beRow r b k).toNat + p.spad) p.sw)

/-! ### The end of a run -/

/-- Record the end of a run its control word kicked (R430). -/
def State.kickEnded (s : State) (t i : Nat) (r : StreamRun) (code : Nat) : State :=
  match r.kickSeq with
  | none => s
  | some q => s.modSeq q (fun x => { x with kern := x.kern.map (fun k =>
      { k with kicks := k.kicks.map (fun e =>
          if e.tile = t ∧ e.slot = i ∧ ¬ e.ended then { e with ended := true, code := code } else e) }) })

/-- Return the contexts of a run. -/
def State.freeContexts (s : State) (t i : Nat) : State :=
  let n := (s.run t i).contexts
  ((s.modRun t i (fun r => { r with contexts := 0 })).modTile t (fun x => { x with ctxUsed := x.ctxUsed - n })).tileLedger t
    (fun l => l.ctxGive n)

/-- Fail the outstanding writes of a store run. -/
def State.failWrites (s : State) (t i : Nat) : State :=
  if sdIsLoad (s.slot t i).desc then s
  else s.tileLedger t (fun l => (upTo (s.run t i).contexts).foldl (fun x _ => x.wrEnd false) l)

/-- The slot after its run: ARMED when persistent, FREE otherwise (R152). -/
def slotIdle (x : Slot) : Slot := { x with state := if sd x.desc 4 4 = 1 then 1 else 0, run := none }

/-- A block is complete: every transfer done, regenerated half included (R157, R168). -/
def blockDone (d : BitVec 512) (r : StreamRun) (b : Block) : Bool :=
  b.started && b.next == b.transfers && (sdOp d != 4 || !r.keyHdr.seeded || b.chain == 3 || b.transfers == 0)

/-- The first block of a run that is not complete: the only one whose lines land. -/
def openBlock (d : BitVec 512) (r : StreamRun) : Option Nat := r.blocks.findIdx? (fun b => !blockDone d r b)

/-- What a stream engine's own read of a header or list meets (R3, R161, R204): STREAM_RANGE outside the partition's stacks,
a memory code, or 0. -/
def State.fetchCode (s : State) (t a n : Nat) : Nat :=
  if s.inStacks ((s.tilePart t).getD 0) a n then s.rangeCode a n else cStreamRange

/-- The list entry of block j of a tile's run: as the run has read it, else as the list holds it; none where the list cannot be
read. -/
def State.listEntry (s : State) (t : Nat) (d : BitVec 512) (r : StreamRun) (j : Nat) : Option (BitVec 256) :=
  match r.blocks[j]? with
  | some b => some b.entry
  | none => if s.fetchCode t (sd d 255 192 + 32 * j) 32 = 0 then some (s.entryAt d j) else none

/-- A run with the tensor or key header it would work by, where it ends before it has read it. -/
def State.headerSeen (s : State) (t : Nat) (d : BitVec 512) (r : StreamRun) : StreamRun :=
  if sdIsTensor d ∧ ¬ r.headerDone then
    let a := sd d 191 128 + r.base
    let v := s.loadLE a 64
    if s.fetchCode t a 64 = 0 ∧ ¬ (tensorOf v).zeroBad ∧ ¬ (tensorOf v).invalid false then { r with tensor := BitVec.ofNat 512 v } else r
  else if sdOp d = 4 ∧ ¬ r.keyChecked then
    let a := sd d 319 256
    if s.fetchCode t a 64 = 0 then { r with keyHdr := keyHeaderOf (s.loadLE a 64) } else r
  else r

/-- Blocks of a run whose token has not left, by index. -/
def StreamRun.rest (r : StreamRun) (d : BitVec 512) : List Nat := (upTo (sdBlocks d - r.completed)).map (· + r.completed)

/-- Blocks of a run that are not complete (R157), by index. -/
def StreamRun.undone (r : StreamRun) (d : BitVec 512) : List Nat :=
  (r.rest d).filter (fun j => !(r.blocks[j]?.map (blockDone d r)).getD false)

/-- VALID = 0 on the rows of a range that exist. -/
def State.dropRange (s : State) (t : Nat) (row : Int) (n : Nat) : State :=
  let lo := (max 0 row).toNat
  let hi := (min 49152 (row + n)).toNat
  s.invalidRows t lo (hi - lo)

/-- VALID = 0 on every row the unfinished blocks of a load would have written (R174, R175). -/
def State.dropRows (s : State) (t i : Nat) : State :=
  let d := (s.slot t i).desc
  let r := s.headerSeen t d (s.run t i)
  if !sdIsLoad d then s
  else s.each ((s.run t i).undone d) (fun j x =>
    match x.listEntry t d r j with
    | none => x
    | some b =>
      let n := x.chunkRows t d r b
      x.each (upTo (beChunks b)) (fun k y =>
        let y := y.dropRange t (beRow r b k) n
        if sdOp d = 4 ∧ r.keyHdr.seeded then y.dropRange t (beRow2 r b k) n else y))

/-- A tile no longer waits for chains of one of its slots; a chain no tile waits for ends and its staging is free (R231). -/
def State.freeStaging (s : State) (t : Nat) (p : Chain → Bool) : State :=
  s.modCache (t / 32) (fun c => { c with
    chains := (c.chains.map (fun x => if p x then { x with users := x.users.filter (· != t) } else x)).filter
      (fun x => x.users != []) })

/-- Queue and tag of the next token a run would emit (R174); none where it emits no more. -/
def State.nextToken (s : State) (t : Nat) (d : BitVec 512) (r : StreamRun) : Option (Nat × Nat) :=
  match (r.rest d).findSome? (fun j => (s.listEntry t d r j).filter (fun b => be b 176 176 == 1)) with
  | some b => some (sd d 19 16, be b 191 184)
  | none => if sd d 28 28 = 1 then some (sd d 19 16, sd d 87 80) else none

/-- The next block in list order, where it is complete, counts as such and its token leaves (R157). -/
def State.completeOne (s : State) (t i : Nat) : State :=
  let x := s.slot t i
  let r := s.run t i
  match r.blocks[r.completed]? with
  | none => s
  | some b =>
    if x.state = 2 ∧ blockDone x.desc r b then
      let s := s.modSlot t i (fun x =>
        { x with blockIndex := x.blockIndex + 1, run := x.run.map (fun r => { r with completed := r.completed + 1 }) })
      if be b.entry 176 176 = 1 then
        s.emitTile t (sd x.desc 19 16) { status := 0, source := 1, tag := be b.entry 191 184 }
      else s
    else s

/-- Every complete block whose token has not left. -/
def State.completeAll (s : State) (t i : Nat) : State :=
  (upTo ((s.run t i).blocks.length - (s.run t i).completed)).foldl (fun x _ => x.completeOne t i) s

/-- The BAR0 block of a tile (Table 12-5). -/
def tileBlock (t : Nat) : Nat := 0x10 + t / 16

/-- The record of a fault that ends a tile's run (R400): of a memory fault, one of some lines; of a bank asleep, the tile's die. -/
def State.tileFault (s : State) (t : Nat) (lines : List Nat) (code : Nat) : State :=
  let p := (s.tilePart t).getD 255
  if code = cBankAsleep then
    s.record code { part := p, block := tileBlock t, loc0 := s.pwr.status, loc1 := tempBits (smGet 0 s.pwr.tempDie (t / 32)) }
  else s.memFault p (tileBlock t) lines code

/-- A fault ends a run (R174): blocks complete before it keep their tokens, the next token carries the code, unfinished rows
become invalid. -/
def State.runFault (s : State) (t i code : Nat) : State :=
  let d := (s.slot t i).desc
  let s := s.completeAll t i
  let r := s.run t i
  let tok := if sdOp d = 4 ∧ ¬ r.keyChecked then some (sd d 27 24, 0xFF) else s.nextToken t d r
  let s := s.dropRows t i
  let s := ((s.freeStaging t (fun c => c.slot == i)).failWrites t i).freeContexts t i
  let s := s.modSlot t i (fun x => { slotIdle x with error := true, errCode := code })
  let s := s.kickEnded t i r code
  match tok with
  | some (q, tag) => s.emitTile t q { status := code, source := 1, tag := tag }
  | none => s

/-! ### Kicks (R156) -/

/-- The first failed check of a kick of one tile's slot: 0 when it may start. -/
def State.kickCode (s : State) (x : Seq) (t i : Nat) : Nat :=
  let sl := s.slot t i
  if sl.state = 0 then cStreamSlotEmpty
  else if sl.state ≠ 1 then cStreamBusy
  else
    let b := sd sl.desc 51 48
    let w := sd sl.desc 55 52
    if (b ≠ 0 ∧ 2 ^ 41 ≤ x.reg b) ∨ (w ≠ 0 ∧ 2 ^ 16 ≤ x.reg w) then cParamRange else 0

/-- Start a fresh run with the bases latched (R156, R160). -/
def State.kick (s : State) (x : Seq) (t i : Nat) (latch : Option KeyLatch) (by_ : Option Nat) : State :=
  s.stir.modSlot t i (fun sl =>
    let b := sd sl.desc 51 48
    let w := sd sl.desc 55 52
    { sl with
      state := 2, blockIndex := 0
      run := some { base := if b = 0 then 0 else x.reg b % 2 ^ 41, rowBase := if w = 0 then 0 else x.reg w % 2 ^ 16
                    latch := latch, kickSeq := by_ } })

/-! ### Aborts (R175) -/

/-- Abort a slot's run; a no-op where it is not ACTIVE. -/
def State.abortSlot (s : State) (t i : Nat) : State :=
  let sl := s.slot t i
  if sl.state ≠ 2 then s
  else
    let d := sl.desc
    let r := s.run t i
    let s := (s.dropRows t i).freeStaging t (fun c => c.slot == i)
    let s := s.modSlot t i (fun x => { x with state := 3, error := true, errCode := cStreamAborted })
    let s := s.kickEnded t i r cStreamAborted
    if sd d 28 28 = 1 then s.emitTile t (sd d 19 16) { status := cStreamAborted, source := 1, tag := sd d 87 80 } else s

/-- An aborting slot leaves ABORTING once every context has returned. -/
def State.abortDrained (s : State) (t i : Nat) : State :=
  if (s.slot t i).state = 3 ∧ (s.run t i).contexts = 0 then s.modSlot t i slotIdle else s

/-! ### Chunk checks and landings -/

/-- The bank of a row. -/
def bankOf (row : Nat) : Nat := row / 2048

/-- A bank of a tile is AWAKE (R373). -/
def State.bankAwake (s : State) (t bank : Nat) : Bool := smGet 0 (s.tile t).banks bank == 0

/-- Rows of a range all lie in AWAKE banks. -/
def State.rowsAwake (s : State) (t row n : Nat) : Bool :=
  n == 0 || ((upTo 24).all (fun b => !(decide (bankOf row ≤ b) && decide (b ≤ bankOf (row + n - 1))) || s.bankAwake t b))

/-- A limb load from a noise range that has no completed request (R201). -/
def State.noiseMissing (s : State) (p : Nat) (a n : Nat) : Bool :=
  s.meetsNoise p a n &&
    !(s.part p).noiseRanges.any (fun x =>
      let b := (s.part p).noiseBase + x.offset
      decide (b ≤ a) && decide (a + n ≤ b + x.bytes))

/-- Chunk k lies outside the partition's stacks or the tile's rows (R161). -/
def State.chunkOutside (s : State) (t : Nat) (d : BitVec 512) (r : StreamRun) (b : BitVec 256) (k : Nat) : Bool :=
  let p := (s.tilePart t).getD 0
  let n := s.chunkRows t d r b
  let a := beMem d r b k
  let row := beRow r b k
  let row2 := beRow2 r b k
  decide (row < 0) || decide (49152 < row + n)
    || (sdOp d == 4 && r.keyHdr.seeded && (decide (row2 < 0) || decide (49152 < row2 + n)))
    || (if sdIsTensor d then (s.chunkPieces t d r b k).any (fun e =>
          decide (e.mem < 0) || !s.inStacks p (e.mem.toNat / 8) (max 1 (e.mw / 8)))
        else decide (a < 0) || !s.inStacks p a.toNat (chunkMem d b))

/-- The checks made before chunk k is accessed (R161, R172, R374, R201, R158, R166): 0 or a code. `asleep`: a bank of its rows was not
AWAKE when its access was accepted. -/
def State.chunkCode (s : State) (t : Nat) (d : BitVec 512) (r : StreamRun) (b : BitVec 256) (asleep : Bool) (k : Nat) : Nat :=
  let p := (s.tilePart t).getD 0
  let n := s.chunkRows t d r b
  let row := (beRow r b k).toNat
  if coordCode d r (be b 47 0 + k) ≠ 0 then coordCode d r (be b 47 0 + k)
  -- a scatter skips a null entry
  else if sdIsTensor d ∧ ¬ sdIsLoad d ∧ (tilePos (tensorOf r.tensor.toNat) r (be b 47 0 + k)).isNone then 0
  else if s.chunkOutside t d r b k then cStreamRange
  else if asleep then cBankAsleep
  else if sdOp d = 2 ∧ s.noiseMissing p (beMem d r b k).toNat (chunkMem d b) then cNoiseUnavailable
  else if ¬ sdIsLoad d ∧ ¬ s.rowsValid t row n then cRowInvalid
  else if sdIsLoad d ∧ sd d 5 5 = 1 ∧ s.chunkPrime t d b k = 0 then cNoncanonicalInput
  else 0

/-- The checks before a transfer's first access. -/
def State.transferCode (s : State) (t : Nat) (d : BitVec 512) (r : StreamRun) (b : BitVec 256) (asleep : Bool) (k : Nat) : Nat :=
  ((chunksOf d b k).map (s.chunkCode t d r b asleep)).find? (· != 0) |>.getD 0

/-- A bank of a transfer's rows is not AWAKE. -/
def State.transferAsleep (s : State) (t : Nat) (d : BitVec 512) (r : StreamRun) (b : BitVec 256) (k : Nat) : Bool :=
  (chunksOf d b k).any (fun c => !s.rowsAwake t (beRow r b c).toNat (s.chunkRows t d r b))

/-- The lines of transfer k; none where it accesses nothing or its checks end the run. -/
def State.transferLines (s : State) (t : Nat) (d : BitVec 512) (r : StreamRun) (b : BitVec 256) (k : Nat) : List Nat :=
  if (chunksOf d b k).any (fun c => s.chunkOutside t d r b c || coordCode d r (be b 47 0 + c) != 0) then []
  else pieceLines (s.chunkPieces t d r b k)

/-- The transfers of a block with their first line and their lines. -/
def State.spans (s : State) (t : Nat) (d : BitVec 512) (r : StreamRun) (b : BitVec 256) : List (Nat × Nat × Nat) :=
  ((upTo (transferCount d b)).foldl (fun (z : List (Nat × Nat × Nat) × Nat) k =>
    let n := (s.transferLines t d r b k).length
    (z.1 ++ [(k, z.2, n)], z.2 + n)) ([], 0)).1

/-- Lines of all transfers of a block. -/
def State.blockLines (s : State) (t : Nat) (d : BitVec 512) (r : StreamRun) (b : BitVec 256) : Nat :=
  ((upTo (transferCount d b)).map (fun k => (s.transferLines t d r b k).length)).sum

/-- Contexts an engine may still take (R159). -/
def State.ctxAvail (s : State) (t e : Nat) : Nat :=
  let used := fun e' => ((upTo 6).map (fun j => (s.run t (6 * e' + j)).contexts)).sum
  let shared := ((upTo 4).map (fun e' => used e' - 32)).sum
  (32 - used e) + (896 - shared)

/-- Take n contexts for a run; stores issue as many writes. -/
def State.takeContexts (s : State) (t i n : Nat) : State :=
  let store := !sdIsLoad (s.slot t i).desc
  let s := s.modTile t (fun x => { x with ctxUsed := x.ctxUsed + n, ctxHigh := max x.ctxHigh (x.ctxUsed + n) })
  let s := s.tileLedger t (fun l => if store then (l.ctxTake n).wrIssue n else l.ctxTake n)
  s.modRun t i (fun r => { r with contexts := r.contexts + n })

/-- Return one context. -/
def State.giveContext (s : State) (t i : Nat) : State :=
  let s := s.modTile t (fun x => { x with ctxUsed := x.ctxUsed - 1 })
  let s := s.tileLedger t (fun l => l.ctxGive 1)
  s.modRun t i (fun r => { r with contexts := r.contexts - 1 })

/-- Change block j of a run. -/
def State.modBlock (s : State) (t i j : Nat) (f : Block → Block) : State :=
  s.modRun t i (fun r => { r with blocks := r.blocks.modify j f })

/-- The block whose line lands or is acknowledged next: the first with lines requested. -/
def flightBlock (r : StreamRun) : Option Nat := r.blocks.findIdx? (fun b => decide (b.landed < b.requested))

/-- Lines of block j from line n on have been accepted: the first transfer they begin whose rows lie in a bank that has left AWAKE is
noted (R374). -/
def State.markAsleep (s : State) (t i j n : Nat) : State :=
  let d := (s.slot t i).desc
  let r := s.run t i
  let blk := r.blocks.getD j {}
  if (s.tile t).banks.all (fun e => e.2 == 0) ∨ blk.asleep ≠ 0 then s
  else
    let l := (s.spans t d r blk.entry).filter (fun x => decide (n ≤ x.2.1) && decide (x.2.1 < blk.requested) && x.2.2 != 0)
    match l.find? (fun x => s.transferAsleep t d r blk.entry x.1) with
    | some x => s.modBlock t i j (fun b => { b with asleep := x.1 + 1 })
    | none => s

/-- After a line: release its context, or pass it on to the block's next line. -/
def State.lineDone (s : State) (t i j : Nat) : State :=
  let s := (s.giveContext t i).modBlock t i j (fun b => { b with landed := b.landed + 1, line := b.line + 1 })
  match (s.run t i).blocks[j]? with
  | some b => if b.requested < b.total ∧ (s.slot t i).state = 2
      then ((s.takeContexts t i 1).modBlock t i j (fun b => { b with requested := b.requested + 1 })).markAsleep t i j b.requested
      else s
  | none => s

/-- Write chunk k's rows with the values of its pieces (R158). -/
def State.putChunk (s : State) (t : Nat) (d : BitVec 512) (r : StreamRun) (b : BitVec 256) (k : Nat) (v : List Nat) : State :=
  s.writeRows t (beRow r b k).toNat (pieceBytes (s.chunkBytes t d r b) (s.chunkPieces t d r b k) v) 0

/-- The tile block a reducing tensor load writes: its chunks' blocks combined in ascending order (R163, R170, R172). -/
def State.combinedTiles (s : State) (d : BitVec 512) (r : StreamRun) (b : BitVec 256) : List Byte :=
  let tn := tensorOf r.tensor.toNat
  let block := fun (k : Nat) => tn.loadBlock s.mem (tensorData d r) (tilePos tn r (be b 47 0 + k))
  (upTo (beChunks b - 1)).foldl (fun acc i => combineBlocks tn.reduce acc (block (i + 1))) (block 0)

/-- The last line of a transfer is in: a load checks its residues (R166) and writes its rows, chunks of one destination
combined with the last of them (R163); a store has written its lines. -/
def State.endTransfer (s : State) (t i j : Nat) : State :=
  let d := (s.slot t i).desc
  let r := s.run t i
  let blk := r.blocks.getD j {}
  let b := blk.entry
  let l := chunksOf d b blk.next
  let s' := s.modBlock t i j (fun x => { x with next := x.next + 1, line := 0 })
  if ¬ sdIsLoad d then s'
  else if sd d 5 5 = 1 ∧ l.any (fun k => canonBad (s.chunkPrime t d b k) (s.memVals t d r b k)) = true then
    s.runFault t i cNoncanonicalInput
  else if sharedRows d r b then
    if blk.next + 1 ≠ blk.transfers then s'
    else if sdIsTensor d then s'.writeRows t (beRow r b 0).toNat (s.combinedTiles d r b) 0
    else s'.putChunk t d r b 0 (s.combined t d r b (s.memVals t d r b))
  else s'.each l (fun k x => x.putChunk t d r b k (s.memVals t d r b k))

/-- The fields a store's transfer writes (R163, R166, R171). -/
def State.transferFields (s : State) (t : Nat) (d : BitVec 512) (r : StreamRun) (b : BitVec 256) (k : Nat) :
    SMap Nat × SMap (Nat × Nat) :=
  let v := if oneTransfer d b then s.combined t d r b (s.rowVals t d r b) else s.rowVals t d r b k
  storeFields (if sdIsTensor d then (tensorOf r.tensor.toNat).reduce else 0) r.seen (s.chunkPieces t d r b k) v

/-- Attempts of R60: each 5 bytes masked to the prime's bits. -/
def attempts : Nat → Nat → List Byte → List Nat
  | 0, _, _ => []
  | n + 1, mask, l => ofBytes (l.take 5) % mask :: attempts n mask (l.drop 5)

/-- The first `need` elements of the uniform limb of digit dg and entry j, from at most 3·N attempts; none where they yield too
few (R60, R229, R232). -/
def expandUniform (k : KeyHeader) (dg j n q need : Nat) : Option (List Nat) :=
  let msg := k.seed ++ ascii [0x4B, 0x5A, 0x45, 0x56] ++ toBytes 4 k.keyIndex ++ toBytes 1 dg ++ toBytes 1 j ++ toBytes 1 n
  let l := (attempts (3 * 2 ^ n) (2 ^ (q.log2 + 1)) (shake128 msg (15 * 2 ^ n))).filter (fun v => decide (v < q))
  if l.length < need then none else some (l.take need)

/-- Elements a die runs a chain for (R229): all N in cyclic distribution, else up to the last element its tiles hold. -/
def State.dieNeed (s : State) (t : Nat) (d : BitVec 512) : Nat :=
  let n := sdLogN d
  if sd d 6 6 = 1 ∧ 32 < (s.share t n).1 ∧ t < 32 then 2 ^ n / 2 else 2 ^ n

/-- Bytes of staging one limb's share takes on a tile's die (R231). -/
def State.dieShare (s : State) (t n : Nat) : Nat := (if 32 < (s.share t n).1 then 2 ^ n / 2 else 2 ^ n) * 9 / 2

/-- The limb k of a block that a chain produces on a tile's die. -/
def State.chainLimb (s : State) (t : Nat) (d : BitVec 512) (r : StreamRun) (b : BitVec 256) (k : Nat) : Option (List Nat) :=
  expandUniform r.keyHdr (be b 207 200) (sd d 70 64 + be b 198 192 + k) (sdLogN d) (s.chunkPrime t d b k) (s.dieNeed t d)

/-- The limbs a block's chains produce on a tile's die. -/
def State.chainLimbs (s : State) (t : Nat) (d : BitVec 512) (r : StreamRun) (b : BitVec 256) : List (Option (List Nat)) :=
  (upTo (beChunks b)).map (s.chainLimb t d r b)

/-- A chunk above k of a block has stored rows that hold row x: it keeps them (R164). -/
def rowTaken (r : StreamRun) (b : BitVec 256) (k n : Nat) (x : Int) : Bool :=
  (upTo (beChunks b)).any (fun c => decide (k < c) && decide (beRow r b c ≤ x) && decide (x < beRow r b c + n))

/-- Write the regenerated rows of block j (R168), after its stored rows and after every earlier block's, and release its
staging (R231). -/
def State.landChain (s : State) (t i j : Nat) : State :=
  let d := (s.slot t i).desc
  let r := s.run t i
  let b := (r.blocks.getD j {}).entry
  let limbs := s.chainLimbs t d r b
  let g := s.share t (sdLogN d)
  let n := s.chunkRows t d r b
  let s := s.each (upTo (beChunks b)) (fun k x =>
    let l := (limbs.getD k none).getD []
    let sh := pack36 ((upTo (2 ^ sdLogN d / g.1)).map (fun e => el l (elemAt (sd d 6 6 == 1) g.1 (sdLogN d) g.2 e)))
    x.each (upTo n) (fun w y =>
      let row := beRow2 r b k + w
      if rowTaken r b k n row then y else y.writeRows t row.toNat ((sh.drop (128 * w)).take 128) 0))
  (s.modBlock t i j (fun b => { b with chain := 3 })).freeStaging t (fun c => c.slot == i && c.block == j)

/-- A block of which one more chain has begun. -/
def Block.chainOn (b : Block) : Block := { b with chain := 1, chainsOn := b.chainsOn + 1 }
/-- A block of which one more chain has finished: all of them leave it staged. -/
def Block.chainOk (b : Block) : Block :=
  { b with chainsOk := b.chainsOk + 1, chain := if b.chainsOk + 1 = beChunks b.entry then 2 else 1 }

/-- One chain more of block j has finished: with the last of them its rows are staged, unless a bank they lie in has left AWAKE
(R374). -/
def State.chainStaged (s : State) (t i j : Nat) : State :=
  let s := s.modBlock t i j Block.chainOk
  let r := s.run t i
  let blk := r.blocks.getD j {}
  let d := (s.slot t i).desc
  if blk.chain = 2 ∧ (upTo (beChunks blk.entry)).any (fun k =>
      !s.rowsAwake t (beRow2 r blk.entry k).toNat (s.chunkRows t d r blk.entry)) then
    s.modBlock t i j (fun b => { b with chain := 4, chainCode := cBankAsleep })
  else s

/-- One thing a run does without an access, in list order: a transfer of no line, the landing of a finished chain, the end at a
block whose chain failed (R157, R168, R232); none where the next needs a command. -/
def State.settleOne (s : State) (t i : Nat) : Option State :=
  let x := s.slot t i
  let d := x.desc
  let r := s.run t i
  if x.state ≠ 2 then none
  else
    match openBlock d r with
    | none => none
    | some j =>
      let blk := r.blocks.getD j {}
      if blk.chain = 4 then some ((s.tileFault t [sd d 319 256] blk.chainCode).runFault t i blk.chainCode)
      else if ¬ blk.started then none
      else if blk.next < blk.transfers then
        if s.transferLines t d r blk.entry blk.next ≠ [] then none
        else
          let c := s.transferCode t d r blk.entry (s.transferAsleep t d r blk.entry blk.next) blk.next
          some (if c ≠ 0 then (s.tileFault t [] c).runFault t i c else s.endTransfer t i j)
      else if blk.chain = 2 then some (s.landChain t i j)
      else none

/-- Settle a run until it needs a command; `fuel` bounds the transfers and chains. -/
def State.settleLoop (t i : Nat) : Nat → State → State
  | 0, s => s
  | fuel + 1, s =>
    match s.settleOne t i with
    | some u => State.settleLoop t i fuel u
    | none => s

/-- Settle a run. -/
def State.settleRun (s : State) (t i : Nat) : State :=
  State.settleLoop t i (((s.run t i).blocks.map (fun b => b.transfers + 2)).sum + 1) s

end Sys2Proof.Machine
end

