-- ==== Sys2Proof/Machine/Words.lean ====
section
/-! DEFINITION. Control words: the load checks (R94, R149, R180, R187), and what a beat of each unit reads, computes
and writes (R90 to R93, R178 to R196). -/

namespace Sys2Proof.Machine

/-! ### Fields (Table 4-2, Table 7-2, Table 7-3) -/

abbrev wKind (w : BitVec 512) : Nat := cw w 1 0
abbrev wWaitEn (w : BitVec 512) : Bool := cw w 2 2 == 1
abbrev wWaitQ (w : BitVec 512) : Nat := cw w 6 3
abbrev wWaitN (w : BitVec 512) : Nat := cw w 10 7
abbrev wEmitEn (w : BitVec 512) : Bool := cw w 11 11 == 1
abbrev wEmitQ (w : BitVec 512) : Nat := cw w 15 12
abbrev wEmitTarget (w : BitVec 512) : Nat := cw w 17 16
abbrev wRepeat (w : BitVec 512) : Nat := cw w 25 18
abbrev wRepeatSrc (w : BitVec 512) : Nat := cw w 30 26
abbrev wOpid (w : BitVec 512) : Nat := cw w 41 31
abbrev wFirst (w : BitVec 512) : Bool := cw w 42 42 == 1
abbrev wLast (w : BitVec 512) : Bool := cw w 43 43 == 1
abbrev wKick (w : BitVec 512) : Bool := cw w 56 56 == 1
/-- Slot index of the kicked stream: 6·engine + slot. -/
abbrev wSlot (w : BitVec 512) : Nat := 6 * cw w 58 57 + cw w 61 59
abbrev wRing (w : BitVec 512) : Nat := cw w 68 64
abbrev wStage (w : BitVec 512) : Nat := cw w 73 69
abbrev wLogN (w : BitVec 512) : Nat := cw w 76 74 + 12
abbrev wBlock (w : BitVec 512) : Bool := cw w 77 77 == 1
abbrev wConst (w : BitVec 512) : Nat := cw w 81 78
abbrev wCanon (w : BitVec 512) : Bool := cw w 82 82 == 1
abbrev wMat (w : BitVec 512) (hi lo : Nat) : Nat := cw w (gMatCtrl + hi) (gMatCtrl + lo)
abbrev wVec (w : BitVec 512) (hi lo : Nat) : Nat := cw w (gVecCtrl + hi) (gVecCtrl + lo)
abbrev wMode (w : BitVec 512) : Nat := wMat w 2 0
abbrev wVop (w : BitVec 512) : Nat := wVec w 4 0
abbrev wExch (w : BitVec 512) : Nat := cw w 418 416
abbrev wRotSel (w : BitVec 512) : Nat := cw w 422 419
abbrev wRotLatch (w : BitVec 512) : Bool := cw w 423 423 == 1
abbrev wPermAge (w : BitVec 512) : Nat := cw w 427 424
abbrev wLogX (w : BitVec 512) : Nat := cw w 430 428 + 12
/-- STRIDE of a generator. -/
abbrev genStride (w : BitVec 512) (lo : Nat) : Nat := bits (cwGen w lo) 23 16
/-- AGE of a generator. -/
abbrev genAge (w : BitVec 512) (lo : Nat) : Nat := bits (cwGen w lo) 31 28

/-- Ring generators a ring function reads (Table 4-4). -/
def ringSrcs (fn : Nat) : List Nat :=
  if fn = 0 then [] else if [3, 4, 7, 8].contains fn then [gRingA]
  else if fn = 6 then [gRingA, gRingB, gRingC] else [gRingA, gRingB]
/-- Ring generators it writes. -/
def ringDsts (fn : Nat) : List Nat := if fn = 0 then [] else if 9 ≤ fn then [gRingD, gRingC] else [gRingD]
/-- A butterfly function. -/
abbrev isButterfly (fn : Nat) : Bool := fn == 9 || fn == 10

/-- The ring generator SRC2 names (Table 7-3). -/
def src2Gen (v : Nat) : List Nat :=
  if v = 1 then [gRingA] else if v = 2 then [gRingB] else if v = 3 then [gRingC] else []

/-- Beats a plaintext mode needs (Table 7-1). -/
abbrev modeBeats (m : Nat) : Nat := if m = 4 then 128 else 64

/-- A word drains its accumulator to MAT_D. -/
def drainsToSpad (w : BitVec 512) : Bool :=
  wMat w 4 4 == 1 && (wMode w == 1 || (decide (2 ≤ wMode w) && wMat w 5 5 == 1))

/-- A read shape with a reserved encoding, or TRANSPOSE with a step (R149). -/
def shapeCodeBad (v : Nat) : Bool := v % 4 == 3 || decide (32 ≤ v) || (bit v 2 && bits v 4 3 != 0)

/-- R180: matrix fields a word may not have. -/
def matWordBad (w : BitVec 512) : Bool :=
  let m := wMode w
  m == 7 || wMat w 7 6 != 0 || wMat w 31 24 != 0
    || (m == 1 && (wMat w 5 5 == 1 || wMat w 23 23 == 1 || (wRepeatSrc w == 0 && decide (15 < wRepeat w))))
    || (2 ≤ m && m ≤ 6 &&
        (wRepeatSrc w != 0 || wRepeat w + 1 != modeBeats m || genStride w gMatA != 0 || genStride w gMatB != 0
          || shapeCodeBad (wMat w 15 8) || shapeCodeBad (wMat w 23 16)
          || wMat w 9 8 != b2n (m == 4) || wMat w 17 16 != b2n (m == 4)
          || (m == 3 && (wMat w 10 10 == 1 || wMat w 18 18 == 1))))
    || (!drainsToSpad w && cwGen w gMatD != 0)
    || (m == 0 && (cwGen w gMatA != 0 || cwGen w gMatB != 0))

/-- R187: vector fields a word may not have. -/
def vecWordBad (w : BitVec 512) : Bool :=
  let v := wVop w
  let deq := wVec w 5 5 == 1
  let src2 := wVec w 7 6
  let rnd := wVec w 20 19
  let rounds := [9, 14, 15, 16, 17, 18].contains v
  let many := wRepeatSrc w == 0 && decide (8 < wRepeat w + 1)
  if v = 0 then wVec w 31 5 != 0 || cwGen w gVecD != 0
  else
    decide (20 < v) || (src2Gen src2).any (fun g => (ringSrcs (wRing w) ++ ringDsts (wRing w)).contains g)
      || (!deq && src2 == 0) || rnd == 3
      || (rnd == 2 && !([9, 14, 15, 16].contains v)) || (rnd != 0 && !rounds)
      || ((v == 13 || v == 19 || v == 20) && wVec w 18 18 == 1)
      || (!deq && many && (rnd == 2 || v == 12 || v == 13 || v == 19 || wVec w 18 18 == 1))
      || shapeCodeBad (wVec w 16 9)
      || ((v == 14 || v == 15) && (wVec w 8 8 == 0 || wVec w 10 9 != 2))
      || (v == 20 && (cwGen w gVecD != 0 || wRepeat w != 0 || wRepeatSrc w != 0))

/-- R92: exchange fields a word may not have in a partition of `tiles` tiles (0: none yet). That a beat count other than
N/(64G), a STRIDE or a REPEAT_SRC is rejected at load with WORD_INVALID is the model's choice (assumption log 37). -/
def exchWordBad (tiles : Nat) (w : BitVec 512) : Bool :=
  let f := wExch w
  if f = 0 then cwGen w gExchS != 0 || cwGen w gExchD != 0
  else
    decide (4 < f) || genStride w gExchS != 0 || genStride w gExchD != 0 || wRepeatSrc w != 0
      || (tiles != 0 && wRepeat w + 1 != 2 ^ wLogX w / (64 * slotTiles tiles (wLogX w)))

/-- R94: a control word is rejected at load. -/
def wordBad (tiles : Nat) (w : BitVec 512) : Bool :=
  decide (2 ≤ wKind w) || (wWaitEn w && wWaitN w == 0)
    || (if wKind w = 0 then cw w 511 31 != 0 || decide (2 ≤ wEmitTarget w) || (decide (1 ≤ wRepeatSrc w) && decide (wRepeatSrc w < 16))
        else
          decide (2 ≤ wEmitTarget w) || (decide (1 ≤ wRepeatSrc w) && decide (wRepeatSrc w < 16))
            || decide (6 ≤ cw w 61 59) || cw w 63 62 != 0 || cw w 95 83 != 0 || cw w 447 431 != 0
            || decide (10 < wRing w) || decide (6 ≤ cw w 76 74) || decide (6 ≤ cw w 430 428)
            || (isButterfly (wRing w) && decide (wLogN w ≤ wStage w))
            || [gRingA, gRingB, gRingC, gRingD].any (fun g =>
                cwGen w g != 0 && !((ringSrcs (wRing w) ++ ringDsts (wRing w)
                  ++ (if wVop w = 0 then [] else src2Gen (wVec w 7 6))).contains g))
            || (ringDsts (wRing w) ++ [gMatD, gVecD, gExchD]).any (fun g => genAge w g != 0)
            || matWordBad w || vecWordBad w || exchWordBad tiles w)

/-! ### Latencies (Table 4-6) -/

/-- Result latency of a ring function. -/
def ringLat (fn : Nat) : Nat :=
  if fn = 5 ∨ fn = 6 then 10 else if fn = 7 ∨ fn = 8 then 8 else if 9 ≤ fn then 9 else 6
/-- Result latency of a matrix mode. -/
def matLat (m : Nat) : Nat := if 4 ≤ m then 16 else 14
/-- Result latency of an exchange function; `dies` for the unpartitioned array. -/
def exchLat (dies : Bool) (fn : Nat) : Nat := (if dies then 23 else 15) + (if 3 ≤ fn then 2 else 0)
/-- Units of a word with their latencies. -/
def wordUnits (dies : Bool) (w : BitVec 512) : List (Nat × Nat) :=
  if wKind w = 0 then []
  else
    (if wRing w = 0 then [] else [(0, ringLat (wRing w))])
      ++ (if wMode w = 0 then [] else [(1, matLat (wMode w))])
      ++ (if wVop w = 0 then [] else [(2, 6)])
      ++ (if wExch w = 0 then [] else [(3, exchLat dies (wExch w))])
/-- L of a word: the longest latency of its units. A NOP word and a word without an active unit, which Table 4-6 does not list,
have L = 0: the model's choice (R95; assumption log 37). -/
def wordLat (dies : Bool) (w : BitVec 512) : Nat := (wordUnits dies w).foldl (fun m u => max m u.2) 0

/-! ### Row spans (R90, Table 7-1, R151, R187) -/

/-- Rows of a matrix source operand. -/
def matRows (m shape : Nat) : Nat := if m = 1 then 18 else (if m = 4 then 64 else 32) * 2 ^ bits shape 4 3

/-- Rows of the vector source. -/
def vecRows (w : BitVec 512) : Nat :=
  let sh := wVec w 16 9
  let es := 2 ^ (sh % 4)
  let n := if bit sh 2 then 4096 else if wVec w 8 8 = 1 then 64 else 512
  ceilDiv (n * es * 2 ^ bits sh 4 3) 128

/-- Rows of an exchange region (R90). -/
def exchRows (tiles : Nat) (w : BitVec 512) : Nat := 2 ^ wLogX w / slotTiles tiles (wLogX w) * 9 / 256

/-- Row of a generator at beat k, and its span. -/
def genSpan (x : Seq) (w : BitVec 512) (g k n : Nat) : Int × Nat × Nat := (genRow x (cwGen w g) k, n, genAge w g)

/-- Source spans of a unit's beat. -/
def unitSrcs (x : Seq) (tiles : Nat) (w : BitVec 512) (u k : Nat) : List (Int × Nat × Nat) :=
  if u = 0 then (ringSrcs (wRing w)).map (fun g => genSpan x w g k 18)
  else if u = 1 then
    [genSpan x w gMatA k (matRows (wMode w) (wMat w 15 8)), genSpan x w gMatB k (matRows (wMode w) (wMat w 23 16))]
  else if u = 2 then (src2Gen (wVec w 7 6)).map (fun g => genSpan x w g k (vecRows w))
  else [genSpan x w gExchS k (exchRows tiles w)]

/-- Destination spans of a unit's beat; the matrix unit writes at the last beat of its word. -/
def unitDsts (x : Seq) (tiles : Nat) (w : BitVec 512) (u k : Nat) (last : Bool) : List (Int × Nat × Nat) :=
  if u = 0 then (ringDsts (wRing w)).map (fun g => genSpan x w g k 18)
  else if u = 1 then
    if last && drainsToSpad w then [genSpan x w gMatD k (if wMode w = 1 then 36 else 128)] else []
  else if u = 2 then
    if wVop w = 20 then [] else [genSpan x w gVecD k (vopBits (wVop w) / 2)]
  else [genSpan x w gExchD k (exchRows tiles w)]

/-- A span outside the scratchpad (R90). -/
def spanBad (s : Int × Nat × Nat) : Bool := decide (s.1 < 0) || decide (49152 < s.1 + s.2.1)
/-- A checked span as rows. -/
def toSpan (s : Int × Nat × Nat) : RowSpan := { row := s.1.toNat, rows := s.2.1, age := s.2.2 }

/-- Generators a word uses. -/
def usedGens (w : BitVec 512) : List Nat :=
  ringSrcs (wRing w) ++ ringDsts (wRing w) ++ (if wMode w = 0 then [] else [gMatA, gMatB])
    ++ (if drainsToSpad w then [gMatD] else []) ++ (if wVop w = 0 then [] else src2Gen (wVec w 7 6) ++ [gVecD])
    ++ (if wExch w = 0 then [] else [gExchS, gExchD])

/-- Banks spans touch. -/
def banksOf (l : List RowSpan) : List Nat :=
  (upTo 24).filter (fun b => l.any (fun r => r.rows != 0 && decide (r.row / 2048 ≤ b) && decide (b ≤ (r.row + r.rows - 1) / 2048)))

/-- The cycles a beat reads in, and writes in: a ring or exchange beat in the two before L (Tables 4-18 to 4-20), a matrix or
vector beat in the last two of its L (Table 7-7). -/
def Beat.readCycles (z : Beat) : List Nat := [z.cycle + 1]
def Beat.writeCycles (z : Beat) : List Nat :=
  if z.unit = 0 ∨ z.unit = 3 then [z.cycle + z.lat - 2, z.cycle + z.lat - 1] else [z.cycle + z.lat - 1, z.cycle + z.lat]

/-- The first cycle in which rows l claimed in cycles cl and rows m claimed in cycles cm touch one bank (R146). -/
def clash (cl : List Nat) (l : List RowSpan) (cm : List Nat) (m : List RowSpan) : Option Nat :=
  if (banksOf l).any (fun x => (banksOf m).contains x) then cl.find? (fun c => cm.contains c) else none

/-- The earlier of two cycles. -/
def firstOf (a b : Option Nat) : Option Nat :=
  match a, b with
  | some x, some y => some (min x y)
  | some x, none => some x
  | none, y => y

/-- The cycles in which a's read, a's write, b's read and b's write collide, two beats on different array ports (R146). -/
def collide (a b : Beat) : Option Nat × Option Nat × Option Nat × Option Nat :=
  if a.unit = b.unit ∨ a.unit = 3 ∨ b.unit = 3 then (none, none, none, none)
  else
    let rr := clash a.readCycles a.srcs b.readCycles b.srcs
    let rw := clash a.readCycles a.srcs b.writeCycles b.dsts
    let wr := clash a.writeCycles a.dsts b.readCycles b.srcs
    let ww := clash a.writeCycles a.dsts b.writeCycles b.dsts
    (firstOf rr rw, firstOf wr ww, firstOf rr wr, firstOf rw ww)

/-! ### What a beat reads -/

/-- The first check a beat's source rows fail in one tile (R97): 0 or a code. The lowest code wins. -/
def State.rowsCode (s : State) (t first : Nat) (l : List RowSpan) : Nat :=
  let skew := l.any (fun r => r.age != 0 && (upTo r.rows).any (fun i =>
    (s.tag t (r.row + i)).stamp != (first + 16 - r.age % 16) % 16))
  let inv := l.any (fun r => !s.rowsValid t r.row r.rows)
  if skew then cScheduleSkew else if inv then cRowInvalid else 0

/-- Residues of a ring-format operand in a tile. -/
def State.spadLimb (s : State) (t : Nat) (r : RowSpan) : List Nat := unpack36 (s.rowBytes t r.row (128 * r.rows))

/-- The index of the twiddle of butterfly m of slot tile τ (R91; F and G of Table 2-2). Lane l of beat k performs butterfly
512k + l of its tile in element order: the model's choice (R44; assumption log 37). -/
def twiddleIndex (block : Bool) (g n s τ m : Nat) : Nat :=
  let t := 2 ^ (n - 1 - s)
  let m := m % (2 ^ n / (2 * g))
  if block then (τ * (2 ^ n / (2 * g)) + m) / t + 2 ^ s else 2 ^ s + m / (t / g)

/-- A stage is local to each tile (R84). -/
def stageLocal (block : Bool) (g n s : Nat) : Bool :=
  let t := 2 ^ (n - 1 - s)
  if block then decide (t < 2 ^ n / g) else decide (g ≤ t)

/-- A unit's findings in one tile: a code with its cycle and stage, and what it writes. -/
structure TileRead where
  code : Nat := 0
  cycle : Nat := 0
  stage : Nat := stRead
  rows : List RowOut := []
  push : Option (List Nat) := none
  mask : Option TileOut := none
  gen : Option (Nat × GenSlot) := none
  moves : List TileOut := []
  acc0 : Option (List Nat) := none
  acc1 : Option (List Nat) := none
  popPart : Bool := false
  deriving Repr

/-- The destination row of span i of a beat. -/
def dstRow (b : Beat) (i : Nat) : Nat := (b.dsts.getD i {}).row

/-- Ring unit (Table 4-4): the 512 results of one tile. A butterfly whose stage is not local to a tile in its
distribution (R84) computes free residues: the spec neither rejects it nor gives its result (assumption log 37). The constant
of mul_const is folded and not compared with q under
CANON, and a LOGN_CODE above the set's LOG_N_MAX, for which Table 2-2 gives no root, uses ψ itself: the model's choices
(R29, R31; assumption log 37). -/
def State.ringRead (s : State) (b : Beat) (tiles τ t : Nat) : TileRead :=
  let w := b.word
  let n := wLogN w
  let g := slotTiles tiles n
  let x : Seq := { params := b.params }
  let sel := primeSel x w b.k (τ / g)
  let ps := s.pset sel.1
  let q := ps.q sel.2
  let src := b.srcs.map (fun r => s.spadLimb t r)
  if wCanon w ∧ src.any (canonBad q) then { code := cNoncanonicalInput, cycle := b.cycle + 1 }
  else
    let a := (src.getD 0 []).map (fun v => fold v q)
    let c := (src.getD 1 []).map (fun v => fold v q)
    let e := (src.getD 2 []).map (fun v => fold v q)
    let fn := wRing w
    if isButterfly fn then
      let psn := ps.psiN sel.2 n
      let loc := stageLocal (wBlock w) g n (wStage w)
      let p := (upTo 512).map (fun l =>
        let j := twiddleIndex (wBlock w) g n (wStage w) (τ % g) (512 * b.k + l)
        if !loc then (Config.freeAt s.free (2 * (512 * t + l)) % q, Config.freeAt s.free (2 * (512 * t + l) + 1) % q)
        else if fn = 9 then butterflyCt q (el a l) (el c l) (twiddleF q psn n j)
        else butterflyGs q (el a l) (el c l) (twiddleG q psn n j))
      { rows := [{ tile := t, row := dstRow b 0, data := pack36 (p.map Prod.fst) },
                 { tile := t, row := dstRow b 1, data := pack36 (p.map Prod.snd) }] }
    else
      let k := fold (x.reg (wConst w) % 2 ^ 36) q
      let r := (upTo 512).map (fun l =>
        let u := el a l
        let v := el c l
        if fn = 1 then addM q u v else if fn = 2 then subM q u v else if fn = 3 then negM q u
        else if fn = 4 then u else if fn = 5 then mulM q u v else if fn = 6 then mulAddM q u v (el e l)
        else if fn = 7 then mulConstM q u k else mulConstM q u (nInv q n))
      { rows := [{ tile := t, row := dstRow b 0, data := pack36 r }] }

/-- Byte index of element (i, j) of a 64-column block of es-byte elements under a read shape (R150, R151). -/
def shapeIndex (shape es i j : Nat) : Nat :=
  (if bit shape 2 then j * 64 + i else i * 64 + j) * 2 ^ bits shape 4 3 * es

/-- Accumulator lists default to zeros. -/
def acc (l : List Nat) (i : Nat) : Nat := l.getD i 0

/-- The operand bits at k-step and position of a plaintext block. -/
def matElem (m shape : Nat) (bytes : List Byte) (kk c : Nat) : Nat :=
  if m = 3 then bits (leAt bytes ((kk * 32 + c / 2) * 2 ^ bits shape 4 3) 1) (c % 2 * 4 + 3) (c % 2 * 4)
  else if m = 4 then leAt bytes (shapeIndex shape 2 kk c) 2
  else leAt bytes (shapeIndex shape 1 kk c) 1

/-- Matrix unit (R181 to R184): one beat in one tile. -/
def State.matRead (s : State) (b : Beat) (t : Nat) : TileRead :=
  let w := b.word
  let m := wMode w
  let x : Seq := { params := b.params }
  let tile := s.tile t
  let clear := wMat w 3 3 == 1 && b.k == 0
  let a0 := if clear then [] else tile.acc0
  let a1 := if clear then [] else tile.acc1
  let drain := b.last && wMat w 4 4 == 1
  if m = 1 then
    let r := x.reg (cw w 47 44)
    let ps := s.pset (bits r 3 0)
    let e0 := bits r 14 8
    let q := ps.q (e0 + cw w 54 48 + b.k * cw w 55 55)
    let p0 := ps.q (e0 + wMat w 22 16)
    let p1 := ps.q (e0 + wMat w 22 16 + 1)
    let av := s.spadLimb t (b.srcs.getD 0 {})
    let bv := s.spadLimb t (b.srcs.getD 1 {})
    if wCanon w ∧ canonBad q av then { code := cNoncanonicalInput, cycle := b.cycle + 1 }
    else
      let c0 := fold (el bv (2 * wMat w 15 8)) p0
      let c1 := fold (el bv (2 * wMat w 15 8 + 1)) p1
      let n0 := (upTo 512).map (fun i => acc a0 i + fold (el av i) q * c0)
      let n1 := (upTo 512).map (fun i => acc a1 i + fold (el av i) q * c1)
      if drain then
        { rows := [{ tile := t, row := dstRow b 0, data := pack36 (n0.map (fun v => reduce v p0 (muOf p0))) },
                   { tile := t, row := dstRow b 0 + 18, data := pack36 (n1.map (fun v => reduce v p1 (muOf p1))) }]
          acc0 := some [], acc1 := some [] }
      else { acc0 := some n0, acc1 := some n1 }
  else
    let sa := b.srcs.getD 0 {}
    let sb := b.srcs.getD 1 {}
    let ab := s.rowBytes t sa.row (128 * sa.rows)
    let bb := s.rowBytes t sb.row (128 * sb.rows)
    let ea := matElem m (wMat w 15 8) ab
    let eb := matElem m (wMat w 23 16) bb
    let nv := (upTo 4096).map (fun p =>
      let r := p / 64
      let c := p % 64
      let old := acc a0 p
      if m = 2 then fromSigned 32 ((old : Int) + toSigned 8 (ea b.k r) * toSigned 8 (eb b.k c))
      else if m = 3 then
        fromSigned 32 ((old : Int) + toSigned 4 (ea (2 * b.k) r) * toSigned 4 (eb (2 * b.k) c)
          + toSigned 4 (ea (2 * b.k + 1) r) * toSigned 4 (eb (2 * b.k + 1) c))
      else if m = 4 then
        if c / 32 = b.k % 2 then fMac old (bf16 (ea (b.k / 2) r)) (bf16 (eb (b.k / 2) c)) else old
      else if m = 5 then fMac old (e4m3 (ea b.k r)) (e4m3 (eb b.k c))
      else fMac old (e5m2 (ea b.k r)) (e5m2 (eb b.k c)))
    if drain then
      if wMat w 5 5 = 1 then
        { rows := [{ tile := t, row := dstRow b 0, data := (nv.map (toBytes 4)).flatten }], acc0 := some [] }
      else { push := some nv, acc0 := some [] }
    else { acc0 := some nv }

/-- Sign-extend an element of the vector source to 32 bits (Table 7-3). -/
def extend32 (es v : Nat) : Nat := if es = 4 then v else fromSigned 32 (toSigned (8 * es) v)

/-- Results of w bits packed in lane order. -/
def packLanes (w : Nat) (l : List Nat) : List Byte := packElems w l

/-- Vector unit (R186 to R196): one beat in one tile; `j` counts the tiles the word has popped. -/
def State.vecRead (s : State) (b : Beat) (τ t j : Nat) : TileRead :=
  let w := b.word
  let v := wVop w
  let deq := wVec w 5 5 == 1
  let tile := s.tile t
  let x : Seq := { params := b.params }
  let sh := wVec w 16 9
  let es := 2 ^ (sh % 4)
  let sp := b.srcs.getD 0 {}
  let sb := s.rowBytes t sp.row (128 * sp.rows)
  if v = 20 then
    if ofBytes ((sb.drop 26).take 6) ≠ 0 then { code := cVectorOperand, cycle := b.cycle + 4, stage := stUnit }
    else { gen := some (wVec w 26 26, { key := sb.take 16, stream := leAt sb 16 8, dropP := leAt sb 24 2 }) }
  else
    let head := match tile.finq with
      | h :: _ => if h.ready ≤ b.cycle then some h.vals else none
      | [] => none
    if deq ∧ head.isNone then { code := cTileQueueEmpty, cycle := b.cycle + 1 }
    else
      let h := if deq then tile.finPart else b.k
      let mask := if wVec w 17 17 = 1 then tile.mask1 else tile.mask0
      let slot := smGet {} tile.gen (wVec w 26 26)
      let reg := x.reg (wVec w 30 27)
      let outs := (upTo 512).map (fun e =>
        let p := 512 * h + e
        let el := if wVec w 8 8 = 1 then p % 64 else e
        let off := if bit sh 2 then (if wVec w 8 8 = 1 then p % 64 * 64 else p % 64 * 64 + p / 64) * es
          else el * 2 ^ bits sh 4 3 * es
        let sv := if wVec w 7 6 = 0 then 0 else extend32 es (leAt sb off es)
        -- a position beyond 4,095 has no mask bit (R187): free
        let mb := if p < 4096 then mask.getLsbD p else Config.freeAt s.free p % 2 == 1
        if wVec w 18 18 = 1 ∧ ¬ mb then (({} : LaneOut), false)
        else
          (laneOp { vop := v, x := if deq then (head.getD []).getD p 0 else sv, y := if deq then sv else 0
                    rnd := wVec w 20 19, shift := wVec w 25 21, maskBit := mb
                    key := slot.key ++ List.replicate (16 - slot.key.length) 0#8, stream := slot.stream
                    dropP := slot.dropP
                    index := ((bits reg 39 0 + τ * bits reg 63 40 + j) * 4096 + p) % 2 ^ 64 }, true))
      let bad := outs.any (fun o => o.1.bad)
      let sat := wVec w 31 31 == 1 && outs.any (fun o => o.1.sat && o.2)
      if sat then { code := cVectorLane, cycle := b.cycle + 4, stage := stUnit, popPart := deq }
      else if bad then { code := cVectorOperand, cycle := b.cycle + 4, stage := stUnit, popPart := deq }
      else
        let mk := ((upTo 512).zip outs).filterMap (fun o => o.2.1.mask.map (fun m => 2 * (512 * h + o.1) + b2n m))
        { rows := [{ tile := t, row := dstRow b 0, data := packLanes (vopBits v) (outs.map (fun o => o.1.val)) }]
          mask := if v = 12 ∨ v = 19 then some { tile := t, sel := wVec w 17 17, vals := mk } else none
          popPart := deq }

/-- Where exchange function f puts element i of a limb, and whether it negates it (Table 4-5, R45, R46); `kinv` is the inverse
of the Galois element k. -/
def exchMove (f n k kinv i : Nat) : Nat × Bool :=
  let N := 2 ^ n
  if f = 3 then (brv n ((kinv * (2 * brv n i + 1) % (2 * N) - 1) / 2), false)
  else if f = 4 then (let y := i * k % (2 * N); if y < N then (y, false) else (y - N, true))
  else (i, false)

/-- The Galois element of an exchange beat and its inverse; 1 where none was latched. -/
def Beat.galois (b : Beat) : Nat × Nat :=
  let k := b.permK.getD 1
  (k, powM (2 * 2 ^ wLogX b.word) k (2 ^ wLogX b.word - 1))

/-- Where residue l of tile τ's 64 in an exchange beat goes: the partition tile and the local element there, and whether it is
negated (R83, Table 4-5). -/
def Beat.exchTo (b : Beat) (tiles τ l : Nat) (z : Nat × Nat) : Nat × Nat × Bool :=
  let f := wExch b.word
  let n := wLogX b.word
  let g := slotTiles tiles n
  let r := exchMove f n z.1 z.2 (elemAt (f == 2 || f == 3) g n (τ % g) (64 * b.k + l))
  let d := placeElem (f == 1 || f == 3) g n r.1
  (τ / g * g + d.1, d.2, r.2)

/-- Exchange network (R92, R93): the 64 residues one tile sends in beat k. That functions 1 and 2 fold the residues they move,
as the permutation network does, is the model's choice (R28; assumption log 37). -/
def State.exchRead (s : State) (b : Beat) (p tiles τ t : Nat) : TileRead :=
  let w := b.word
  let f := wExch w
  let n := wLogX w
  let g := slotTiles tiles n
  let x : Seq := { params := b.params }
  let sel := primeSel x w b.k (τ / g)
  let q := (s.pset sel.1).q sel.2
  let dist := b.first - b.permCycle
  if (f = 3 ∨ f = 4) ∧ (b.permK.isNone ∨ dist < 12 ∨ (wPermAge w ≠ 0 ∧ dist % 16 ≠ wPermAge w)) then
    { code := cScheduleSkew, cycle := b.cycle + 1 }
  else
    let src := s.spadLimb t (b.srcs.getD 0 {})
    let z := b.galois
    { moves := (upTo 64).map (fun l =>
        let v := fold (el src (64 * b.k + l)) q
        let d := b.exchTo tiles τ l z
        { tile := p * tiles + d.1, sel := d.2.1, vals := [if d.2.2 then negM q v else v] }) }

end Sys2Proof.Machine
end

