-- ==== Sys2Proof/Machine/Kernels.lean ====
section
/-! DEFINITION. Sequencers: issue, beats, retirement, waits, replays, kernel stops and completion, loads
(R82 to R119, R430). -/

namespace Sys2Proof.Machine

/-- Change the running kernel of a sequencer. -/
def State.modKern (s : State) (q : Nat) (f : Kern → Kern) : State :=
  s.modSeq q (fun x => { x with kern := x.kern.map f })

/-- The running kernel; an empty one where none runs. -/
def State.kern (s : State) (q : Nat) : Kern := (s.seq q).kern.getD {}

/-- Kernel-table entry fields (Table 4-16). -/
def ktBase (v : BitVec 64) : Nat := bits v.toNat 14 0
def ktLength (v : BitVec 64) : Nat := bits v.toNat 30 15
def ktValid (v : BitVec 64) : Bool := bit v.toNat 31
def ktOpBase (v : BitVec 64) : Nat := bits v.toNat 42 32
def ktOpCount (v : BitVec 64) : Nat := bits v.toNat 54 43

/-- Entry e of the kernel table. -/
def Seq.kt (x : Seq) (e : Nat) : BitVec 64 := smGet 0 x.ktab e

/-- Partition of a sequencer, 8 where it drives none. -/
def State.seqP (s : State) (q : Nat) : Nat := (s.seqPart q).getD 8
/-- The partition spans both dies (Table 4-1). -/
def State.seqDies (s : State) (q : Nat) : Bool := (s.part (s.seqP q)).tiles == 64

/-- The tags of a key header that passed its checks, for the operation that kicked its load in slot i of tile t (R61, R63). -/
def Kern.takeTags (k : Kern) (t i : Nat) (h : KeyHeader) : Kern :=
  match k.kicks.reverse.find? (fun e => e.tile == t && e.slot == i) with
  | some e => { k with keyTags := smSet 0 k.keyTags e.opid h.keyTag, targetTags := smSet 0 k.targetTags e.opid h.targetTag }
  | none => k

/-- Stop cycle of a kernel: the earliest fault found so far (R113). -/
def Kern.stopAt (k : Kern) : Option Nat :=
  k.faults.foldl (fun m f => match m with | none => some f.cycle | some c => some (min c f.cycle)) none

/-- Cut a kernel at cycle d: beats at or after it do not issue, so a fault foreseen for one is none; a word that loses beats emits
nothing, and its operation has not issued every word (R114). -/
def Kern.cut (k : Kern) (d : Nat) : Kern :=
  let lost := k.words.filter (fun f => decide (d ≤ f.lastBeat))
  { k with
    faults := k.faults.filter (fun f => decide (f.cycle ≤ d) || decide (f.issued < d))
    beats := k.beats.filter (fun b => decide (b.cycle < d))
    words := k.words.filter (fun f => decide (f.lastBeat < d))
    ended := k.ended.filter (fun o => !lost.any (fun f => wOpid f.word == o)) }

/-- After a fault: nothing at or after d issues, and the sequencer drains once it reaches d (R114). -/
def State.settle (s : State) (q : Nat) : State :=
  match (s.kern q).stopAt with
  | none => s
  | some d =>
    let s := s.modKern q (fun k => k.cut d)
    if d ≤ (s.seq q).count then s.modSeq q (fun x => { x with count := d, state := 3 }) else s

/-- Record a fault of the kernel. -/
def State.addFault (s : State) (q : Nat) (f : FaultRec) : State :=
  (s.modKern q (fun k => { k with faults := k.faults ++ [f] })).settle q

/-! ### Events of issued beats -/

/-- The rows residue j of a limb touches, the limb's rows beginning at `row` (R38): the first and how many. -/
def residueRows (row j : Nat) : Nat × Nat :=
  let a := row * 128 + 36 * (j / 8) + 36 * (j % 8) / 8
  (a / 128, (a + 4) / 128 - a / 128 + 1)

/-- Write 36-bit residue j of a limb whose rows begin at a tile's row (R38); the rows it touches get the stamp. -/
def State.putResidue (s : State) (t row j v stamp : Nat) : State :=
  s.modTile t (fun x =>
    let a := row * 128 + 36 * (j / 8) + 36 * (j % 8) / 8
    let sh := 36 * (j % 8) % 8
    let old := memLE x.spad a 5
    let low := old % 2 ^ sh
    let high := old >>> (sh + 36)
    { x with spad := memPutLE x.spad a 5 (low + (v <<< sh) + (high <<< (sh + 36)))
             tags := setTags x.tags (residueRows row j).1 (residueRows row j).2 (fun _ => { valid := true, stamp := stamp }) })

/-- What one unit's beat reads in one tile. -/
def State.unitRead (s : State) (b : Beat) (p tiles τ t j : Nat) : TileRead :=
  let c := s.rowsCode t b.first b.srcs
  if c = cScheduleSkew then { code := c, cycle := b.cycle + 1 }
  else
    let r := if b.unit = 0 then s.ringRead b tiles τ t else if b.unit = 1 then s.matRead b t
      else if b.unit = 2 then s.vecRead b τ t j else s.exchRead b p tiles τ t
    -- in the read cycle the lowest code wins
    if c ≠ 0 ∧ (r.code = 0 ∨ r.stage ≠ stRead ∨ c < r.code) then { code := c, cycle := b.cycle + 1 } else r

/-- Tile-side effects of a read: accumulators, and the part a dequeuing beat takes (R185). -/
def takeRead (x : Tile) (r : TileRead) : Tile :=
  let x := { x with acc0 := r.acc0.getD x.acc0, acc1 := r.acc1.getD x.acc1 }
  if r.popPart then
    if x.finPart = 7 then { x with finq := x.finq.drop 1, finPart := 0 } else { x with finPart := x.finPart + 1 }
  else x

/-- Perform the read of a beat (R95, R97) in every tile of its partition. -/
def State.readBeat (s : State) (q : Nat) (b : Beat) : State :=
  let p := s.seqP q
  let tiles := (s.part p).tiles
  let done := fun (f : Beat → Beat) (s : State) => s.modKern q (fun k =>
    { k with beats := k.beats.map (fun x => if x.order = b.order ∧ x.cycle = b.cycle ∧ x.unit = b.unit then f x else x) })
  let d := (s.kern q).stopAt.getD (b.cycle + 2)
  if b.suppressed ∨ (b.blockR ≠ 0 ∧ b.blockR ≤ d) then done (fun x => { x with read := true }) s
  else
    let k := s.kern q
    let j := if b.unit = 2 then k.popped else 0
    -- the eighth part's read pops the head tile (R185); a beat that faults in its unit has read its part
    let pops := b.unit == 2 && wVec b.word 5 5 == 1 && (s.tile (p * tiles)).finPart == 7
    let rs := (upTo tiles).map (fun τ => (τ, s.unitRead b p tiles τ (p * tiles + τ) j))
    let s := s.each (upTo tiles) (fun τ x => x.modTile (p * tiles + τ) (fun y => takeRead y ((rs.getD τ (0, {})).2)))
    let s := if pops then s.modKern q (fun k => { k with popped := k.popped + 1 }) else s
    match rs.filter (fun r => r.2.code != 0) with
    | [] =>
      let s := if b.unit = 0 then { s with free := s.free + 1 } else s
      done (fun x => { x with
        read := true
        rows := (rs.map (fun r => r.2.rows)).flatten
        pushes := rs.filterMap (fun r => r.2.push.map (fun v => { tile := p * tiles + r.1, vals := v }))
        masks := rs.filterMap (fun r => r.2.mask)
        gens := rs.filterMap (fun r => r.2.gen.map (fun g => (p * tiles + r.1, g.1, g.2)))
        moves := (rs.map (fun r => r.2.moves)).flatten }) s
    | bad =>
      let best := bad.foldl (fun (m : Nat × TileRead) r =>
        if r.2.cycle < m.2.cycle ∨ (r.2.cycle = m.2.cycle ∧ r.2.code < m.2.code) then r else m) (bad.headD (0, {}))
      let s := done (fun x => { x with read := true }) s
      s.addFault q { cycle := best.2.cycle, order := b.order, stage := best.2.stage, code := best.2.code
                     opid := wOpid b.word, word := b.idx, tile := best.1, beat := b.k, replay := b.replay }

/-- Set STAMP alone on rows of a tile. -/
def State.stampRows (s : State) (t row n stamp : Nat) : State :=
  s.modTile t (fun y => { y with tags := setTags y.tags row n (fun g => { g with stamp := stamp }) })

/-- Stamp every row a suppressed beat would have written (R111): an exchange beat, those of the residues it would have moved, by
the element last latched. -/
def State.stampOnly (s : State) (q : Nat) (b : Beat) : State :=
  let p := s.seqP q
  let tiles := (s.part p).tiles
  if b.unit = 3 then
    let z := b.galois
    s.each (upTo tiles) (fun τ x => x.each (upTo 64) (fun l y =>
      let d := b.exchTo tiles τ l z
      let r := residueRows (dstRow b 0) d.2.1
      y.stampRows (p * tiles + d.1) r.1 r.2 (b.first % 16)))
  else s.each (s.partTiles p) (fun t x => b.dsts.foldl (fun y r => y.stampRows t r.row r.rows (b.first % 16)) x)

/-- A finished tile reaches the queue in the write stage (R185), whose first cycle is L − 1 (Table 7-7); a full queue
faults. -/
def State.pushBeat (s : State) (q : Nat) (b : Beat) : State :=
  let full := b.pushes.filter (fun o => decide (4 ≤ (s.tile o.tile).finq.length))
  match full with
  | o :: _ =>
    let p := s.seqP q
    s.addFault q { cycle := b.cycle + b.lat - 1, order := b.order, stage := stWrite, code := cTileQueueFull
                   opid := wOpid b.word, word := b.idx, tile := o.tile - p * (s.part p).tiles, beat := b.k
                   replay := b.replay }
  | [] => b.pushes.foldl (fun s o => s.modTile o.tile (fun x =>
      { x with finq := x.finq ++ [{ ready := b.cycle + b.lat, vals := o.vals }] })) s

/-- Perform the write of a beat (R96): rows, masks, generator slots, exchange moves. -/
def State.writeBeat (s : State) (q : Nat) (b : Beat) : State :=
  let d := (s.kern q).stopAt.getD (b.cycle + b.lat)
  let st := b.first % 16
  let s := s.modKern q (fun k =>
    { k with beats := k.beats.filter (fun x => !(x.order == b.order && x.cycle == b.cycle && x.unit == b.unit)) })
  if b.suppressed then s.stampOnly q b
  else if b.blockW ≠ 0 ∧ b.blockW ≤ d then s
  else
    let s := b.rows.foldl (fun s r => s.writeRows r.tile r.row r.data st) s
    let s := b.masks.foldl (fun s m => s.modTile m.tile (fun x =>
      let f := fun (z : BitVec 4096) => m.vals.foldl (fun z v =>
        if v % 2 = 1 then z ||| (1#4096 <<< (v / 2)) else z &&& ~~~(1#4096 <<< (v / 2))) z
      if m.sel = 1 then { x with mask1 := f x.mask1 } else { x with mask0 := f x.mask0 })) s
    let s := b.gens.foldl (fun s g => s.modTile g.1 (fun x => { x with gen := smSet {} x.gen g.2.1 g.2.2 })) s
    b.moves.foldl (fun s m => s.putResidue m.tile (dstRow b 0) m.sel (m.vals.headD 0) st) s

/-- Emit a word's token (R103): to every tile of the partition, or to the runtime core. -/
def State.emitWord (s : State) (q : Nat) (w : BitVec 512) (status : Nat) : State × List Nat :=
  let p := s.seqP q
  let k : Token := { status := status, source := 2, tag := wOpid w % 256 }
  if wEmitTarget w = 1 then (s.emitRuntime p k, [])
  else
    (s.partTiles p).foldl (fun (acc : State × List Nat) t =>
      if (acc.1.tokens t (wEmitQ w)).length < 64 then (acc.1.emitTile t (wEmitQ w) k, acc.2)
      else (acc.1.modLedger p Ledger.returned, acc.2 ++ [t])) (s, [])

/-- A word retires (R95, R103). -/
def State.retireWord (s : State) (q : Nat) (f : FlightWord) : State :=
  let s := s.modKern q (fun k => { k with words := k.words.filter (fun x => x.order != f.order) })
  if wEmitEn f.word then
    match s.emitWord q f.word 0 with
    | (s, []) => s
    | (s, t :: _) =>
      let p := s.seqP q
      s.addFault q { cycle := f.retire, order := f.order, stage := stWrite, code := cTokenOverflow
                     opid := wOpid f.word, word := f.idx, tile := t - p * (s.part p).tiles, bare := wKind f.word == 0
                     replay := f.replay }
  else s

/-- An event of the schedule: its key, twice the cycle (odd for reads), and what happens. -/
inductive Ev where
  | read (b : Beat)
  | push (b : Beat)
  | arrive (b : Beat)
  | write (b : Beat)
  | retire (f : FlightWord)
  deriving DecidableEq, Repr

/-- A beat has a push to make. -/
def Beat.pushKey (b : Beat) : Nat := 2 * (b.cycle + b.lat - 1)

/-- The cycle an exchange beat arrives in its destination tiles, where its write begins (Table 4-19). -/
def Beat.arrival (b : Beat) : Nat := b.cycle + b.lat - 2

/-- The key of an event. -/
def Ev.key : Ev → Nat
  | .read b => 2 * b.cycle + 1
  | .push b => b.pushKey
  | .arrive b => 2 * b.arrival
  | .write b => 2 * (b.cycle + b.lat)
  | .retire f => 2 * f.retire

/-- The earlier of two events; the first on a tie. -/
def Ev.first (a b : Ev) : Ev := if b.key < a.key then b else a

/-- The next event of a beat. -/
def Beat.ev (b : Beat) : Ev :=
  if !b.read then .read b else if !b.pushes.isEmpty then .push b
  else if b.unit == 3 && !b.arrived then .arrive b else .write b

/-- The next event of a kernel. -/
def Kern.next (k : Kern) : Option Ev :=
  (k.beats.map Beat.ev ++ k.words.map Ev.retire).foldl (fun m e => match m with
    | none => some e
    | some a => some (a.first e)) none

/-- Change one beat in flight. -/
def State.modBeat (s : State) (q : Nat) (b : Beat) (f : Beat → Beat) : State :=
  s.modKern q (fun k =>
    { k with beats := k.beats.map (fun x => if x.order = b.order ∧ x.cycle = b.cycle ∧ x.unit = b.unit then f x else x) })

/-- Perform an event. -/
def State.fire (s : State) (q : Nat) : Ev → State
  | .read b => s.readBeat q b
  | .push b => (s.pushBeat q b).modBeat q b (fun x => { x with pushes := [] })
  | .arrive b => s.modBeat q b (fun x => { x with arrived := true })
  | .write b => s.writeBeat q b
  | .retire f => s.retireWord q f

/-- Perform every event up to a key; fuel bounds their number. -/
def State.catchUp (q key : Nat) : Nat → State → State
  | 0, s => s
  | fuel + 1, s =>
    match (s.kern q).next with
    | none => s
    | some e => if e.key ≤ key then State.catchUp q key fuel (s.fire q e) else s

/-- Events a kernel can still have. -/
def Kern.fuel (k : Kern) : Nat := 4 * k.beats.length + k.words.length

/-- Perform every event up to schedule cycle c. -/
def State.advance (s : State) (q c : Nat) : State := State.catchUp q (2 * c) (s.kern q).fuel s

/-- Perform every event that is left: the drain of R114. -/
def State.drainAll (s : State) (q : Nat) : State :=
  let k := s.kern q
  let top := (k.beats.map (fun b => b.cycle + b.lat) ++ k.words.map (fun f => f.retire)).foldl max 0
  State.catchUp q (2 * top + 1) k.fuel s

/-! ### Issue -/

/-- The kernel-table value of a placed kernel. -/
def PkgKernel.value (k : PkgKernel) : BitVec 64 :=
  BitVec.ofNat 64 (pack [(0, k.base), (15, k.words), (31, 1), (32, k.opBase), (43, k.ops)])

/-- The Glahus instructions of kernel-table entry e, where it is a loaded package's kernel that has some (R122). -/
def State.progOf (s : State) (p e : Nat) : Option (List (BitVec 256)) :=
  ((((s.part p).pkgs.flatMap (fun g => g.kernels)).find? (fun k =>
    k.ktab == e && k.value == (s.seq (s.part p).seq).kt e)).map (fun k => k.instrs)).filter (fun l => !l.isEmpty)

/-- Words of the running kernel, or instructions of a package's. -/
def Seq.kernLen (x : Seq) (k : Kern) : Nat :=
  match k.prog with
  | some l => l.length
  | none => ktLength (x.kt k.kernel)

/-- The next word of a kernel: control-memory index, word, and whether its ECC failed. A package's kernel shows an array word
with the OPID of its next instruction (assumption log 29). -/
def State.nextWord (s : State) (q : Nat) : Nat × BitVec 512 × Bool :=
  let x := s.seq q
  let k := s.kern q
  let e := x.kt k.kernel
  match k.prog with
  | some l =>
    let i := ktBase e + Config.translatedWord l k.pos (s.part (s.seqP q)).tiles % max 1 (ktLength e)
    (i, BitVec.ofNat 512 (pack [(0, 1), (31, ktOpBase e + k.pos)]), smGet false x.cmemBad i)
  | none =>
    let i := ktBase e + k.pos
    (i, smGet 0 x.cmem i, smGet false x.cmemBad i)

/-- Entry-index and set checks of a beat's primes (R109): PARAM_RANGE. -/
def State.primesBad (s : State) (x : Seq) (tiles : Nat) (w : BitVec 512) (k : Nat) : Bool :=
  let needs := wRing w != 0 || wExch w != 0
  let setBad := fun i e => match s.pset? i with
    | some ps => decide (ps.primes.length ≤ e)
    | none => true
  let slots := fun n => tiles / max 1 (slotTiles tiles n)
  let top := max (if wRing w = 0 then 1 else slots (wLogN w)) (if wExch w = 0 then 1 else slots (wLogX w))
  let r := x.reg (cw w 47 44)
  ((needs || wMode w == 1) && primeRegBad x w)
    || (needs && (upTo top).any (fun u => setBad (primeSel x w k u).1 (primeSel x w k u).2))
    || (wMode w == 1 && (setBad (bits r 3 0) (primeSel x w k 0).2
          || setBad (bits r 3 0) (bits r 14 8 + wMat w 22 16 + 1)))

/-- The Galois element a word's ROT_SEL register names (R47, R48). -/
def rotOperand (x : Seq) (w : BitVec 512) : Nat × Bool :=
  let r := x.reg (wRotSel w)
  if bit r 33 then (r % 2 ^ 32, true) else (galoisOf (wLogX w) (r % 2 ^ 32) (bit r 32), false)

/-- The ROT_SEL register breaks Table 4-9. -/
def rotRegBad (x : Seq) (w : BitVec 512) : Bool :=
  let r := x.reg (wRotSel w)
  decide (2 ^ 34 ≤ r) || (bit r 33 && bit r 32)

/-- State of the matrix run at issue: mode (0: none open) and beats. -/
structure MatRun where
  mode : Nat := 0
  beats : Nat := 0
  deriving DecidableEq, Repr

/-- One matrix beat at issue (R180): MATRIX_SEQUENCE, or the run after it. -/
def matIssue (w : BitVec 512) (total k : Nat) (r : MatRun) : Bool × MatRun :=
  let m := wMode w
  let r := if wMat w 3 3 = 1 ∧ k = 0 then { mode := m, beats := 0 } else r
  let bad := r.mode != m || (m == 1 && decide (16 ≤ r.beats))
    || (m == 1 && k == 0 && wRepeatSrc w != 0 && decide (16 < total))
  let last := k + 1 == total && wMat w 4 4 == 1
  (bad, if last then {} else { r with beats := r.beats + 1 })

/-- The lowest of some codes; 0 where there is none. -/
def lowestCode (l : List Nat) : Nat := l.foldl (fun a b => if b ≠ 0 ∧ (a = 0 ∨ b < a) then b else a) 0

/-- The REPEAT_SRC register breaks Table 4-9. -/
def repeatRegBad (x : Seq) (w : BitVec 512) : Bool := wRepeatSrc w != 0 && decide (2 ^ 16 ≤ x.reg (wRepeatSrc w % 16))

/-- A vector word without DEQ whose mask position or logical index would leave its operand (R187): more than 8 beats from
REPEAT_SRC. -/
def vecBeatsBad (w : BitVec 512) (total : Nat) : Bool :=
  let v := wVop w
  v != 0 && wRepeatSrc w != 0 && wVec w 5 5 == 0 && decide (8 < total)
    && (wVec w 20 19 == 2 || v == 12 || v == 13 || v == 19 || wVec w 18 18 == 1)

/-- Codes of a word's registers that need no beat (R93, R109): REPEAT_SRC and, with ROT_LATCH, ROT_SEL. -/
def State.wordCodes (s : State) (q : Nat) (w : BitVec 512) : List Nat :=
  let x := s.seq q
  let ro := rotOperand x w
  let op := bits (smGet 0 x.optab (wOpid w)).toNat 15 0
  (if repeatRegBad x w || (wRotLatch w && rotRegBad x w) then [cParamRange] else [])
    ++ (if wRotLatch w && !(wFirst w && op == oRot) && ro.2 && galoisBad (wLogX w) ro.1 then [cGaloisElement] else [])

/-- Codes of a word's kick, tile by tile (R156). -/
def State.kickCodes (s : State) (q : Nat) (w : BitVec 512) : List Nat :=
  if wKick w then (s.partTiles (s.seqP q)).map (fun t => s.kickCode (s.seq q) t (wSlot w)) else []

/-- A control word's kick that a tile's slot refuses is recorded in that slot (Table 6-9). -/
def State.kickRefused (s : State) (q : Nat) (w : BitVec 512) : State :=
  if ¬ wKick w then s
  else s.each (s.partTiles (s.seqP q)) (fun t x =>
    let c := s.kickCode (s.seq q) t (wSlot w)
    if c = 0 then x else x.modSlot t (wSlot w) (fun y => { y with error := true, errCode := c }))

/-- Sequencer-stage checks of beat k (Table 15-8, R402): 0 or the lowest code; the matrix run after the beat. -/
def State.seqCode (s : State) (q : Nat) (w : BitVec 512) (total k : Nat) (mr : MatRun) : Nat × Nat × MatRun :=
  let x := s.seq q
  let p := s.seqP q
  let tiles := (s.part p).tiles
  let units := wordUnits false w
  let last := k + 1 == total
  let ss := (units.map (fun u => unitSrcs x tiles w u.1 k)).flatten
  let ds := (units.map (fun u => unitDsts x tiles w u.1 k last)).flatten
  let array := ((units.filter (fun u => u.1 != 3)).map (fun u =>
    unitSrcs x tiles w u.1 k ++ unitDsts x tiles w u.1 k last)).flatten
  let m := if wMode w = 0 then (false, mr) else matIssue w total k mr
  let addr := (ss ++ ds).any spanBad || (usedGens w).any (fun g => genBaseBad x (cwGen w g))
  let param := s.primesBad x tiles w k || (wRing w == 7 && decide (2 ^ 36 ≤ x.reg (wConst w))) || vecBeatsBad w total
  let overlap := wExch w != 0 && (match unitSrcs x tiles w 3 k, unitDsts x tiles w 3 k last with
    | [a], [b] => spansMeet (a.1, a.1 + a.2.1) (b.1, b.1 + b.2.1)
    | _, _ => false)
  let asleep := (s.partTiles p).findIdx? (fun t => (array.map toSpan).any (fun r => !s.rowsAwake t r.row r.rows))
  let kicks := if k = 0 then s.kickCodes q w else []
  let c := lowestCode ((if addr then [cAddressRange] else []) ++ (if param then [cParamRange] else [])
    ++ (if k = 0 then s.wordCodes q w else []) ++ (if overlap then [cOperandOverlap] else [])
    ++ (if m.1 then [cMatrixSequence] else []) ++ (if asleep.isSome ∧ ¬ addr then [cBankAsleep] else []) ++ kicks)
  let tile := if c = cBankAsleep then asleep.getD 0
    else if kicks.contains c ∧ c ≠ 0 then (kicks.findIdx? (· == c)).getD 0 else 0
  (c, tile, m.2)

/-- What the header checks of an OP_FIRST word are given (R110, Table 5-5). -/
def State.opReq (s : State) (q : Nat) (w : BitVec 512) : OpReq :=
  let x := s.seq q
  let e := (smGet 0 x.optab (wOpid w)).toNat
  let k := s.kern q
  let o := bits e 15 0
  let ro := rotOperand x w
  let id := wOpid w
  { opcode := o, a := smGet {} x.hdrs (bits e 39 32), b := smGet {} x.hdrs (bits e 47 40)
    pset := s.pset? (bits e 51 48), noise := fun sc => s.noise? (bits e 51 48) sc
    imm8 := bits e 63 56
    -- the constant of a CMULI's words stands in no operation-table field: free (assumption log 3)
    constZero := Config.freeAt s.free 0 % 2 == 1, constLog := Config.freeNat s.free % 2 ^ 16
    direct := if o = oRot ∧ wRotLatch w ∧ ro.2 then some ro.1 else none
    keyTag := smGet 0 k.keyTags id, targetTag := smGet 0 k.targetTags id, stop := k.poisonStop }

/-- What a kick latches for a key load (R61). -/
def State.keyLatch (s : State) (q : Nat) (w : BitVec 512) : KeyLatch :=
  let x := s.seq q
  let e := (smGet 0 x.optab (wOpid w)).toNat
  let o := bits e 15 0
  let h := smGet {} x.hdrs (bits e 39 32)
  let ps := s.pset (bits e 51 48)
  let r := x.reg (wRotSel w)
  { keyTag := h.keyTag, psetId := h.psetId, scheme := h.scheme, logN := h.logN
    limbs := if o = oEncpk then ps.width * (bits e 63 56 + 1) else h.limbs
    kind := keyKind o
    galois := if bit r 33 then r % 2 ^ 32 else galoisOf h.logN (r % 2 ^ 32) (bit r 32)
    dnum := ps.dnum, publicKey := o == oEncpk }

/-- The width check of a FLOOD's OP_FIRST word (R79), a check of the Sequencer stage (Table 15-8): 0 or its code. -/
def State.floodCode (s : State) (q : Nat) (w : BitVec 512) : Nat :=
  let e := (smGet 0 (s.seq q).optab (wOpid w)).toNat
  if wFirst w ∧ bits e 15 0 = oFlood then floodWidthCode (bits e 63 56) else 0

/-- The Binding stage of a control word (R49, R126, Table 15-8): 0 or a code. The rows of the operation-table entry stand for the
destination and work regions, their capacity the whole limbs those rows hold in every limb slot; an entry that names 0 rows
names no region to judge: the model's reading (assumption log 37). -/
def State.rowsBinding (s : State) (q e : Nat) (a h : Header) : Nat :=
  let o := bits e 15 0
  let tiles := (s.part (s.seqP q)).tiles
  let ps := s.pset (bits e 51 48)
  let g := slotTiles tiles h.logN
  let room := fun (rows : Nat) => tiles / max 1 g * (rows / max 1 (2 ^ h.logN / max 1 g * 9 / 256))
  let dr := bits e 159 144
  let wr := bits e 191 176
  let meet := hasWork o && spansMeet (bits e 143 128, bits e 143 128 + dr) (bits e 175 160, bits e 175 160 + wr)
  let short := (dr != 0 && decide (room dr < h.comps * (h.limbs + h.specials)))
    || (hasWork o && wr != 0 && decide (room wr < (ps.dnum + 2) * (a.limbs + ps.pcount)))
  if meet then cOperandOverlap else if short then cBindingShort else 0

/-- The checks of an OP_FIRST word: FLOOD's width (R79), the header checks (R110), the binding (R126). -/
def State.opVerdict (s : State) (q : Nat) (w : BitVec 512) : Verdict :=
  let e := (smGet 0 (s.seq q).optab (wOpid w)).toNat
  if wFirst w ∧ bits e 15 0 / 256 = 3 then
    let fl := s.floodCode q w
    if fl ≠ 0 then { code := fl, stage := stSeq }
    else
      let v := checkHeaders (s.opReq q w)
      let b := s.rowsBinding q e (s.opReq q w).a v.hdr
      if v.code = 0 ∧ b ≠ 0 then { code := b, stage := stBind } else v
  else {}

/-- A word of a suppressed operation (R111): its OP_FIRST word's verdict says so, or the operation's earlier one did. -/
def State.wordSuppressed (s : State) (q : Nat) (w : BitVec 512) : Bool :=
  if wFirst w then (s.opVerdict q w).suppressed else (s.kern q).suppressed.contains (wOpid w)

/-- Record a propagation (R74): counted in the partition's error counters; the first of a job creates a record. -/
def State.countPoison (s : State) (p : Nat) (seen : Bool) (l : ErrLoc) : State :=
  let s := s.modPart p (fun x => { x with poisoned := satInc 32 x.poisoned })
  if seen then s else s.record cPoisonInput l

/-- Headers and kicks of a word's first beat: 0 and the state after them, or a refusal (R110, R156). A suppressed word makes its
kick as a computed one, and one that a slot cannot take is recorded there without a fault (R111; assumption log 37). -/
def State.firstBeat (s : State) (q : Nat) (w : BitVec 512) (i : Nat) : Nat × Nat × State :=
  let e := (smGet 0 (s.seq q).optab (wOpid w)).toNat
  let o := bits e 15 0
  let p := s.seqP q
  let v := s.opVerdict q w
  if v.code ≠ 0 then (v.code, v.stage, s)
  else
    let s := if wFirst w then
        s.modKern q (fun k => { k with suppressed := k.suppressed.filter (· != wOpid w) }) else s
    let s := if wFirst w ∧ o / 256 = 3 then
        let s := s.modSeq q (fun x => { x with hdrs := smSet {} x.hdrs (bits e 31 24) v.hdr })
        { s with free := s.free + 1 }
      else s
    let s := if v.suppressed then
        let k := s.kern q
        let s := s.modKern q (fun k => { k with suppressed := k.suppressed ++ [wOpid w], poisonSeen := true })
        s.countPoison p k.poisonSeen
          { part := p, block := 3, loc0 := v.hdr.poisonCause, loc1 := pack [(0, bits e 79 64), (16, wOpid w)]
            loc2 := (k.owner.map (fun z => z.pkg)).getD 0, loc3 := (k.owner.map (fun z => z.cid)).getD 0 }
      else s
    let s := if wKick w then
        let lt := s.keyLatch q w
        let x := s.seq q
        s.each (s.partTiles p) (fun t y =>
          let c := y.kickCode x t (wSlot w)
          if c ≠ 0 then y.modSlot t (wSlot w) (fun z => { z with error := true, errCode := c })
          else (y.kick x t (wSlot w) (some lt) (some q)).modKern q (fun k =>
            { k with kicks := k.kicks ++ [{ tile := t, slot := wSlot w, opid := wOpid w, word := i }] }))
      else s
    (0, 0, s)

/-- A ROT_LATCH word loads the permutation network at its first beat (R93); a suppressed word reads no register. -/
def State.latchPerm (s : State) (q : Nat) (w : BitVec 512) (c0 : Nat) (supp : Bool) : State :=
  if wRotLatch w ∧ ¬ supp then
    let k := (rotOperand (s.seq q) w).1
    s.modKern q (fun x => { x with permK := some k, permCycle := c0 })
  else s

/-- Record a BANK_COLLISION of a beat in the cycle of its claim (R146). -/
def State.collided (s : State) (q order i : Nat) (b : Beat) (c : Nat) : State :=
  s.modKern q (fun k => { k with faults := k.faults ++
    [{ cycle := c, order := order, stage := if c = b.cycle + 1 then stRead else stWrite, code := cBankCollision
       opid := wOpid b.word, word := i, beat := b.k, replay := b.replay, issued := b.cycle }] })

/-- Put a beat in flight, marking its collisions and those of the beats it meets (R146). -/
def State.launch (s : State) (q order i : Nat) (b : Beat) : State :=
  let mark := fun (y : Nat) (c : Option Nat) (z : Nat) => if c.isNone then y else if y = 0 then z + 1 else min y (z + 1)
  let r := (s.kern q).beats.foldl (fun (acc : Beat × List Beat × List Nat) o =>
    let nb := acc.1
    let c := if nb.suppressed ∨ o.suppressed then (none, none, none, none) else collide nb o
    ({ nb with blockR := mark nb.blockR c.1 o.cycle, blockW := mark nb.blockW c.2.1 o.cycle },
      acc.2.1 ++ [{ o with blockR := mark o.blockR c.2.2.1 nb.cycle, blockW := mark o.blockW c.2.2.2 nb.cycle }],
      acc.2.2 ++ c.1.toList ++ c.2.1.toList)) (b, [], [])
  let s := s.modKern q (fun k => { k with beats := r.2.1 ++ [r.1] })
  r.2.2.foldl (fun s c => s.collided q order i b c) s

/-- The beats a word issues, up to the first one a Sequencer check stops (R109). -/
def State.issueLoop (q : Nat) (w : BitVec 512) (i total c0 order : Nat) (supp : Bool) :
    Nat → Nat → MatRun → State → State × Nat × MatRun
  | 0, k, mr, s => (s, k, mr)
  | left + 1, k, mr, s =>
    let stop := (s.kern q).stopAt.getD (c0 + k + 1)
    if stop ≤ c0 + k then (s, k, mr)
    else
      let fault := fun (st c t : Nat) (ref : Bool) (s : State) => s.addFault q
        { cycle := c0 + k, order := order, stage := st, code := c, opid := wOpid w, word := i, tile := t, beat := k
          refusal := ref, bare := wKind w == 0, replay := (s.kern q).replay }
      let z := if supp then (0, 0, mr) else s.seqCode q w total k mr
      let fl := if k = 0 then s.floodCode q w else 0
      let c := lowestCode [z.1, fl]
      if c ≠ 0 then
        (fault stSeq c (if c = z.1 then z.2.1 else 0) (c == fl) (if k = 0 then s.kickRefused q w else s), k, mr)
      else
        let h := if k = 0 then s.firstBeat q w i else (0, 0, s)
        if h.1 ≠ 0 then (fault h.2.1 h.1 0 true s, k, mr)
        else
          let s := if k = 0 then h.2.2.latchPerm q w c0 supp else h.2.2
          let x := s.seq q
          let kn := s.kern q
          let tiles := (s.part (s.seqP q)).tiles
          let last := k + 1 == total
          let new := (wordUnits (s.seqDies q) w).map (fun u => ({
            cycle := c0 + k, first := c0, k := k, unit := u.1, word := w, idx := i, order := order, lat := u.2
            replay := kn.replay, suppressed := supp, last := last, params := x.params
            srcs := (unitSrcs x tiles w u.1 k).map toSpan, dsts := (unitDsts x tiles w u.1 k last).map toSpan
            permK := kn.permK, permCycle := kn.permCycle } : Beat))
          let s := new.foldl (fun (s : State) b => s.launch q order i b) s
          State.issueLoop q w i total c0 order supp left (k + 1) z.2.2 s

/-- A word that issues no beat (R109): its registers' checks, its header checks and its latch are made, its token is emitted, and
it makes no kick, for want of a first beat: the model's choice (assumption log 37). -/
def State.issueNone (s : State) (q : Nat) (w : BitVec 512) (i c0 order : Nat) (supp : Bool) : State :=
  let fault := fun (st c : Nat) (ref : Bool) => s.addFault q
    { cycle := c0, order := order, stage := st, code := c, opid := wOpid w, word := i, refusal := ref
      bare := wKind w == 0, replay := (s.kern q).replay }
  let fl := s.floodCode q w
  let c := lowestCode (fl :: (if supp then [] else s.wordCodes q w))
  let h := s.firstBeat q (w &&& ~~~(1#512 <<< 56)) i
  if c ≠ 0 then fault stSeq c (c == fl)
  else if h.1 ≠ 0 then fault h.2.1 h.1 true
  else h.2.2.latchPerm q w c0 supp

/-- After a word's beats: the next word, the next replay or the drain, in which the last replay is still the one in progress
(Table 4-14). -/
def State.stepOn (s : State) (q : Nat) : State :=
  let k := s.kern q
  if k.pos + 1 < (s.seq q).kernLen k then s.modKern q (fun k => { k with pos := k.pos + 1 })
  else
    let s := s.modKern q (fun k => { k with pos := 0, replay := k.replay + 1, bounded := false })
    if k.replay + 1 < k.replays then s.modSeq q (fun x => { x with replayIndex := x.replayIndex + 1 })
    else s.modSeq q (fun x => { x with state := 3 })

/-- Operation `o` has begun (Table 4-11). -/
def Kern.begin (k : Kern) (o : Nat) : Kern := { k with begun := if k.begun.contains o then k.begun else k.begun ++ [o] }

/-- Issue the next word at the current schedule cycle (R86 to R93, R110, R111). -/
def State.issueWord (s : State) (q : Nat) : State :=
  let c0 := (s.seq q).count
  let (i, w, bad) := s.nextWord q
  let k := s.kern q
  let order := k.nextOrder
  let x := s.seq q
  let s := s.modKern q (fun k => { (if wKind w = 1 then k.begin (wOpid w) else k) with
    nextOrder := order + 1, popped := 0, waitSince := none, bridgeBad := false })
  let s := s.modSeq q (fun x => { x with state := 1 })
  let fault := fun (st c : Nat) (s : State) => s.addFault q
    { cycle := c0, order := order, stage := st, code := c, opid := wOpid w, word := i, bare := wKind w == 0
      replay := k.replay }
  if bad then fault stFetch cCmemUncorrectable s
  else if k.bridgeBad ∧ s.seqDies q then fault stWrite cBridgeUncorrectable s
  else
    let total := wordBeats x w
    let mr : MatRun := { mode := k.matMode, beats := k.matBeats }
    let supp := s.wordSuppressed q w
    let r := if total = 0 then (s.issueNone q w i c0 order supp, 0, mr)
      else State.issueLoop q w i total c0 order supp total 0 mr s
    let s := r.1
    let n := r.2.1
    let whole := n == total && (s.kern q).stopAt.getD (c0 + n + 1) > c0
    let s := s.modSeq q (fun x => { x with count := c0 + n })
    if whole then
      let s := s.modKern q (fun k => { k with
        matMode := r.2.2.mode, matBeats := r.2.2.beats
        words := k.words ++ [{ word := w, idx := i, order := order, replay := k.replay
                               lastBeat := if n = 0 then c0 else c0 + n - 1
                               retire := if n = 0 then c0 else c0 + n - 1 + wordLat (s.seqDies q) w }]
        ended := (k.ended.filter (fun o => o != wOpid w || !wFirst w)) ++ (if wLast w then [wOpid w] else []) })
      (s.stepOn q).settle q
    else
      -- a word that did not issue whole emits nothing, and its operation is not complete
      (s.modKern q (fun k => { k with ended := k.ended.filter (· != wOpid w) })).settle q

/-- Frozen cycles per 64-cycle window of sequencer Qq: the larger duty of the dies that hold its partition's tiles (R377). -/
def State.seqDuty (s : State) (q : Nat) : Nat :=
  match s.seqPart q with
  | some p => ((s.partTiles p).map (fun t => smGet 0 s.pwr.dutyFrozen (t / 32))).foldl max 0
  | none => 0

/-- A sequencer under a duty has run the cycles its window leaves it: it is frozen until the next window (R377). -/
def State.dutySpent (s : State) (q : Nat) : Bool :=
  let n := s.seqDuty q
  n != 0 && decide ((s.kern q).windowAt + 64 ≤ (s.seq q).count + n)

/-- The array does not run while its clock slews (R88, R105, R376), is stopped or off in a power state below A0 (Table 14-1), or is
frozen for the rest of a duty window (R377). -/
def State.arrayFrozen (s : State) (q : Nat) : Bool :=
  s.pwr.frozen || (s.pwr.state != 0 && s.pwr.state != 4) || s.dutySpent q

/-- The next event a running array can reach: one at or before the schedule cycle, or any while it drains. -/
def State.dueEvent (s : State) (q : Nat) : Option Ev :=
  match (s.kern q).next with
  | some e => if s.arrayFrozen q then none else if (s.seq q).state = 3 ∨ e.key ≤ 2 * (s.seq q).count then some e else none
  | none => none

/-- BEAT_READ (R95, R97): the oldest beat not yet read reads its operands, after the events before it. -/
def execBeatRead (q : Nat) (s : State) : Out :=
  guarded (decide (q < 8)) <|
    match (s.kern q).beats.find? (fun b => !b.read) with
    | none => s
    | some b =>
      if s.arrayFrozen q ∨ ¬ ((s.seq q).state = 3 ∨ b.cycle + 1 ≤ (s.seq q).count) then s
      else (State.catchUp q (2 * b.cycle + 1) (s.kern q).fuel s).settle q

/-- An exchange beat arrives with an uncorrectable bridge error: it moves nothing, and the kernel stops at its arrival (R112,
R116). -/
def State.bridgeFault (s : State) (q : Nat) (b : Beat) : State :=
  (s.modKern q (fun k =>
    { k with beats := k.beats.filter (fun x => !(x.order == b.order && x.cycle == b.cycle && x.unit == b.unit)) })).addFault q
    { cycle := b.arrival, order := b.order, stage := stWrite, code := cBridgeUncorrectable, opid := wOpid b.word
      word := b.idx, beat := b.k, replay := b.replay }

/-- BEAT_WRITE (R96, R184, R185): the next beat in its write stage pushes, arrives or writes, once it may. -/
def execBeatWrite (q : Nat) (bridgeBad : Bool) (s : State) : Out :=
  guarded (decide (q < 8)) <|
    match s.dueEvent q with
    | some (.arrive b) =>
      if bridgeBad ∧ s.seqDies q ∧ ¬ b.suppressed then s.bridgeFault q b else (s.fire q (.arrive b)).settle q
    | some (.write b) => (s.writeBeat q b).settle q
    | some (.push b) => (s.fire q (.push b)).settle q
    | _ => s

/-- WORD_RETIRE (R95, R103): the next word retires and emits its token. -/
def execWordRetire (q : Nat) (s : State) : Out :=
  guarded (decide (q < 8)) <|
    match s.dueEvent q with
    | some (.retire f) => (s.retireWord q f).settle q
    | _ => s

/-! ### Waits and replays -/

/-- Every tile of a partition holds n tokens in queue w. -/
def State.tokensReady (s : State) (p w n : Nat) : Bool :=
  (s.partTiles p).all (fun t => decide (n ≤ (s.tokens t w).length))

/-- Remove n tokens of queue w from every tile of a partition (R101). -/
def State.takeTokens (s : State) (p w n : Nat) : State :=
  s.each (s.partTiles p) (fun t y => y.each (upTo n) (fun _ z => z.takeToken t w))

/-- What the n tokens at the head of queue w of every tile carry (R102, R113): the lowest bad STATUS, 0 for none, and the
lowest partition tile that holds it. -/
def State.tokenStatus (s : State) (p w n : Nat) : Nat × Nat :=
  let per := (s.partTiles p).map (fun t => ((s.tokens t w).take n).map (fun z => z.status))
  let c := lowestCode per.flatten
  (c, if c = 0 then 0 else (per.findIdx? (fun l => l.contains c)).getD 0)

/-- A wait of the kernel ends with a fault: none (0) stops nothing. -/
def State.waitFault (s : State) (q c tile : Nat) (byToken keyAbort : Bool) : State :=
  let x := s.seq q
  let k := s.kern q
  let (i, w, _) := s.nextWord q
  (s.modSeq q (fun x => { x with state := 1 })).addFault q
    { cycle := x.count, order := k.nextOrder, stage := stWait, code := c, opid := wOpid w, word := i, tile := tile
      byToken := byToken, keyAbort := keyAbort, bare := wKind w == 0, replay := k.replay }

/-- The limit of a wait that began at t has passed (R104); a limit of 0 disables it. -/
def State.waitOver (s : State) (q t : Nat) : Bool :=
  (s.seq q).waitLimit != 0 && decide ((s.seq q).waitLimit * Config.ticksPerUs < s.now - t)

/-- Apply a patch set (Table 4-8). -/
def applySet (m : SMap Word) (l : List Patch) : SMap Word :=
  l.foldl (fun m p => smSet 0 m p.param (if p.add then smGet 0 m p.param + p.value else p.value)) m

/-- REPLAY_BOUNDARY (R87, R105, R108): patch set r is applied and one cycle spent. A set not yet fetched is a wait on the
replay fetcher's token; a token with an error and an invalid set stop the kernel. -/
def execReplayBoundary (q : Nat) (s : State) : Out :=
  guarded (decide (q < 8)) <|
    let x := s.seq q
    let k := s.kern q
    if x.kern.isNone ∨ k.bounded ∨ (x.state ≠ 1 ∧ x.state ≠ 2) ∨ s.arrayFrozen q then s
    else
      let s := (s.advance q x.count).settle q
      if (s.seq q).state = 3 then s
      else
        let go := fun (s : State) => (s.modSeq q (fun x => { x with count := x.count + 1, state := 1 })).modKern q (fun k =>
          { k with bounded := true, waitSince := none })
        let p := s.seqP q
        let rq := Config.replayQueue % 16
        if k.noList then go s
        else if (k.sets.isEmpty && k.fetchBad.isNone) || !s.tokensReady p rq 1 then
          if x.state = 2 then s
          else (s.modSeq q (fun x => { x with state := 2 })).modKern q (fun k => { k with waitSince := some s.now })
        else
          let st := s.tokenStatus p rq 1
          let s := s.takeTokens p rq 1
          match k.sets with
          | l :: r =>
            if st.1 ≠ 0 then s.waitFault q st.1 st.2 true false
            else go ((s.modSeq q (fun x => { x with params := applySet x.params l })).modKern q (fun k => { k with sets := r }))
          | [] => s.waitFault q (if st.1 ≠ 0 then st.1 else k.fetchBad.getD 0) st.2 (st.1 != 0) false

/-- Read patch entries until one has LAST: entries, or none where the set breaks R108. -/
def readSet (m : Mem) : Nat → Nat → Option (List Patch)
  | 0, _ => none
  | fuel + 1, a =>
    let v := memLE m a 16
    if bits v 63 6 ≠ 0 then none
    else
      let p : Patch := { param := bits v 3 0, add := bit v 4, value := BitVec.ofNat 64 (bits v 127 64) }
      if bit v 5 then some [p] else (readSet m fuel (a + 16)).map (fun r => p :: r)

/-- Entries of the set at a, counted up to 16. -/
def setLength (m : Mem) : Nat → Nat → Nat
  | 0, _ => 0
  | fuel + 1, a => if bit (memLE m a 16) 5 then 1 else 1 + setLength m fuel (a + 16)

/-- REPLAY_FETCH (R100, R108): the next patch set is read from the replay list ahead of use, and the fetcher places its token
in the named queue of every tile; a memory code is the token's STATUS. A set that reaches outside the partition's stacks is not
read (R3) and is invalid. The queue and the TAG are open (assumption log 37). -/
def execReplayFetch (q : Nat) (s : State) : Out :=
  guarded (decide (q < 8)) <|
    let x := s.seq q
    let k := s.kern q
    if x.kern.isNone ∨ k.noList ∨ k.fetchBad.isSome ∨ k.replays ≤ k.setsFetched then s
    else
      let a := x.replayBase + 16 * k.fetched
      let n := setLength s.mem 16 a
      let inside := s.inStacks (s.seqP q) a (16 * n)
      let c := if inside then s.rangeCode a (16 * n) else 0
      let s := if inside then (s.memFault (s.seqP q) 3 (linesOf a (16 * n)) c).touch a (16 * n) else s
      let s := if ¬ inside then s.modKern q (fun k => { k with fetchBad := some cReplayInvalid })
        else if c ≠ 0 then s.modKern q (fun k => { k with fetchBad := some c })
        else
          match readSet s.mem 16 a with
          | none => s.modKern q (fun k => { k with fetchBad := some cReplayInvalid })
          | some l => s.modKern q (fun k => { k with sets := k.sets ++ [l], fetched := k.fetched + l.length
                                                     setsFetched := k.setsFetched + 1 })
      let d := s.draw
      d.2.emitPart (s.seqP q) (Config.replayQueue % 16) { status := c, source := 5, tag := d.1 % 256 }

/-! ### Start, stop, completion -/

/-- SEQ_FAULT as read (Table 4-15). -/
def seqFault (x : Seq) : Nat :=
  pack [(0, x.fOpid), (11, x.fWord), (26, x.fTile), (32, x.fBeat), (48, b2n x.fByToken)]

/-- Empty the accumulators and finished-tile queues of a partition (R180). -/
def State.clearMatrix (s : State) (p : Nat) : State :=
  s.each (s.partTiles p) (fun t x => x.modTile t (fun y => { y with acc0 := [], acc1 := [], finq := [], finPart := 0 })) |>.modPart p (fun x =>
    { x with mmulQ := none })

/-- Post a RUN's completion, or hold it while the runtime core is down (R337, R406). -/
def State.postRun (s : State) (p : Nat) (o : Option RunOwner) (status result : Nat) : State :=
  match o with
  | none => s
  | some o =>
    let c := (s.part p).core
    if (s.core c).state = 0 then s.postOwner o status result
    else s.modCore c (fun x => { x with pendingPosts := x.pendingPosts ++ [(o, status, result)] })

/-- The completion token of a kernel, and the completion of the RUN it served (R107, R114). Its TAG is free. -/
def State.kernelDone (s : State) (q p : Nat) (o : Option RunOwner) (code : Nat) : State :=
  let x := s.seq q
  let (t, s) := s.draw
  let s := s.emitRuntime p { status := code, source := 2, tag := t % 256 }
  s.postRun p o code (if code = 0 then x.count else seqFault x)

/-- A kernel that completes at once (R107). -/
def State.kernelAtOnce (s : State) (q : Nat) (o : Option RunOwner) (code : Nat) : State :=
  let s := s.modSeq q (fun x => { x with
    done := true, fault := x.fault || code != 0, faultCode := code, count := 0, replayIndex := 0
    fOpid := 0, fWord := 0, fTile := 0, fBeat := 0, fByToken := false })
  match s.seqPart q with
  | some p => s.kernelDone q p o code
  | none => s

/-- Start a kernel (R82, R107, R190): shared by START and RUN. It clears the partition's bindings, so an entry that only an earlier
kernel bound counts as unbound at CTX_SAVE (R141: the model's choice, assumption log 38). -/
def State.startKernel (s : State) (q kernel replays : Nat) (noList : Bool) (o : Option RunOwner) : State :=
  let x := s.seq q
  if x.state ≠ 0 then s.modSeq q (fun x => { x with dropped := true })
  else
    let s := s.modSeq q (fun x => { x with kernel := kernel, replays := replays, noList := noList })
    match s.seqPart q with
    | none => s.kernelAtOnce q o cKernelInvalid
    | some p =>
      if ¬ ktValid (x.kt kernel) then s.kernelAtOnce q o cKernelInvalid
      else if replays = 0 then s.kernelAtOnce q o 0
      else
        let s := (s.stir.clearMatrix p).each (s.partTiles p) (fun t y => y.modTile t (fun z =>
          { z with mask0 := BitVec.allOnes 4096, mask1 := BitVec.allOnes 4096 }))
        let prog := s.progOf p kernel
        -- header operands are bound anew in every kernel (R126)
        let s := s.modPart p (fun z => { z with
          poisonSeen := false, masks := [], binds := if prog.isSome then [] else z.binds })
        s.modSeq q (fun x => { x with
          state := 1, count := 0, replayIndex := 0
          kern := some { kernel := kernel, replays := replays, noList := noList, owner := o, prog := prog
                         poisonStop := (s.part p).poisonStop } })

/-- A sequencer takes no command while the module is halted (R404, R382). -/
def State.unlessHalted (s : State) (f : State → State) : State := if s.haltCode = 0 then f s else s

/-- Stop the running kernel at its next issue (R113). -/
def State.stopKernel (s : State) (q : Nat) : State :=
  let x := s.seq q
  if x.state = 1 ∨ x.state = 2 then
    let (i, w, _) := s.nextWord q
    (s.modSeq q (fun x => { x with state := 1 })).addFault q
      { cycle := x.count, order := (s.kern q).nextOrder, stage := stStop, code := cStopped, opid := wOpid w, word := i
        bare := wKind w == 0, replay := (s.kern q).replay }
  else s

/-- The fault a kernel reports (R113): earliest cycle, then earliest word, then stage, then code; the lowest tile that detected it
(R97). -/
def Kern.report (k : Kern) : FaultRec :=
  k.faults.foldl (fun a b =>
    let l := fun (f : FaultRec) => [f.cycle, f.order, f.stage, f.code, f.tile]
    if l b < l a then b else a) (k.faults.headD {})

/-- The operation-table entry names a header-file destination. -/
def hasHeaderDst (o : Nat) : Bool := o / 256 == 3 || o == 0x100 || o == 0x502 || o == 0x503 || o == 0x504

/-- Apply the Aborted class of Table 4-11 to an operation: the rows its operation-table entry names, or those of the regions of a
package's instruction, which hold nothing else (R130; assumption log 29). -/
def State.abortOp (s : State) (q p opid : Nat) : State :=
  let e := (smGet 0 (s.seq q).optab opid).toNat
  let k := s.kern q
  let s := match k.prog with
    | some l => s.dropRegions p (bits e 15 0) (gInstrOf (l.getD (opid - ktOpBase ((s.seq q).kt k.kernel)) 0).toNat)
    | none => s.each (s.partTiles p) (fun t x =>
    (x.invalidRows t (bits e 143 128) (bits e 159 144)).invalidRows t (bits e 175 160) (bits e 191 176))
  if hasHeaderDst (bits e 15 0) then
    s.modSeq q (fun x => { x with hdrs := smMod {} x.hdrs (bits e 31 24) (fun h => { h with valid := false }) })
  else s

/-- Emit once each token the words of a refused operation would emit, with the code (R73). -/
def State.refusedTokens (s : State) (q opid code : Nat) : State :=
  let x := s.seq q
  let e := x.kt (s.kern q).kernel
  s.each (upTo (ktLength e)) (fun j y =>
    let w := smGet 0 x.cmem (ktBase e + j)
    if wKind w = 1 ∧ wOpid w = opid ∧ wEmitEn w then (y.emitWord q w code).1 else y)

/-- The operations in class Aborted of Table 4-11: those with a faulting word and those that began and did not issue every
word, apart from one that was refused. -/
def Kern.aborted (k : Kern) : List Nat :=
  let f := k.report
  let hit := (k.faults.filter (fun e => !e.bare && !e.refusal)).map (fun e => e.opid)
  ((k.begun.filter (fun o => !k.ended.contains o)) ++ hit).eraseDups.filter (fun o =>
    !(f.refusal && o == f.opid))

/-- The drain and end of a stopped kernel (R113, R114, Table 4-11). -/
def State.drainEnd (s : State) (q : Nat) : State :=
  let s := s.drainAll q
  let k := s.kern q
  let p := s.seqP q
  let f := k.report
  let s := s.modSeq q (fun x => { x with
    count := f.cycle, fault := true, faultCode := f.code, fOpid := f.opid, fWord := f.word, fTile := f.tile
    fBeat := f.beat, fByToken := f.byToken, replayIndex := f.replay })
  let s := s.each k.aborted (fun o x => x.abortOp q p o)
  let s := if f.refusal ∨ f.keyAbort then s.refusedTokens q f.opid f.code else s
  let s := s.each ((k.kicks.filter (fun e => !e.ended)).map (fun e => e.tile * 24 + e.slot)) (fun z x => x.abortSlot (z / 24) (z % 24))
  let s := (s.flushTokens p).clearMatrix p
  let late := (k.faults.filter (fun e => decide (f.cycle < e.cycle))).length
  let s := s.modPart p (fun x => { x with drained := min (x.drained + late) (2 ^ 16 - 1) })
  let loc : ErrLoc := { part := p, block := 3, loc0 := seqFault (s.seq q), loc1 := f.cycle
                        loc2 := (k.owner.map (fun z => z.pkg)).getD 0, loc3 := (k.owner.map (fun z => z.cid)).getD 0 }
  let s := if f.code / 256 = 1 ∨ f.code / 256 = 2 ∨ f.code = cBankAsleep then
      (if f.code = cPoisonInput then (if k.poisonSeen then s else s.record f.code loc) else s.report f.code loc) else s
  let s := s.kernelDone q p k.owner f.code
  s.modSeq q (fun x => { x with state := 0, done := true, kern := none })

/-- KERNEL_COMPLETE (R430): the last word has retired and every kicked run has ended; a run that ended with a fault gives the
kernel its code. -/
def execKernelComplete (q : Nat) (s : State) : Out :=
  guarded (decide (q < 8)) <|
    let x := s.seq q
    if x.state ≠ 3 ∨ (s.kern q).faults ≠ [] ∨ s.arrayFrozen q then s
    else
      let s := s.drainAll q
      let k := s.kern q
      let p := s.seqP q
      if k.faults ≠ [] ∨ k.kicks.any (fun e => !e.ended) then s
      else
        let idle := fun (x : Seq) => { x with state := 0, done := true, kern := none, replayIndex := k.replays }
        match k.kicks.find? (fun e => e.code != 0) with
        | some e =>
          let s := s.modSeq q (fun x => { x with fault := true, faultCode := e.code, fOpid := e.opid, fWord := e.word
                                                 fTile := 0, fBeat := 0, fByToken := true })
          let s := s.flushTokens p
          (s.kernelDone q p k.owner e.code).modSeq q idle
        | none => (s.kernelDone q p k.owner 0).modSeq q idle

/-! ### Loads, kernel table, parameters -/

/-- Ranges [a, a+m) and [b, b+n) overlap. -/
def rangesMeet (a m b n : Nat) : Bool := decide (0 < m) && decide (0 < n) && decide (a < b + n) && decide (b < a + m)

/-- The words or operation-table entries of a kernel-table entry meet a load's target. -/
def ktMeets (e : BitVec 64) (table : Bool) (dest count : Nat) : Bool :=
  if table then rangesMeet dest count (ktOpBase e) (ktOpCount e) else rangesMeet dest count (ktBase e) (ktLength e)

/-- Load words one by one; the first failed word stops the load (R106). A source line that carries a memory code ends it with
LOAD_INVALID: the rule lists no such case, and the code is the model's choice (assumption log 37). -/
def State.loadWords (q tiles : Nat) : Nat → Nat → Nat → State → State
  | 0, _, _, s => s
  | n + 1, d, a, s =>
    let w := BitVec.ofNat 512 (s.loadLE a 64)
    let c := s.rangeCode a 64
    let s := s.touch a 64
    if c ≠ 0 then s.modSeq q (fun x => { x with ldError := true, ldErrCode := cLoadInvalid })
    else if wordBad tiles w then s.modSeq q (fun x => { x with ldError := true, ldErrCode := cWordInvalid })
    else
      State.loadWords q tiles n (d + 1) (a + 64)
        (s.modSeq q (fun x => { x with cmem := smSet 0 x.cmem d w, cmemBad := smSet false x.cmemBad d false }))

/-- Load operation-table entries. -/
def State.loadEntries (q : Nat) : Nat → Nat → Nat → State → State
  | 0, _, _, s => s
  | n + 1, d, a, s =>
    let c := s.rangeCode a 32
    let s := s.touch a 32
    if c ≠ 0 then s.modSeq q (fun x => { x with ldError := true, ldErrCode := cLoadInvalid })
    else State.loadEntries q n (d + 1) (a + 32) (s.modSeq q (fun x => { x with optab := smSet 0 x.optab d (BitVec.ofNat 256 (s.loadLE a 32)) }))

/-- LOAD_COMPLETE (R106): the running load ends, each word checked under R94. -/
def execLoadComplete (q : Nat) (s : State) : Out :=
  guarded (decide (q < 8)) <|
    let x := s.seq q
    if ¬ x.ldBusy then s
    else
      let s := if x.runTable then State.loadEntries q x.runCount x.runDest x.runSrc s
        else State.loadWords q (s.part (s.seqP q)).tiles x.runCount x.runDest x.runSrc s
      s.modSeq q (fun x => { x with ldBusy := false })

/-- The ranges of a kernel-table value fail (Table 4-16). -/
def ktBad (v : BitVec 64) : Bool :=
  ktValid v && (ktLength v == 0 || ktOpCount v == 0 || decide (32768 < ktBase v + ktLength v)
    || decide (2048 < ktOpBase v + ktOpCount v))

/-- Write a kernel-table entry (Table 4-16). -/
def State.writeKtab (s : State) (q e : Nat) (v : Word) : State :=
  let x := s.seq q
  let busy := match x.kern with
    | some k => k.kernel == e
    | none => false
  let v := v &&& (BitVec.ofNat 64 (2 ^ 55 - 1))
  if busy then s
  else if ktBad v then
    s.modSeq q (fun x => { x with ktab := smSet 0 x.ktab e (v &&& ~~~(1#64 <<< 31)), ldError := true, ldErrCode := cLoadInvalid })
  else s.modSeq q (fun x => { x with ktab := smSet 0 x.ktab e v })

/-- Write a parameter register (R109): only while the sequencer is idle. -/
def State.writeParam (s : State) (q r : Nat) (v : Word) : State :=
  if (s.seq q).state = 0 then s.modSeq q (fun x => { x with params := smSet 0 x.params r v })
  else s.modSeq q (fun x => { x with dropped := true })

end Sys2Proof.Machine
end

