-- ==== Sys2Proof/Machine/StreamCmds.lean ====
section
/-! DEFINITION. The stream commands (R155 to R177) and the Badger commands (R229 to R233). -/

namespace Sys2Proof.Machine

/-- Store word w of a slot's descriptor. -/
def putWord (d : BitVec 512) (w : Nat) (v : Word) : BitVec 512 :=
  BitVec.ofNat 512 (d.toNat % 2 ^ (64 * w) + (v.toNat <<< (64 * w)) + (d.toNat >>> (64 * (w + 1))) <<< (64 * (w + 1)))

/-- FETCH_STATUS as read: contexts in use and the high-water mark since the last read. -/
def fetchStatus (x : Tile) : Nat := pack [(0, x.ctxUsed), (11, x.ctxHigh)]

/-- BLOCK_LIST_READ (R157): the next entry of an ACTIVE run's list. A memory fault ends the run (R174). -/
def execBlockListRead (t i : Nat) (s : State) : Out :=
  guarded (slotOk t i) <|
    let x := s.slot t i
    let r := s.run t i
    let j := r.blocks.length
    let a := sd x.desc 255 192 + 32 * j
    if x.state = 2 ∧ j < sdBlocks x.desc ∧ (sdOp x.desc ≠ 4 ∨ r.keyChecked) then
      let c := s.fetchCode t a 32
      let s := s.touch a 32
      if c ≠ 0 then (s.tileFault t [a] c).runFault t i c
      else s.modRun t i (fun r => { r with blocks := r.blocks ++ [{ entry := s.entryAt x.desc j }] })
    else s

/-- A run waits for its header or its key check before any block (R167, R168, R169). -/
def headerPending (d : BitVec 512) (r : StreamRun) : Bool :=
  (sdOp d == 2 && sdCt d && !r.headerDone) || (sdOp d == 4 && !r.keyChecked) || (sdIsTensor d && !r.headerDone)

/-- R162: a zero stride that Table 6-5 does not allow. -/
def strideBad (d : BitVec 512) (r : StreamRun) (b : BitVec 256) : Bool :=
  decide (1 < beChunks b) && !runReduces d r && transferCount d b != 0 &&
    (if sdIsLoad d then beSpadStride b == 0 else !sdIsTensor d && beMemStride b == 0)

/-- The list entries a list-mode block needs have been read (R172). -/
def coordsReady (d : BitVec 512) (r : StreamRun) (b : BitVec 256) : Bool :=
  !sdIsTensor d || (tensorOf r.tensor.toNat).mode != 1 ||
    (upTo (beChunks b)).all (fun k => smGet 0 r.coords (be b 47 0 + k) != 0)

/-- STREAM_BLOCK_START (R157, R159, R162): the next block in list order starts, after its WAIT token, and takes a context
for each line it may. Without the token, a context or the coordinates the block waits. -/
def execStreamBlockStart (t i : Nat) (s : State) : Out :=
  guarded (slotOk t i) <|
    let x := s.slot t i
    let d := x.desc
    let r := s.run t i
    match r.blocks.findIdx? (fun b => !b.started) with
    | none => s
    | some j =>
      let b := (r.blocks.getD j {}).entry
      let total := if r.skipBody then 0 else s.blockLines t d r b
      if x.state ≠ 2 ∨ headerPending d r ∨ ¬ coordsReady d r b then s
      else if be b 177 177 = 1 ∧ (s.tokens t (sd d 23 20)).isEmpty then s
      else if total ≠ 0 ∧ s.ctxAvail t (i / 6) = 0 then s
      else
        let s := if be b 177 177 = 1 then s.takeToken t (sd d 23 20) else s
        if ¬ r.skipBody ∧ strideBad d r b then s.runFault t i cStrideZeroWrite
        else
          let n := min total (s.ctxAvail t (i / 6))
          let s := s.modBlock t i j (fun b => { b with
            started := true, transfers := if r.skipBody then 0 else transferCount d b.entry, total := total, requested := n })
          let s := if n = 0 then s else (s.takeContexts t i n).markAsleep t i j 0
          s.settleRun t i

/-- The next line of a load lands (R158, R166, R167): the transfer's checks come before its first line; a line that carries a
memory code ends a load without CT; the last line writes the rows. In ABORTING the line is discarded (R175). -/
def State.landLine (s : State) (t i : Nat) : State :=
  let x := s.slot t i
  let d := x.desc
  let r := s.run t i
  match flightBlock r with
  | none => s
  | some j =>
    let blk := r.blocks.getD j {}
    let lines := s.transferLines t d r blk.entry blk.next
    let a := lines.getD blk.line 0
    if x.state = 3 then s.giveContext t i |>.modBlock t i j (fun b => { b with landed := b.landed + 1 })
    else if x.state ≠ 2 ∨ openBlock d r ≠ some j then s
    else
      let c := if blk.line = 0 then s.transferCode t d r blk.entry (blk.asleep == blk.next + 1) blk.next else 0
      let m := s.lineCode a
      let s := s.delivered [a] (sdOp d != 4)
      let s := if c ≠ 0 then s.tileFault t [] c else s.tileFault t [a] m
      if c ≠ 0 then s.runFault t i c
      else if m ≠ 0 ∧ ¬ sdCt d then s.runFault t i m
      else
        let s := if m ≠ 0 ∧ r.poison = 0 then s.modRun t i (fun r => { r with poison := m }) else s
        let s := s.lineDone t i j
        if blk.line + 1 < lines.length then s else (s.endTransfer t i j).settleRun t i

/-- FETCH_LINE_LAND: the next line of a load lands and frees its context. -/
def execFetchLineLand (t i : Nat) (s : State) : Out :=
  guarded (slotOk t i) (if sdIsLoad (s.slot t i).desc then s.landLine t i else s)

/-- Memory performs and acknowledges the next line of a store (R157, R158, R211): the transfer's checks and its data come
before its first line. A failed write ends the run; in ABORTING a write in flight completes, or fails alone (R175). -/
def State.storeAck (s : State) (t i : Nat) : State :=
  let x := s.slot t i
  let d := x.desc
  let r := s.run t i
  match flightBlock r with
  | none => s
  | some j =>
    let blk := r.blocks.getD j {}
    let lines := s.transferLines t d r blk.entry blk.next
    let a := lines.getD blk.line 0
    if sdIsLoad d ∨ (x.state ≠ 3 ∧ (x.state ≠ 2 ∨ openBlock d r ≠ some j)) then s
    else
      let c := if blk.line = 0 then s.transferCode t d r blk.entry (blk.asleep == blk.next + 1) blk.next else 0
      if c ≠ 0 ∧ x.state = 2 then (s.tileFault t [] c).runFault t i c
      else
        let s := if blk.line ≠ 0 then s
          else
            let f := if c ≠ 0 then (r.seen, []) else s.transferFields t d r blk.entry blk.next
            s.modRun t i (fun r => { r with seen := f.1, fields := f.2 })
        let e := smGet (0, 0) (s.run t i).fields a
        let w := if e.1 = 0 then (s, cStreamAborted) else s.storeBits a e.1 e.2
        let s := (w.1.tileLedger t (fun l => l.wrEnd (w.2 == 0))).tileFault t [a] w.2
        if w.2 ≠ 0 ∧ x.state = 2 then
          -- this line's count has moved to WR_FAILED; its context returns before the rest end
          (s.giveContext t i).runFault t i w.2
        else
          let s := s.lineDone t i j
          if blk.line + 1 < lines.length then s else (s.endTransfer t i j).settleRun t i

/-- STORE_ACK (R157, R158, R211): memory performs and acknowledges the next line of a store and frees its context and
outstanding-write count. -/
def execStoreAck (t i : Nat) (s : State) : Out := guarded (slotOk t i) (s.storeAck t i)

/-- End an aborting run whole: stores in flight complete, loads are discarded, contexts return (R175). -/
def State.drainSlot (s : State) (t i : Nat) : State :=
  let s := if sdIsLoad (s.slot t i).desc then s else (upTo (s.run t i).contexts).foldl (fun x _ => x.storeAck t i) s
  ((s.failWrites t i).freeContexts t i).abortDrained t i

/-- STREAM_BLOCK_COMPLETE (R157): the next block in list order is complete and its token leaves. -/
def execStreamBlockComplete (t i : Nat) (s : State) : Out := guarded (slotOk t i) (s.completeOne t i)

/-- Change the header file of a partition's sequencer. -/
def State.modHdr (s : State) (p e : Nat) (f : Header → Header) : State :=
  s.modSeq (s.part p).seq (fun x => { x with hdrs := smMod {} x.hdrs e f })

/-- A header written to memory by a store: VERSION 1, zero reserved fields, its body address (R55). -/
def storedHeader (h : Header) (addr : Nat) : Nat := headerBits { h with version := 1, bodyAddr := addr }

/-- STREAM_RUN_COMPLETE (R55, R152, R157, R167): after the last block the CT header is completed, the completion token leaves
and the slot returns to ARMED or FREE. -/
def execStreamRunComplete (t i : Nat) (s : State) : Out :=
  guarded (slotOk t i) <|
    let x := s.slot t i
    let d := x.desc
    let r := s.run t i
    let p := (s.tilePart t).getD 0
    let hdr := sd d 319 256
    let body := sd d 191 128 + r.base
    if x.state = 2 ∧ r.completed = sdBlocks d ∧ ¬ headerPending d r then
      let s := if sdOp d = 2 ∧ sdCt d ∧ r.poison ≠ 0 then
          s.modHdr p (sd d 79 72) (fun h => { h with poison := true, poisonCause := r.poison }) else s
      let w := if ¬ (sdOp d = 3 ∧ sdCt d) then (s, 0)
        else if ¬ s.inStacks p hdr 64 then (s, cStreamRange)
        else
          let z := s.storeP p hdr (toBytes 64 (storedHeader (smGet {} (s.pseq p).hdrs (sd d 79 72)) body))
          (if z.2 = 0 then z.1.modHdr p (sd d 79 72) (fun h => { h with bodyAddr := body }) else z.1, z.2)
      if w.2 ≠ 0 then (w.1.tileFault t [hdr] w.2).runFault t i w.2
      else
        let s := w.1.kickEnded t i r 0
        let s := s.modSlot t i slotIdle
        if sd d 28 28 = 1 then s.emitTile t (sd d 19 16) { status := 0, source := 1, tag := sd d 87 80 } else s
    else s

/-- CT_HEADER_LOAD (R55, R167): the header at HDR_ADDR is copied to the entry, which becomes valid; a header line delivered
poisoned, for whatever memory code (R204, R206, R218), gives POISON = 1 and no body. -/
def execCtHeaderLoad (t i : Nat) (s : State) : Out :=
  guarded (slotOk t i) <|
    let x := s.slot t i
    let d := x.desc
    let r := s.run t i
    let p := (s.tilePart t).getD 0
    let a := sd d 319 256
    if x.state = 2 ∧ sdOp d = 2 ∧ sdCt d ∧ ¬ r.headerDone then
      let c := s.lineCode a
      let h := headerOf (s.loadLE a 64)
      let h := { h with bodyAddr := sd d 191 128 + r.base }
      let h := if c ≠ 0 then { h with poison := true, poisonCause := c } else h
      let s := s.touch a 64
      if ¬ s.inStacks p a 64 then s.runFault t i cStreamRange
      else
        let s := (s.tileFault t [a] c).modHdr p (sd d 79 72) (fun _ => h)
        s.modRun t i (fun r => { r with headerDone := true, skipBody := c != 0 })
    else s

/-- KEY_HEADER_CHECK (R61, R168): the arrived key header is compared with the latched values and one token goes to AUX_Q;
after a failed check the run ends with no further token. -/
def execKeyHeaderCheck (t i : Nat) (s : State) : Out :=
  guarded (slotOk t i) <|
    let x := s.slot t i
    let d := x.desc
    let r := s.run t i
    if x.state = 2 ∧ sdOp d = 4 ∧ ¬ r.keyChecked then
      let a := sd d 319 256
      let m := s.fetchCode t a 64
      let k := keyHeaderOf (s.loadLE a 64)
      let c := if m ≠ 0 then m else keyCheck (r.latch.getD {}) k (s.cache (t / 32)).ways
      let s := s.delivered [a] false
      if c ≠ 0 then (s.tileFault t [a] c).runFault t i c
      else
        let s := s.modRun t i (fun r => { r with keyChecked := true, keyHdr := k })
        let s := match r.kickSeq with
          | some q => s.modKern q (fun z => z.takeTags t i k)
          | none => s
        s.emitTile t (sd d 27 24) { status := 0, source := 1, tag := 0xFF }
    else s

/-- TENSOR_HEADER_READ (R169, R173): the header is checked before any block. -/
def execTensorHeaderRead (t i : Nat) (s : State) : Out :=
  guarded (slotOk t i) <|
    let x := s.slot t i
    let d := x.desc
    let r := s.run t i
    if x.state = 2 ∧ sdIsTensor d ∧ ¬ r.headerDone then
      let a := sd d 191 128 + r.base
      let m := s.fetchCode t a 64
      let v := s.loadLE a 64
      let tn := tensorOf v
      let s := s.touch a 64
      if m ≠ 0 then (s.tileFault t [a] m).runFault t i m
      else if tn.zeroBad then s.runFault t i cDescriptorZero
      else if tn.invalid (sdOp d == 6) then s.runFault t i cTensorInvalid
      else s.modRun t i (fun r => { r with headerDone := true, tensor := BitVec.ofNat 512 v })
    else s

/-- COORDINATE_LIST_READ (R172): the entry of a tile index is read and checked; one that cannot be used ends the run when its
tile's turn comes. -/
def execCoordinateListRead (t i idx : Nat) (s : State) : Out :=
  guarded (slotOk t i) <|
    let x := s.slot t i
    let d := x.desc
    let r := s.run t i
    let tn := tensorOf r.tensor.toNat
    if x.state = 2 ∧ sdIsTensor d ∧ r.headerDone ∧ tn.mode = 1 then
      let a := tn.listAddr + 8 * idx
      let v := s.loadLE a 8
      let c := if tn.listCount ≤ idx then cCoordRange
        else if s.fetchCode t a 8 ≠ 0 then s.fetchCode t a 8
        else if v % 2 ^ 16 ≠ 0xFFFF ∧ (tn.tcMax ≤ bits v 15 0 ∨ tn.trMax ≤ bits v 31 16 ∨ tn.d2 ≤ bits v 47 32
          ∨ tn.d3 ≤ bits v 63 48) then cCoordRange
        else 0
      (if tn.listCount ≤ idx then s else (s.touch a 8).tileFault t [a] c).modRun t i (fun r =>
        { r with coords := smSet 0 r.coords idx (if c ≠ 0 then 2 ^ 65 + c else 2 ^ 64 + v) })
    else s

/-! ### Badger chains (R229 to R233) -/

/-- Chains a Badger runs at once (R230): three pipelines of two. -/
abbrev chainsPerBadger : Nat := 6

/-- The partition tiles of a tile's die. -/
def State.dieTiles (s : State) (t : Nat) : List Nat :=
  (s.partTiles ((s.tilePart t).getD 0)).filter (fun u => u / 32 == t / 32)

/-- The Badger of block j (R229): that of the die-local partition tile j mod P_d. -/
def State.badgerOf (s : State) (t j : Nat) : Nat :=
  let l := s.dieTiles t
  l.getD (j % max 1 l.length) t

/-- Two tiles' runs of slot i regenerate the same limbs in block j: they read the same key and entry. -/
def State.sameChain (s : State) (u t i j : Nat) : Bool :=
  (s.slot u i).state == 2 && (s.slot u i).desc == (s.slot t i).desc && (s.run u i).keyChecked
    && (s.run u i).keyHdr == (s.run t i).keyHdr
    && match (s.run u i).blocks[j]?, (s.run t i).blocks[j]? with
      | some a, some b => a.entry == b.entry
      | _, _ => false

/-- The tiles of a die that wait for the chain of limb k of block j of slot i of tile t. -/
def State.chainUsers (s : State) (t i j k : Nat) : List Nat :=
  (s.dieTiles t).filter (fun u => s.sameChain u t i j && ((s.run u i).blocks.getD j {}).chainsOn == k)

/-- The chain of limb k of block j that already runs, or is staged, on a tile's die: a die runs one for the limb (R229). -/
def State.chainOf (s : State) (t i j k : Nat) : Option Nat :=
  (s.cache (t / 32)).chains.findIdx? (fun x => x.slot == i && x.block == j && x.limb == k
    && x.users.any (fun u => s.sameChain u t i j))

/-- A chain for block j of slot i may start on a tile's die (R230, R231): its Badger runs fewer than six and its die's share of
the staging is free. -/
def State.chainFits (s : State) (t j bytes : Nat) : Bool :=
  let c := s.cache (t / 32)
  decide ((c.chains.filter (fun x => x.running && x.badger == s.badgerOf t j)).length < chainsPerBadger)
    && decide ((c.chains.map (fun x => x.bytes)).sum + bytes ≤ c.ways * 4194304)

/-- The first block of a run with a limb whose chain has not begun. -/
def StreamRun.nextChain (r : StreamRun) : Option Nat :=
  r.blocks.findIdx? (fun b => decide (b.chain ≤ 1) && decide (b.chainsOn < beChunks b.entry))

/-- BADGER_CHAIN_START (R229 to R231): the chain of the next limb of a seeded key run starts in block-list order once the key
header has passed and a chain and its staging are free; a tile whose limb another tile's chain produces joins that chain. -/
def execBadgerChainStart (t i : Nat) (s : State) : Out :=
  guarded (slotOk t i) <|
    let x := s.slot t i
    let r := s.run t i
    match r.nextChain with
    | none => s
    | some j =>
      let k := (r.blocks.getD j {}).chainsOn
      let bytes := s.dieShare t (sdLogN x.desc)
      if ¬ (x.state = 2 ∧ sdOp x.desc = 4 ∧ r.keyChecked = true ∧ r.keyHdr.seeded = true) then s
      else
        match s.chainOf t i j k with
        | some n =>
          let done := ((s.cache (t / 32)).chains[n]?.map (fun c => !c.running)).getD false
          let s := s.modCache (t / 32) (fun y => { y with
            chains := y.chains.modify n (fun c => { c with users := c.users ++ [t] }) })
          let s := s.modBlock t i j Block.chainOn
          (if done then s.chainStaged t i j else s).settleRun t i
        | none =>
          if s.chainFits t j bytes then
            let l := s.chainUsers t i j k
            let c : Chain := { slot := i, block := j, limb := k, badger := s.badgerOf t j, users := l, bytes := bytes }
            (s.each l (fun u y => y.modBlock u i j Block.chainOn)).modCache (t / 32) (fun y => { y with chains := y.chains ++ [c] })
          else s

/-- BADGER_CHAIN_END (R232, R233): the oldest running chain of the slot ends. A block's rows land when all its chains have finished,
it has started and its stored rows are in; a chain that runs out of attempts or finds an internal error ends each run at
that block. -/
def execBadgerChainEnd (t i : Nat) (internalError : Bool) (s : State) : Out :=
  guarded (slotOk t i) <|
    let c := s.cache (t / 32)
    match c.chains.findIdx? (fun x => x.running && x.slot == i && x.users.contains t) with
    | none => s
    | some n =>
      let x := c.chains.getD n {}
      let b := ((s.run t i).blocks.getD x.block {}).entry
      let code := if internalError then cBadgerFault
        else if (s.chainLimb t (s.slot t i).desc (s.run t i) b x.limb).isNone then cBadgerWindow else 0
      let s := s.modCache (t / 32) (fun y => { y with chains := y.chains.modify n (fun z => { z with running := false }) })
      s.each x.users (fun u y =>
        (if code = 0 then y.chainStaged u i x.block
         else y.modBlock u i x.block (fun b => { b with chain := 4, chainCode := code })).settleRun u i)

end Sys2Proof.Machine
end

