-- ==== Sys2Proof/Machine/GlahusOps.lean ====
section
/-! DEFINITION. What Glahus commands share: validity (R133), their ends (R73, R114), limb operations (R429), operands
bound to header entries (R126), the header checks and key checks of ciphertext operations (assumption log 15). -/

namespace Sys2Proof.Machine

/-- Fields of a Glahus instruction an operation uses. -/
structure Uses where
  canon : Bool := false
  conj : Bool := false
  f0 : Bool := false
  f1 : Bool := false
  f2 : Bool := false
  pset : Bool := false
  param : Bool := false
  imm8 : Bool := false
  imm64 : Bool := false
  rx : Bool := false
  ry : Bool := false

/-- An unused field is nonzero, or PARAM names no parameter (R133). -/
def unusedBad (u : Uses) (g : GInstr) : Bool :=
  (!u.canon && g.canon) || (!u.conj && g.conj) || (!u.f0 && g.f0 != 0) || (!u.f1 && g.f1 != 0) || (!u.f2 && g.f2 != 0)
    || (!u.pset && g.pset != 0) || (!u.param && g.param != 0) || (!u.imm8 && g.imm8 != 0) || (!u.imm64 && g.imm64 != 0)
    || (!u.rx && g.rx != 0) || (!u.ry && g.ry != 0) || decide (12 < g.param)

/-- A Glahus command runs while its partition is up and its sequencer idle. -/
def State.gReady (s : State) (p : Nat) : Bool := s.isUp p && (s.pseq p).state == 0

/-- Record how the operation ended. -/
def State.gEnd (s : State) (p code : Nat) : State := s.modPart p (fun x => { x with gCode := code, gTokens := false })

/-- A run-time fault of a Glahus operation stops its kernel (R114). A command of its own shows it in SEQ_STATUS; an instruction
of a running kernel, through that kernel's drain. -/
def State.gFault (s : State) (p code : Nat) : State :=
  (if (s.pseq p).kern.isSome then s
   else s.modSeq (s.part p).seq (fun x => { x with fault := true, done := true, faultCode := code })).gEnd p code
    |>.modPart p (fun x => { x with mmulQ := none })

/-- The record of a memory fault that a Glahus operation meets on one of some lines: the sequencer is the requester. -/
def State.gMem (s : State) (p : Nat) (lines : List Nat) (code : Nat) : State := s.memFault p 3 lines code

/-- A fault whose operation releases its tokens with the code: a refusal (R73) or a failed key check (R62). -/
def State.gRefuse (s : State) (p code : Nat) : State := (s.gFault p code).modPart p (fun x => { x with gTokens := true })

/-- Run a Glahus operation: GLAHUS_INVALID where translation rejects it. -/
def State.gRun (s : State) (p : Nat) (invalid : Bool) (f : State → State) : State :=
  if invalid then s.gEnd p cGlahusInvalid else f (s.gEnd p 0)

/-- A Glahus command of opcode o: nothing where the partition cannot take it; behind a WAITT that waits, it waits. -/
def State.gCmd (s : State) (p o : Nat) (g : GInstr) (run : State → State) : State :=
  if ¬ s.gReady p then s
  else if (s.part p).held.isEmpty then run s
  else s.modPart p (fun x => { x with held := x.held ++ [(o, g)] })

/-- POISON_POLICY's STOP: as the running kernel latched it, else as it stands (R403). -/
def State.gStop (s : State) (p : Nat) : Bool :=
  match (s.pseq p).kern with
  | some k => k.poisonStop
  | none => (s.part p).poisonStop

/-! ### Regions -/

/-- The region with its largest COUNT (R133). -/
def Region.largest (r : Region) : Region := if r.fromParam then { r with count := 4095 } else r

/-- A byte span inside the logical scratchpad. -/
def State.spanFits (s : State) (p : Nat) (x : Int × Int) : Bool := decide (0 ≤ x.1) && decide (x.2 ≤ (s.lgSize p : Int))

/-- Translation rejects a limb region at log N n (R124, R133). -/
def State.limbRegionBad (s : State) (p v n : Nat) : Bool :=
  let r := (s.region p v).largest
  decide (13 ≤ bits v 63 60) || r.base % 2048 != 0 || (r.count != 0 && !s.spanFits p (r.span 2048 (limbBytes n false)))

/-- Translation rejects a byte region with blocks of n bytes. -/
def State.byteRegionBad (s : State) (p v n : Nat) : Bool :=
  let r := (s.region p v).largest
  decide (13 ≤ bits v 63 60) || (r.count != 0 && !s.spanFits p (r.span 128 n))

/-- A destination with STRIDE 0 and COUNT above 1 (R165). -/
def State.zeroStrideDst (s : State) (p v : Nat) : Bool :=
  let r := (s.region p v).largest
  r.stride == 0 && decide (1 < r.count)

/-- Set VALID = 0 on every limb of a region. -/
def State.dropLimbs (s : State) (p : Nat) (r : Region) (n : Nat) : State := s.dropItems p r 2048 (limbBytes n false)

/-- Set VALID = 0 on every block of a byte region. -/
def State.dropBlocks (s : State) (p : Nat) (r : Region) (n : Nat) : State := s.dropItems p r 128 n

/-- The STAMP rows of a Glahus operation receive: the cycle of its words is the translator's, so it is free (log 11). -/
def State.gStamp (s : State) : Nat × State :=
  let d := s.draw
  (d.1 % 16, d.2)

/-- Write limbs of a region in order. -/
def State.putLimbs (s : State) (p : Nat) (r : Region) (l : List (List Nat)) : State :=
  let z := s.gStamp
  z.2.each (upTo l.length) (fun c x => x.lgWrite p (r.limbAt c).toNat (pack36 (l.getD c [])) z.1)

/-! ### Limb operations (R128, R429) -/

/-- How a limb operation computes a limb: its prime set, entry, and the source limbs. -/
abbrev LimbFn := PrimeSet → Nat → List (List Nat) → List Nat

/-- Fields a limb operation uses. -/
def limbUses : Uses := { canon := true, f0 := true, f1 := true, f2 := true, pset := true, rx := true, ry := true }

/-- The static checks of a limb operation with source regions `srcs` (R133, R165, R429). -/
def State.limbInvalid (s : State) (p : Nat) (g : GInstr) (u : Uses) (f2Max : Nat) (srcs : List Nat) : Bool :=
  unusedBad u g ||
    match s.pset? g.pset with
    | none => true
    | some ps =>
      let rx := s.region p g.rx
      let rs := srcs.map (s.region p)
      decide (g.f1 < 12) || decide (ps.logNMax < g.f1) || decide (f2Max < g.f2)
        || (g.f2 % 2 == 1 && !rx.fromParam && rx.count != 0 && decide (ps.primes.length ≤ g.f0 + rx.count - 1))
        || (g.rx :: srcs).any (fun v => s.limbRegionBad p v g.f1)
        || s.zeroStrideDst p g.rx
        || (!(rx.fromParam || rs.any (fun r => r.fromParam)) && rs.any (fun r => r.count != rx.count))

/-- The prime entry of limb c of a limb operation. -/
def limbOpEntry (g : GInstr) (c : Nat) : Nat := if g.f2 % 2 = 1 then g.f0 + c else g.f0

/-- The Sequencer-stage code of a limb operation; the lowest wins (R402). -/
def State.limbCode (s : State) (p : Nat) (g : GInstr) (srcs : List Nat) (extra : List Nat) : Nat :=
  let ps := s.pset g.pset
  let rx := s.region p g.rx
  let rs := srcs.map (s.region p)
  let n := limbBytes g.f1 false
  let param := rs.any (fun r => r.count != rx.count)
    || (rx.count != 0 && decide (ps.primes.length ≤ limbOpEntry g (rx.count - 1)))
  let beyond := rs.any (fun r => !r.same rx && spansMeet (r.span 2048 n) (rx.span 2048 n))
  ((if param then [cParamRange] else []) ++ extra ++ (if beyond then [cOperandOverlap] else [])).foldl
    (fun a b => if a = 0 ∨ b < a then b else a) 0

/-- The Read-stage code of limb sources (R97, R29): 0, ROW_INVALID or NONCANONICAL_INPUT at the first bad limb. The scalar
constant of LMULC is not compared with q: the model's choice (R29; assumption log 38). -/
def State.limbReadCode (s : State) (p : Nat) (g : GInstr) (rs : List Region) (count : Nat) : Nat :=
  let n := limbBytes g.f1 false
  ((upTo count).map (fun c =>
    if rs.any (fun r => !s.lgValid p (r.limbAt c).toNat n) then cRowInvalid
    else if g.canon ∧ rs.any (fun r =>
        canonBad ((s.pset g.pset).q (limbOpEntry g c)) (s.lgLimb p (r.limbAt c).toNat (g.f1))) then cNoncanonicalInput
    else 0)).find? (· != 0) |>.getD 0

/-- A limb operation: RX from the sources by a function of each limb. A destination rejected for an overlap loses VALID in the
rows it shares with a source, too: the model's choice (R49; assumption log 38). -/
def State.limbOp (s : State) (p : Nat) (g : GInstr) (u : Uses) (f2Max : Nat) (srcs extra : List Nat) (f : LimbFn) : State :=
  s.gRun p (s.limbInvalid p g u f2Max srcs) (fun s =>
    let c := s.limbCode p g srcs extra
    let rx := s.region p g.rx
    let rs := srcs.map (s.region p)
    if c ≠ 0 then (s.dropLimbs p rx g.f1).gFault p c
    else
      let d := s.limbReadCode p g rs rx.count
      if d ≠ 0 then (s.dropLimbs p rx g.f1).gFault p d
      else
        let ps := s.pset g.pset
        s.putLimbs p rx ((upTo rx.count).map (fun c =>
          let e := limbOpEntry g c
          f ps e (rs.map (fun r => (s.lgLimb p (r.limbAt c).toNat g.f1).map (fun v => fold v (ps.q e)))))))

/-! ### Ciphertext operands -/

/-- Capacity of a region in limbs of 2^n (R126). -/
def State.capacity (s : State) (p : Nat) (r : Region) (n : Nat) : Nat :=
  ((upTo r.count).filter (fun c => s.lgFits p (r.limbAt c) (limbBytes n false))).length

/-- Limbs of a body. -/
def Header.bodyLimbs (h : Header) : Nat := h.comps * (h.limbs + h.specials)

/-- Header entry e of partition p's sequencer. -/
def State.hdr (s : State) (p e : Nat) : Header := smGet {} (s.pseq p).hdrs e

/-- Limb j of component c of a body held in a region. -/
def State.bodyLimb (s : State) (p : Nat) (r : Region) (h : Header) (c j : Nat) : List Nat :=
  s.lgLimb p (r.limbAt (c * (h.limbs + h.specials) + j)).toNat h.logN

/-- Prime of limb j of a body. -/
def bodyPrime (ps : PrimeSet) (h : Header) (j : Nat) : Nat := ps.q (ps.limbEntry h.limbs j)

/-- The first Read-stage code of a body: ROW_INVALID, or NONCANONICAL_INPUT when checked. -/
def State.bodyCode (s : State) (p : Nat) (ps : PrimeSet) (r : Region) (h : Header) (canon : Bool) : Nat :=
  let per := h.limbs + h.specials
  ((upTo h.bodyLimbs).map (fun i =>
    if ¬ s.lgValid p (r.limbAt i).toNat (limbBytes h.logN false) then cRowInvalid
    else if canon ∧ canonBad (bodyPrime ps h (i % max 1 per)) (s.lgLimb p (r.limbAt i).toNat h.logN) then cNoncanonicalInput
    else 0)).find? (· != 0) |>.getD 0

/-- Fields a ciphertext operation uses (Table 5-4). -/
def ctUses (o : Nat) : Uses :=
  let key := keyKind o != 0
  { canon := true, conj := o == oRot, f0 := true, f1 := true, f2 := isBinary o, pset := true, param := key
    imm8 := o == oDrop || o == oEncpk || o == oFlood, imm64 := key || o == oCmuli, rx := hasWork o, ry := o == oRot }

/-- An address the instruction fixes is not a multiple of 2,048: translation rejects it, and one formed at run time raises
PARAM_RANGE: the codes are the model's choice (R127; assumption log 38). -/
def constAddrBad (g : GInstr) : Bool := g.param == 0 && g.imm64 % 2048 != 0

/-- The automorphism operand of LAUT or ROT breaks R127. -/
def autOperandBad (g : GInstr) (v : Nat) : Bool := bit v 32 || (g.conj && bit v 33)

/-- Galois element of an automorphism operand (R47, R48). -/
def autGalois (n v : Nat) (conj : Bool) : Nat := if bit v 33 then v % 2 ^ 32 else galoisOf n (v % 2 ^ 32) conj

/-- The first of the dies whose Badger units serve partition p. -/
def State.partDie (s : State) (p : Nat) : Nat := p * (s.part p).tiles / 32

/-- The dies whose Badger units serve partition p: both where it spans them. -/
def State.partDies (s : State) (p : Nat) : List Nat := if 32 < (s.part p).tiles then [0, 1] else [s.partDie p]

/-- The smallest BADGER_WAYS of the dies of partition p (R61 check 4, R231). -/
def State.partWays (s : State) (p : Nat) : Nat :=
  ((s.partDies p).map (fun d => (s.cache d).ways)).foldl min 255

/-- The line at a device address has been read for partition p, where it is its to read (R210, R218): no longer fresh, and in its
home cache where the requester allocates. -/
def State.readLine (s : State) (p a : Nat) (allocate : Bool) : State :=
  if s.inStacks p a 128 then s.delivered [lineOf a] allocate else s

/-- Fetch and check a key header (R61): 0 or the code its token carries; the header. -/
def State.keyArrives (s : State) (p : Nat) (g : GInstr) (l : KeyLatch) : Nat × KeyHeader :=
  let a := s.gAddr p g
  let k := keyHeaderOf (s.loadLE a 64)
  if ¬ s.inStacks p a 2048 then (cStreamRange, k)
  else
    let m := s.lineCode a
    if m ≠ 0 then (m, k) else (keyCheck l k (s.partWays p), k)

/-! ### Key bodies (R58 to R60) -/

/-- A limb of a key: its part, polynomial (0 b, 1 a), place among the polynomial's limbs, and prime entry. -/
structure KeyLimb where
  part : Nat := 0
  poly : Nat := 0
  place : Nat := 0
  entry : Nat := 0
  deriving DecidableEq, Repr

/-- The limbs of a key that an operation over `limbs` q-limbs uses, in the order of the body (R59): the parts of its ModUp
digits, b then a, q-limbs then special limbs. Which of them a level below the top uses is the model's choice (log 15). -/
def keyLimbs (ps : PrimeSet) (k : KeyHeader) (limbs : Nat) : List KeyLimb :=
  let parts := if k.kind = 3 then 1 else ceilDiv limbs ps.alpha
  let places := (upTo limbs).map (fun j => (j, j)) ++ (upTo k.specials).map (fun i => (k.qlimbs + i, ps.qcount + i))
  (upTo parts).flatMap (fun d => [0, 1].flatMap (fun y => places.map (fun e =>
    { part := d, poly := y, place := e.1, entry := e.2 })))

/-- Address of a stored limb in a key object at a (R58, R59); a seeded key stores b alone. -/
def keyLimbAt (a : Nat) (k : KeyHeader) (z : KeyLimb) : Nat :=
  let half := if k.seeded then 1 else 2
  a + 2048 + limbBytes k.logN k.format * ((z.part * half + z.poly) * (k.qlimbs + k.specials) + z.place)

/-- A limb of a key as delivered: stored, or regenerated from SEED (R60); none where the expansion finds too few values. -/
def State.keyLimb (s : State) (a : Nat) (ps : PrimeSet) (k : KeyHeader) (z : KeyLimb) : Option (List Nat) :=
  if k.seeded ∧ z.poly = 1 then expandUniform k z.part z.entry k.logN (ps.q z.entry) (2 ^ k.logN)
  else some (decodeElems k.format (s.load (keyLimbAt a k z) (limbBytes k.logN k.format)))

/-- The code of a key's limb (R29, R161, R167, R232): 0, a memory code, BADGER_WINDOW, or NONCANONICAL_INPUT when checked. -/
def State.keyLimbCode (s : State) (p a : Nat) (ps : PrimeSet) (k : KeyHeader) (canon : Bool) (z : KeyLimb) : Nat :=
  let stored := !(k.seeded && z.poly == 1)
  let at_ := keyLimbAt a k z
  let lb := limbBytes k.logN k.format
  if stored ∧ ¬ s.inStacks p at_ lb then cStreamRange
  else if stored ∧ s.rangeCode at_ lb ≠ 0 then s.rangeCode at_ lb
  else
    match s.keyLimb a ps k z with
    | none => cBadgerWindow
    | some l => if canon && canonBad (ps.q z.entry) l then cNoncanonicalInput else 0

/-- The body of an operation's key: its first code, and its limbs folded. -/
def State.keyBody (s : State) (p a : Nat) (ps : PrimeSet) (k : KeyHeader) (limbs : Nat) (canon : Bool) : Nat × List (List Nat) :=
  let l := keyLimbs ps k limbs
  (((l.map (s.keyLimbCode p a ps k canon)).find? (· != 0)).getD 0,
   l.map (fun z => ((s.keyLimb a ps k z).getD []).map (fun v => fold v (ps.q z.entry))))

/-- Static checks of a ciphertext operation (R126, R133). -/
def State.ctInvalid (s : State) (p o : Nat) (g : GInstr) : Bool :=
  unusedBad (ctUses o) g || (s.pset? g.pset).isNone
    || ([g.f0, g.f1] ++ (if isBinary o then [g.f2] else [])).any (fun e => (s.bound p e).isNone)
    || (keyKind o != 0 && constAddrBad g)
    || (o == oRot && autOperandBad g g.ry)
    || (o == oFlood && decide (60 < g.imm8))
    || (hasWork o && s.limbRegionBad p g.rx 12)

/-- Binding stage (R49, R126): 0, OPERAND_OVERLAP or BINDING_SHORT. That MODDOWN's work region has the size of a key-switching
instruction's is the model's choice (assumption log 38). -/
def State.bindingCode (s : State) (p o : Nat) (g : GInstr) (h : Header) (a : Header) (ps : PrimeSet) : Nat :=
  let n := limbBytes h.logN false
  let d := (s.bound p g.f0).getD {}
  let srcs := ([g.f1] ++ (if isBinary o then [g.f2] else [])).map (fun e => (s.bound p e).getD {})
  let w := s.region p g.rx
  let meets := fun (x y : Region) => spansMeet (x.span 2048 n) (y.span 2048 n)
  let beyond := srcs.any (fun r => meets r d && !r.same d) || (hasWork o && (meets w d || srcs.any (fun r => meets w r)))
  let short := decide (s.capacity p d h.logN < h.bodyLimbs)
    || (hasWork o && decide (s.capacity p w h.logN < (ps.dnum + 2) * (a.limbs + ps.pcount)))
  if beyond then cOperandOverlap else if short then cBindingShort else 0

/-- The Aborted class of Table 4-11 for a Glahus ciphertext operation: its rows lose VALID and its header entry is invalid. -/
def State.ctSpoil (s : State) (p o : Nat) (g : GInstr) (n : Nat) : State :=
  let s := s.dropLimbs p ((s.bound p g.f0).getD {}) n
  let s := if hasWork o then s.dropLimbs p (s.region p g.rx) n else s
  s.modHdr p g.f0 (fun h => { h with valid := false })

/-- An aborted ciphertext operation. -/
def State.ctAbort (s : State) (p o : Nat) (g : GInstr) (n code : Nat) : State := (s.ctSpoil p o g n).gFault p code

/-- How a ciphertext operation computes its body: state, set, output header; limbs in component-major order, and the
state with its free values drawn. -/
abbrev BodyFn := State → PrimeSet → Header → List (List Nat) × State

/-- What a ciphertext operation latches for its key's check (R61). -/
def State.ctLatch (s : State) (p o : Nat) (g : GInstr) : KeyLatch :=
  let ps := s.pset g.pset
  let a := s.hdr p g.f1
  { keyTag := a.keyTag, psetId := a.psetId, scheme := a.scheme, logN := a.logN
    limbs := if o = oEncpk then ps.width * (g.imm8 + 1) else a.limbs
    kind := keyKind o, galois := autGalois a.logN g.ry g.conj, dnum := ps.dnum, publicKey := o == oEncpk }

/-- The key of a ciphertext operation: 0 or the code its token carries; the header. -/
def State.ctKey (s : State) (p o : Nat) (g : GInstr) : Nat × KeyHeader :=
  if keyKind o = 0 then (0, {}) else s.keyArrives p g (s.ctLatch p o g)

/-- A register operand of a ciphertext operation is out of its range (Table 4-9). -/
def State.ctRegBad (s : State) (p o : Nat) (g : GInstr) : Bool :=
  (o == oRot && decide (2 ^ 34 ≤ g.ry)) || (keyKind o != 0 && s.gAddr p g % 2048 != 0)

/-- What the header checks of a ciphertext operation are given. -/
def State.ctReq (s : State) (p o : Nat) (g : GInstr) (constant : Int) : OpReq :=
  let key := s.ctKey p o g
  { opcode := o, a := s.hdr p g.f1, b := s.hdr p g.f2, pset := some (s.pset g.pset), noise := fun sc => s.noise? g.pset sc
    imm8 := g.imm8, constZero := constant == 0, constLog := if constant = 0 then 0 else logT constant.natAbs
    direct := if o = oRot ∧ bit g.ry 33 then some (g.ry % 2 ^ 32) else none
    keyTag := key.2.keyTag, targetTag := key.2.targetTag, stop := s.gStop p }

/-- The noise requests of an operation, each a kind and a width (R200): ENCPK's u, e₀ and e₁, and FLOOD's polynomial. -/
def noiseReqs (o imm8 : Nat) : List (Nat × Nat) :=
  if o = oEncpk then [(0, 0), (1, 0), (1, 0)] else if o = oFlood then [(2, imm8)] else []

/-- The operation draws DRBG noise. -/
def drawsNoise (o : Nat) : Bool := o == oEncpk || o == oFlood

/-- The DRBG after the noise requests of an operation at log N n (R362). -/
def State.useNoise (s : State) (o imm8 n : Nat) : State :=
  if drawsNoise o then
    s.drbgRequests true ((noiseReqs o imm8).flatMap (fun r => drawRequests r.1 r.2 n))
  else s

/-- The polynomials of an operation's noise requests, in order. -/
def State.noisePolys (s : State) (o imm8 n : Nat) : List (List Int) :=
  (upTo (noiseReqs o imm8).length).map (fun i =>
    let r := (noiseReqs o imm8).getD i (0, 0)
    drawPoly r.1 r.2 n (s.free + i))

/-- The free values an operation's noise requests take. -/
def State.drewNoise (s : State) (o imm8 : Nat) : State := { s with free := s.free + (noiseReqs o imm8).length }

/-- Residues of the key an operation has consumed: its first Read-stage code, and its limbs. -/
def State.ctKeyBody (s : State) (p o : Nat) (g : GInstr) : Nat × List (List Nat) :=
  if keyKind o = 0 then (0, [])
  else s.keyBody p (s.gAddr p g) (s.pset g.pset) (s.ctKey p o g).2 (s.ctLatch p o g).limbs g.canon

/-- The lines of the key's body that an operation reads. -/
def State.ctKeyLines (s : State) (p o : Nat) (g : GInstr) : List Nat :=
  let k := (s.ctKey p o g).2
  if keyKind o = 0 then []
  else ((keyLimbs (s.pset g.pset) k (s.ctLatch p o g).limbs).filter (fun z => !(k.seeded && z.poly == 1))).flatMap (fun z =>
    linesOf (keyLimbAt (s.gAddr p g) k z) (limbBytes k.logN k.format))

/-- The Read-stage code of the operands of a ciphertext operation, its key's body after them. -/
def State.ctReadCode (s : State) (p o : Nat) (g : GInstr) : Nat :=
  let ps := s.pset g.pset
  let ca := s.bodyCode p ps ((s.bound p g.f1).getD {}) (s.hdr p g.f1) g.canon
  let cb := if isBinary o then s.bodyCode p ps ((s.bound p g.f2).getD {}) (s.hdr p g.f2) g.canon else 0
  if ca ≠ 0 then ca else if cb ≠ 0 then cb else (s.ctKeyBody p o g).1

/-- Location words of a poison record of a Glahus operation (Table 15-7): the RUN it works for; the OPID and GINDEX of a command of
its own are 0. -/
def State.poisonLoc (s : State) (p cause : Nat) : ErrLoc :=
  let q := (s.part p).seq
  match (s.pseq p).kern with
  | none => { part := p, block := 3, loc0 := cause }
  | some k =>
    let o := wOpid (s.nextWord q).2.1
    { part := p, block := 3, loc0 := cause, loc1 := pack [(0, bits (smGet 0 (s.seq q).optab o).toNat 79 64), (16, o)]
      loc2 := (k.owner.map (fun z => z.pkg)).getD 0, loc3 := (k.owner.map (fun z => z.cid)).getD 0 }

/-- A propagated operation (R74): the header with POISON, its body as it was; it draws the noise a computed one would. -/
def State.ctPropagate (s : State) (p o : Nat) (g : GInstr) (h : Header) : State :=
  let s := s.modHdr p g.f0 (fun _ => h)
  let s := s.drewNoise o g.imm8
  let l := s.poisonLoc p h.poisonCause
  match (s.pseq p).kern with
  | some k => (s.modSeq (s.part p).seq (fun x => { x with kern := x.kern.map (fun k => { k with poisonSeen := true }) })).countPoison
      p k.poisonSeen l
  | none => (s.modPart p (fun x => { x with poisonSeen := true })).countPoison p (s.part p).poisonSeen l

/-- A ciphertext operation (R72, R110, Tables 3-7 and 3-8, Table 15-8): key header, checks at issue, predicted header,
body. `constant` is the constant of CMULI. A ROT stopped by GALOIS_ELEMENT is refused and leaves its destination entry as it
was: the model's choice (R48; assumption log 38). -/
def State.ctOp (s : State) (p o : Nat) (g : GInstr) (constant : Int) (body : BodyFn) : State :=
  s.gRun p (s.ctInvalid p o g) (fun s =>
    let ps := s.pset g.pset
    let a := s.hdr p g.f1
    let n := if a.logN < 12 ∨ 17 < a.logN then 12 else a.logN
    let key := s.ctKey p o g
    let req := s.ctReq p o g constant
    let s := if keyKind o = 0 then s else s.readLine p (s.gAddr p g) false
    if key.1 ≠ 0 then ((s.gMem p [s.gAddr p g] key.1).ctSpoil p o g n).gRefuse p key.1
    else if s.ctRegBad p o g then s.ctAbort p o g n cParamRange
    else if o = oFlood ∧ floodWidthCode g.imm8 ≠ 0 then s.gRefuse p (floodWidthCode g.imm8)
    else
      let v := checkHeaders req
      if v.code ≠ 0 then
        let cause := if a.poison then a.poisonCause else (s.hdr p g.f2).poisonCause
        let own := v.code = cPoisonInput ∧ (s.pseq p).kern.isNone
        (if own then s.record cPoisonInput (s.poisonLoc p cause) else s).gRefuse p v.code
      else
        let bc := s.bindingCode p o g v.hdr a ps
        if bc ≠ 0 then s.gRefuse p bc
        else
        let s := s.useNoise o g.imm8 v.hdr.logN
        if drawsNoise o ∧ ¬ s.sec.noiseOk then s.ctAbort p o g v.hdr.logN cDrbgFail
        else if v.suppressed then s.ctPropagate p o g v.hdr
        else
          let c := s.ctReadCode p o g
          if c ≠ 0 then (s.gMem p (s.ctKeyLines p o g) c).ctAbort p o g v.hdr.logN c
          else
            let r := body s ps v.hdr
            let s := r.2.modHdr p g.f0 (fun _ => v.hdr)
            s.putLimbs p ((s.bound p g.f0).getD {}) r.1)

/-- Limb j of component c of operand e, folded; zeros for a component it lacks. -/
def State.opLimb (s : State) (p : Nat) (ps : PrimeSet) (e c j : Nat) : List Nat :=
  let h := s.hdr p e
  let q := bodyPrime ps h j
  if h.comps ≤ c then List.replicate (2 ^ h.logN) 0
  else (s.bodyLimb p ((s.bound p e).getD {}) h c j).map (fun v => fold v q)

/-- A body limb by limb from a function of component, limb and prime. -/
def bodyBy (ps : PrimeSet) (h : Header) (f : Nat → Nat → Nat → List Nat) : List (List Nat) :=
  let per := h.limbs + h.specials
  (upTo h.bodyLimbs).map (fun i => f (i / max 1 per) (i % max 1 per) (bodyPrime ps h (i % max 1 per)))

/-- The fields of a header that an operation computes with. -/
def headerInputs (h : Header) : List Nat :=
  [h.scheme, h.logN, h.limbs, h.specials, h.level, h.comps, b2n h.domain, b2n h.boot, h.plainMod, h.scale]

/-- Everything the bits of an operation may depend on (R137): its fields, its operands' headers, the set's primes and roots,
the folded operand limbs, the key's limbs, and the coefficients of the noise it draws, as 64-bit words. -/
def State.ctInputs (s : State) (p o : Nat) (g : GInstr) (ps : PrimeSet) (noise : List (List Int)) : List (List Nat) :=
  let ops := [g.f1] ++ (if isBinary o then [g.f2] else [])
  let k := (s.ctKey p o g).2
  let limbs := fun (e : Nat) =>
    let h := s.hdr p e
    (upTo h.comps).flatMap (fun c => (upTo (h.limbs + h.specials)).map (fun j => s.opLimb p ps e c j))
  [[g.imm8, k.kind, k.keyIndex, ps.width, ps.dnum, ps.logNMax, ps.qcount, ps.pcount, ps.acount], ps.primes.map (fun z => z.q)
    , ps.primes.map (fun z => z.psi)] ++ ops.map (fun e => headerInputs (s.hdr p e)) ++ ops.flatMap limbs
    ++ (s.ctKeyBody p o g).2 ++ noise.map (fun l => l.map (fromSigned 64))

/-- A body whose canonical residues the results level fixes as a function of the operation's inputs and the manual does not
print (R137, R138; assumption log 15). -/
def State.levelBody (s : State) (p o : Nat) (g : GInstr) (ps : PrimeSet) (h : Header) : List (List Nat) × State :=
  let ins := s.ctInputs p o g ps (s.noisePolys o g.imm8 h.logN)
  let rl := (s.part p).rlActive
  (bodyBy ps h (fun c j q =>
    (upTo (2 ^ h.logN)).map (fun i => Config.resultBits rl o ins ((c * 256 + j) * 2 ^ 17 + i) % max 1 q)),
   s.drewNoise o g.imm8)

/-- Element-wise combination of two limbs. -/
def zip2 (f : Nat → Nat → Nat) (a b : List Nat) : List Nat := List.zipWith f a b

end Sys2Proof.Machine
end

