-- ==== Sys2Proof/Machine/FabricOps.lean ====
section
/-! DEFINITION. What fabric and job operations share: routes, ports that go down or narrow, control packets, ceilings,
aborting a collective, leaving a job (R292, R297 to R305, R312 to R318; assumption logs 19 and 23). -/

namespace Sys2Proof.Machine

/-- Job-tree neighbours: parent, then children. -/
def FabricCfg.neighbours (c : FabricCfg) : List Nat := (if c.jobParent = 0xFFFF then [] else [c.jobParent]) ++ c.jobChildren

/-- The job root. -/
def FabricCfg.isRoot (c : FabricCfg) : Bool := c.jobParent == 0xFFFF

/-! ### Routes and egress (R298, R300, R304) -/

/-- Buffers per port of a virtual channel (Table 11-7). -/
def vcBuffers (vc : Nat) : Nat := if vc < 2 then 64 else 32
/-- Buffers reserved for DETOUR = 1. -/
def vcReserved (vc : Nat) : Nat := if vc < 2 then 8 else 4

/-- TYPE matches VC (Table 11-7). -/
def vcOk (x : Packet) : Bool :=
  (x.type == 1 && x.vc == 0) || (x.type == 2 && x.vc == 1) || (x.type == 3 && x.vc == 2) || ((x.type == 4 || x.type == 5) && x.vc == 3)

/-- Location words of a fabric record (Table 15-7). -/
def State.fabLoc (s : State) (n : Nat) (x : Packet) : ErrLoc :=
  let p := s.port n
  { block := 7, loc0 := pack [(0, n), (3, p.laneFailed)], loc1 := p.peerAddr, loc2 := s.fab.cfg.jobId
    loc3 := pack [(0, x.coll), (8, x.inst)] }

/-- The route entry whose range holds an address (R300). -/
def FabricCfg.routeTo (c : FabricCfg) (dest : Nat) : Option FabRoute :=
  c.routes.find? (fun r => decide (r.first ≤ dest) && decide (dest ≤ r.last))

/-- A port can carry traffic: ACTIVE or FROG. -/
def Port.usable (p : Port) : Bool := decide (2 ≤ p.state)

/-- The egress of a packet and the DETOUR it leaves with (R298, R300); none where no egress is usable. -/
def State.egressOf (s : State) (x : Packet) : Option (Nat × Bool) :=
  match s.fab.cfg.routeTo x.dest with
  | none => none
  | some r =>
    if (s.port r.primary).usable then some (r.primary, x.detour)
    else if ¬ x.detour ∧ r.altEn ∧ (s.port r.alternate).usable then some (r.alternate, true)
    else none

/-- A credit a packet may use (R303, R304). -/
def Port.creditFor (p : Port) (x : Packet) : Bool :=
  if x.detour then decide (0 < smGet 0 p.credits x.vc) else decide (vcReserved x.vc < smGet 0 p.credits x.vc)

/-- Queue a packet at a port. -/
def State.toEgress (s : State) (n : Nat) (x : Packet) : State := s.modPort n (fun p => { p with egress := p.egress ++ [x] })

/-! ### Control packets (Table 11-9) -/

/-- Bytes of the fields of a control packet, by SUBTYPE. -/
def ctlSizes (subtype : Nat) : List Nat :=
  [[], [8, 1], [8, 4, 1], [8, 1, 1, 2, 2], [8, 1, 2], [8, 2], [8, 2], [4]].getD subtype []

/-- The payload of a control packet: SUBTYPE, then the fields unpadded, in whole data units. -/
def ctlBody (subtype : Nat) (fields : List Nat) : List Byte :=
  padUnits (toBytes 1 subtype ++ (List.zipWith toBytes (ctlSizes subtype) fields).flatten)

/-- A control packet of this module: TYPE 4 on virtual channel 3, of no collective and without PSEQ (R299). -/
def State.ctlPacket (s : State) (dest subtype : Nat) (fields : List Nat) : Packet :=
  let b := ctlBody subtype fields
  { type := 4, vc := 3, units := b.length / 16, dest := dest, src := s.fab.cfg.moduleAddr, part := s.fab.cfg.jobPart, body := b }

/-- Note a control packet among those sent. -/
def State.noteCtl (s : State) (dest subtype : Nat) (fields : List Nat) : State :=
  { s with fab := { s.fab with out := s.fab.out ++ [{ dest := dest, subtype := subtype, fields := fields }] } }

/-- Route a control packet of this module (R300): without a route it is discarded with UNREACHABLE. -/
def State.routeCtl (s : State) (x : Packet) : State :=
  match s.egressOf x with
  | some (e, d) => s.toEgress e { x with detour := d }
  | none => s.record cUnreachable (s.fabLoc (((s.fab.cfg.routeTo x.dest).map (fun (r : FabRoute) => r.primary)).getD 0) x)

/-- Send a control packet to each destination by its route. -/
def State.sendCtl (s : State) (dests : List Nat) (subtype : Nat) (fields : List Nat) : State :=
  dests.foldl (fun x d => (x.noteCtl d subtype fields).routeCtl (x.ctlPacket d subtype fields)) s

/-! ### Collectives -/

/-- A collective of one member has no parent and no children: it runs without fabric traffic (R308). -/
def CollCfg.alone (x : CollCfg) : CollCfg := if x.members = 1 then { x with parent := 0xFFFF, children := [] } else x

/-- Collective entry c of the section in force. -/
def State.collCfg (s : State) (c : Nat) : Option CollCfg := s.fab.cfg.colls[c]?.map CollCfg.alone

/-- Bytes of the landing area, and of the result area: half the buffer each. -/
def CollCfg.half (x : CollCfg) : Nat := x.bufMib * 524288

/-- A set of lines with those of a list in [a, b) put in, the set's own there taken out. -/
def smCover (m : SMap Bool) (a b : Nat) (l : List Nat) : SMap Bool :=
  m.filter (fun e => decide (e.1 < a)) ++ l.map (fun x => (x, true)) ++ m.filter (fun e => decide (b ≤ e.1))

/-- Write zeros over a range of whole lines of stack memory (R206, R211, R212, R219): the lines that exist are written in their home
cache, lose their poison, and count as writes of the partition that holds the stack. -/
def State.zeroRange (s : State) (a n : Nat) : State :=
  let l := (linesOf a n).filter (fun x => s.decodeCode x == 0)
  let gone := fun (x : Nat) => l.contains x
  let m := s.memc
  let s := { s with
    mem := s.mem.filter (fun e => !(decide (a ≤ e.1) && decide (e.1 < a + n)) || !gone (lineOf e.1))
    poison := s.poison.filter (fun e => !(decide (a ≤ e.1) && decide (e.1 < a + n)) || !gone e.1)
    memc := { m with
      fixups := m.fixups.filter (fun e => !gone e.1), fresh := m.fresh.filter (fun e => !gone e.1)
      cached := smCover m.cached a (a + n) l, dirty := smCover m.dirty a (a + n) l } }
  match s.stackPart a with
  | some p => s.modLedger p (fun z => { z with wrIssued := z.wrIssued + l.length, wrAcked := z.wrAcked + l.length })
  | none => s

/-- Mark header entry e of partition p invalid. -/
def State.dropHdr (s : State) (p e : Nat) : State :=
  s.modSeq (s.part p).seq (fun x => { x with hdrs := smMod {} x.hdrs e (fun h => { h with valid := false }) })

/-- Output entries of an instance: the gather root has one for each rank. -/
def outEntries (x : CollCfg) (k : Coll) : List Nat :=
  if x.kind = 3 then (if x.parent = 0xFFFF then (upTo x.members).map (fun r => k.entry + r) else []) else [k.entry]

/-- Unacknowledged packets of a collective and partition, over every peer. -/
def FabricState.unackedOf (f : FabricState) (c : Nat) : List (Nat × Nat × Nat) :=
  (f.peers.map (fun e => e.2.unacked.filter (fun u => u.2.2 == c))).flatten

/-- Move the unacknowledged packets of a collective to COLL_RETURNED (R312, R315). -/
def State.returnUnacked (s : State) (c : Nat) : State :=
  let l := s.fab.unackedOf c
  let s := l.foldl (fun (x : State) u => x.modLedger u.2.1 (fun z =>
    { z with collInFlight := z.collInFlight - 1, collReturned := z.collReturned + 1 })) s
  { s with fab := { s.fab with peers := s.fab.peers.map (fun e =>
      (e.1, { e.2 with unacked := e.2.unacked.filter (fun u => u.2.2 != c), txq := e.2.txq.filter (fun x => x.coll != c) })) } }

/-- A service core's token to the waiting tiles (R99): SOURCE 4. Its queue is the translator's, not one of the program's 8 to 15
(R133), and its TAG is open (assumption log 31). -/
def State.collToken (s : State) (p code : Nat) : State :=
  let d := s.draw
  d.2.emitPart p (Config.collQueue % 8) { status := code, source := 4, tag := d.1 % 256 }

/-- A failed instance leaves no output, as an aborted operation leaves none (R62): VALID = 0 on the rows of the output's limbs.
The ring dimension is that of the result header, else of the member's own. -/
def State.spoilOutput (s : State) (x : CollCfg) (k : Coll) : State :=
  let n := (k.resHdr.getD k.hdr).logN
  let n := if 12 ≤ n ∧ n ≤ 17 then n else 12
  if outEntries x k = [] then s
  else s.dropLimbs k.part (if x.kind = 3 then s.region k.part k.rx else (s.bound k.part k.entry).getD {}) n

/-- Instance i is older than instance `inst`, modulo 256 (R308). -/
def instPast (inst i : Nat) : Bool := decide (128 ≤ (i + 256 - inst) % 256)

/-- An instance so long over that its ABORTs are forgotten before its number comes again: the 64 is the model's choice (assumption
log 23). -/
def instOver (inst i : Nat) : Bool := let d := (inst + 256 - i) % 256; decide (64 ≤ d) && decide (d ≤ 128)

/-- End an instance: with a code, the effects of R62 and R315; its token carries the code. -/
def State.endColl (s : State) (c code : Nat) : State :=
  match s.collCfg c with
  | none => s
  | some x =>
    let k := s.coll c
    if ¬ k.isOpen then s
    else
      let s := if code = 0 then s
        else ((s.returnUnacked c).each (outEntries x k) (fun e y => y.dropHdr k.part e)).spoilOutput x k
      let s := if code / 256 = 7 then
          s.record code { part := k.part, block := 7, loc2 := s.fab.cfg.jobId, loc3 := pack [(0, c), (8, k.inst)] } else s
      let s := s.zeroRange x.bufAddr x.half
      let next := (k.inst + 1) % 256
      let s := s.modColl c (fun y => { inst := next, dead := y.dead.filter (fun e => !instPast next e.1) })
      let s := { s with fab := { s.fab with
        aborts := s.fab.aborts.filter (fun a => a.2.2.1 != c || !instOver k.inst a.2.2.2) } }
      (s.collToken k.part code).gEnd k.part code

/-- End every open instance with a code. -/
def State.endAllColls (s : State) (code : Nat) : State := s.each (upTo 64) (fun c x => x.endColl c code)

/-- Any collective instance is open. -/
def State.collOpen (s : State) : Bool := s.fab.colls.any (fun e => e.2.isOpen)

/-- End the instances an ABORT names (R315): one not yet issued here ends when it is issued, an older one has ended. -/
def State.abortNamed (s : State) (c inst cause : Nat) : State :=
  if c = 255 then s.endAllColls cause
  else
    let k := s.coll c
    if k.isOpen ∧ k.inst = inst then s.endColl c cause
    else if (s.collCfg c).isSome ∧ instPast k.inst inst = false then
      s.modColl c (fun y => { y with dead := smSet 0 y.dead inst cause })
    else s

/-- Originate an ABORT for an instance (R314, R315): sent to parent and children, then the instance ends here. -/
def State.originate (s : State) (c inst cause : Nat) : State :=
  let f := s.fab.cfg
  let s := s.sendCtl f.neighbours 3 [f.jobId, c, inst, cause, f.moduleAddr]
  let s := { s with fab := { s.fab with aborts := s.fab.aborts ++ [(f.moduleAddr, cause, c, inst)] } }
  s.abortNamed c inst cause

/-- Originate an ABORT for the instance that is open here. -/
def State.abortColl (s : State) (c cause : Nat) : State := s.originate c (s.coll c).inst cause

/-- Discard a packet that cannot be delivered: UNREACHABLE, and an ABORT for its collective (R298, R300, R314). -/
def State.unreachable (s : State) (n : Nat) (x : Packet) : State :=
  let s := s.record cUnreachable (s.fabLoc n x)
  if x.coll = 255 ∨ s.fab.cfg.jobId = 0 then s else s.originate x.coll x.inst cUnreachable

/-- Queue a packet of this module, or a resubmitted one, at its egress port (R300). -/
def State.submit (s : State) (x : Packet) : State :=
  match s.egressOf x with
  | some (e, d) => s.toEgress e { x with detour := d }
  | none => s.unreachable (((s.fab.cfg.routeTo x.dest).map (fun (r : FabRoute) => r.primary)).getD 0) x

/-! ### Ports that go down or narrow (R297, R298) -/

/-- A port goes DOWN: what it held is resubmitted with DETOUR on the alternate egress (R298). -/
def State.portDown (s : State) (n : Nat) : State :=
  let p := s.port n
  if p.state = 0 then s
  else
    let held := p.replayBuf.flatMap (fun e => e.packets) ++ p.egress
    let s := s.modPort n (fun y => { y with
      state := 0, level := 0, replayBuf := [], egress := [], frogAsked := false, leaving := false, rxStream := [], owed := []
      nakDue := false })
    let moved := s.fab.cfg.routes.any (fun r => r.primary == n && r.altEn && (s.port r.alternate).usable)
    let s := if moved then s.record cRouteFailover (s.fabLoc n { coll := 0 }) else s
    held.foldl (fun x y => x.submit y) s

/-- The half of a port's lanes that a mask of failed lanes hits: low, high. -/
def lowHit (failed : Nat) : Bool := failed % 16 != 0
/-- The upper half is hit. -/
def highHit (failed : Nat) : Bool := failed / 16 != 0

/-- Follow the failed lanes of a port (R297): an x8 port narrows to the half without one and replays what is unacknowledged;
an x4 port that lost a lane, or a port with both halves hit, goes DOWN. -/
def State.followLanes (s : State) (n : Nat) : State :=
  let p := s.port n
  let low := lowHit p.laneFailed
  let high := highHit p.laneFailed
  if ¬ low ∧ ¬ high then s
  else if p.width4 then (if (if p.upper then high else low) then s.portDown n else s)
  else if low ∧ high then s.portDown n
  else
    let s := s.modPort n (fun y => { y with
      width4 := true, upper := low, unackedSince := s.now, replays := if y.replayBuf.isEmpty then y.replays else satInc 16 y.replays })
    s.record cLaneDegraded (s.fabLoc n { coll := 0 })

/-- The credits of a port that enters ACTIVE (Table 11-7, R303). -/
def fullCredits : SMap Nat := (upTo 4).map (fun v => (v, vcBuffers v))

/-- A FROG port is ACTIVE again at its previous width and level (R306). -/
def State.frogReturn (s : State) (n : Nat) : State :=
  if (s.port n).state = 3 then
    (s.modPort n (fun y => { y with state := 2, frogAsked := false, leaving := false, credits := fullCredits, owed := [] })).followLanes n
  else s.modPort n (fun y => { y with frogAsked := false })

/-- A port may train (R294). -/
def State.mayTrain (s : State) (n : Nat) : Bool := bit s.fab.cfg.portEn n && !(s.port n).disable

/-- RETRAIN starts (Table 11-12): the port goes DOWN, forgets its failed lanes and, where it may, trains at full width. -/
def State.retrainStart (s : State) (n : Nat) : State :=
  let s := (s.portDown n).modPort n (fun y => { y with laneFailed := 0, width4 := false, upper := false })
  if s.mayTrain n then s.modPort n (fun y => { y with state := 1 }) else s

/-! ### Leaving a job -/

/-- The die whose ceiling binds partition p: with M = 1, the die with the lower ceiling. -/
def State.dieCeiling (s : State) (p : Nat) : Nat :=
  if (s.part p).tiles = 64 then min s.pwr.c0 s.pwr.c1 else if s.partDie p = 0 then s.pwr.c0 else s.pwr.c1

/-- The member ceiling (R375). -/
def State.memberCeiling (s : State) : Nat := min (min s.pwr.cmax s.pwr.cp) (s.dieCeiling s.fab.cfg.jobPart)

/-- The module ceiling C (R375): M = 1 takes the lower die ceiling, M ≥ 2 the higher. -/
def State.moduleCeiling (s : State) : Nat :=
  let m := (s.img.image.map (fun (x : Image) => x.m)).getD 1
  min (min s.pwr.cmax s.pwr.cp) (if m = 1 then min s.pwr.c0 s.pwr.c1 else max s.pwr.c0 s.pwr.c1)

/-- The job leaves "joined": open instances end with MEMBER_LEFT and the job forms again (R318). -/
def State.jobForming (s : State) : State :=
  let s := s.endAllColls cMemberLeft
  { s with fab := { s.fab with jobState := if s.fab.cfg.jobId = 0 then 0 else 1, ownCeiling := s.moduleCeiling } }

/-- This module leaves its job (R318): LEAVE floods to its neighbours. Without a job, or before its partition has joined,
there is nothing to leave. -/
def State.leaveJob (s : State) : State :=
  let f := s.fab.cfg
  if f.jobId = 0 ∨ (¬ s.fab.joining ∧ s.fab.jobState ≠ 2) then s
  else
    let s := s.sendCtl f.neighbours 6 [f.jobId, f.moduleAddr]
    let s := { s with fab := { s.fab with joining := false } }
    s.jobForming

/-- The job runs at one frequency (R316). -/
def State.locked (s : State) : Bool := s.fab.jobState == 2 && s.fab.cfg.epochUs != 0

/-- The least ceiling this member knows: its own and its children's latest reports. -/
def State.treeCeiling (s : State) : Nat := s.fab.childCeil.foldl (fun m e => min m e.2) s.memberCeiling

/-- Follow the ceilings (R316, R375): the module ceiling, and a CEILING packet to the job parent when the minimum changed. -/
def State.newCeilings (s : State) : State :=
  let s := { s with pwr := { s.pwr with ceiling := s.moduleCeiling }
                    fab := { s.fab with ownCeiling := if s.fab.jobState = 2 then s.memberCeiling else s.moduleCeiling } }
  if s.locked ∧ ¬ s.fab.cfg.isRoot ∧ s.treeCeiling ≠ s.fab.sentCeil then
    let s := s.sendCtl [s.fab.cfg.jobParent] 1 [s.fab.cfg.jobId, s.treeCeiling]
    { s with fab := { s.fab with sentCeil := s.treeCeiling } }
  else s

end Sys2Proof.Machine
end

