-- ==== Sys2Proof/Machine/Messages.lean ====
section
/-! DEFINITION. Message channels: endpoint commands, rings, spill, flags and the progress watchdog (R236 to R254).
Credits and the message counters move when a record is accepted or orphaned (assumption log 18). -/

namespace Sys2Proof.Machine

/-- The message state of partition p. -/
def State.msg (s : State) (p : Nat) : MsgState := (s.part p).msg
/-- Key of a receive queue. -/
def qKey (ep queue : Nat) : Nat := 16 * ep + queue
/-- A receive queue. -/
def State.rq (s : State) (p ep queue : Nat) : RQueue := smGet {} (s.msg p).queues (qKey ep queue)
/-- Change a receive queue. -/
def State.modRq (s : State) (p ep queue : Nat) (f : RQueue → RQueue) : State :=
  s.modMsg p (fun m => { m with queues := smMod {} m.queues (qKey ep queue) f })
/-- The queue entry of the image (Table 9-2). -/
def MsgState.queueCfg (m : MsgState) (ep queue : Nat) : Option QueueCfg :=
  m.sub.queues.find? (fun c => c.ep == ep && c.queue == queue)
/-- The route of a send port. -/
def MsgState.routeOf (m : MsgState) (ep port : Nat) : Option Nat :=
  m.sub.routes.findIdx? (fun r => r.srcEp == ep && r.srcPort == port)
/-- Route r. -/
def MsgState.route (m : MsgState) (r : Nat) : Route := m.sub.routes.getD r {}

/-- Ring size in bytes (R245). -/
def QueueCfg.size (c : QueueCfg) : Nat := 128 * c.ringRows

/-- Bytes of a record in a ring (R238). -/
def recBytes (n : Nat) : Nat := 16 + (n + 15) / 16 * 16

/-- A record's header (Table 9-7). -/
def recHeader (r : Rec) : Nat :=
  pack [(0, r.payload.length), (16, 1), (20, b2n r.spilled), (21, b2n r.setf), (22, r.flag), (32, r.srcEp), (40, r.srcPort)
        , (48, r.route), (64, r.seq % 2 ^ 32)]

/-- A record as bytes, padded to a multiple of 16. -/
def recData (r : Rec) : List Byte :=
  let n := r.payload.length
  toBytes 16 (recHeader r) ++ r.payload ++ List.replicate ((n + 15) / 16 * 16 - n) 0#8

/-- An endpoint of partition p: a partition tile, or a service core (R236). -/
def State.epOk (s : State) (p ep : Nat) : Bool :=
  s.isUp p && (decide (ep < (s.part p).tiles) || (decide (64 ≤ ep) && decide (ep < 68) && (s.core (ep - 64)).state == 0))

/-- The tile of a tile endpoint. -/
def State.epTile (s : State) (p ep : Nat) : Nat := p * (s.part p).tiles + ep

/-- Write bytes at an offset of a queue's ring. -/
def State.ringWrite (s : State) (p : Nat) (c : QueueCfg) (off : Nat) (d : List Byte) : State :=
  if c.ep < 64 then
    s.modTile (s.epTile p c.ep) (fun x =>
      { x with spad := memWrite x.spad (128 * c.ringRow + off) d
               tags := setTags x.tags (c.ringRow + off / 128) ((off + d.length + 127) / 128 - off / 128)
                 (fun _ => { valid := true, stamp := 0 }) })
  else { s with epMem := smMod [] s.epMem (c.ep - 64) (fun m => memWrite m (128 * c.ringRow + off) d) }

/-- Read bytes at a row of an endpoint. -/
def State.epRead (s : State) (p ep row n : Nat) : List Byte :=
  if ep < 64 then s.rowBytes (s.epTile p ep) row n else memBytes (smGet [] s.epMem (ep - 64)) (128 * row) n

/-- Write bytes from a row of an endpoint (R241). -/
def State.epWrite (s : State) (p ep row : Nat) (d : List Byte) : State :=
  if ep < 64 then s.writeRows (s.epTile p ep) row d 0
  else { s with epMem := smMod [] s.epMem (ep - 64) (fun m => memWrite m (128 * row) d) }

/-- The completion of an endpoint command (R240): a token in DONE_Q of a tile, or CORE_DONE of a service core. A DONE_Q of 7
names no queue that takes it. -/
def State.epDone (s : State) (p ep doneQ idx status : Nat) : State :=
  if ep < 64 then
    if doneQ = 7 then s else s.emitTile (s.epTile p ep) doneQ { status := status, source := 3, tag := idx }
  else s.modCore (ep - 64) (fun x => { x with done := true, doneIdx := idx, doneStatus := status })

/-! ### Ledger moves (Table 9-10) -/

/-- A record is accepted: its credit and the message become resident. -/
def Ledger.accept (l : Ledger) : Ledger :=
  { l with crHeld := l.crHeld - 1, crInUse := l.crInUse + 1, msgSent := l.msgSent + 1, msgResident := l.msgResident + 1 }
/-- A record is orphaned at a closed queue. -/
def Ledger.orphan (l : Ledger) : Ledger := { l with msgSent := l.msgSent + 1, msgDead := l.msgDead + 1 }
/-- A resident record leaves, delivered or dead, and its credit returns. -/
def Ledger.leave (l : Ledger) (delivered : Bool) : Ledger :=
  { l with crHeld := l.crHeld + 1, crInUse := l.crInUse - 1, msgDelivered := l.msgDelivered + b2n delivered
           msgDead := l.msgDead + b2n (!delivered), msgResident := l.msgResident - 1 }
/-- n ring bytes are taken. -/
def Ledger.ringTake (l : Ledger) (n : Nat) : Ledger := { l with ringUsed := l.ringUsed + n, ringFree := l.ringFree - n }
/-- n ring bytes are freed. -/
def Ledger.ringGive (l : Ledger) (n : Nat) : Ledger := { l with ringUsed := l.ringUsed - n, ringFree := l.ringFree + n }
/-- A spill page is taken. -/
def Ledger.pageTake (l : Ledger) : Ledger := { l with spFree := l.spFree - 1, spUsed := l.spUsed + 1 }
/-- A spill page is freed. -/
def Ledger.pageGive (l : Ledger) : Ledger := { l with spFree := l.spFree + 1, spUsed := l.spUsed - 1 }
/-- A spill page in use is retired. -/
def Ledger.pageRetire (l : Ledger) : Ledger := { l with spUsed := l.spUsed - 1, spRetired := l.spRetired + 1 }

/-! ### Rings (R245, R246) -/

/-- Where a record of n bytes goes: none to spill, else its offset and the skip bytes before the ring's end. -/
def place (q : RQueue) (size n : Nat) (drain : Bool) : Option (Nat × Nat) :=
  if ¬ drain ∧ ¬ q.spill.isEmpty then none
  else if size - q.used < n then none
  else if q.rp ≤ q.wp ∧ q.used < size then
    if n ≤ size - q.wp then some (q.wp, 0)
    else if n ≤ q.rp then some (0, size - q.wp)
    else none
  else if n ≤ q.rp - q.wp then some (q.wp, 0)
  else none

/-- Remove a skip record at the head (R246). -/
def State.dropSkip (s : State) (p : Nat) (c : QueueCfg) : State :=
  match (s.rq p c.ep c.queue).ring with
  | r :: l =>
    if r.skip then
      (s.modRq p c.ep c.queue (fun q => { q with rp := 0, used := q.used - r.bytes, ring := l })).modLedger p
        (fun z => z.ringGive r.bytes)
    else s
  | [] => s

/-- Put a record into the ring at a place (R245); a skip record written into an empty ring is at its head and goes at once
(R246). -/
def State.ringPut (s : State) (p : Nat) (c : QueueCfg) (m : Rec) (at_ : Nat × Nat) : State :=
  let n := recBytes m.payload.length
  let q := s.rq p c.ep c.queue
  let s := if at_.2 = 0 then s else s.ringWrite p c q.wp (toBytes 16 (pack [(0, at_.2 - 16), (16, 2)]))
  let s := s.ringWrite p c at_.1 (recData m)
  let s := s.modRq p c.ep c.queue (fun q =>
    { q with wp := (at_.1 + n) % c.size, used := q.used + at_.2 + n
             ring := q.ring ++ (if at_.2 = 0 then [] else [{ offset := q.wp, bytes := at_.2, skip := true }])
               ++ [{ offset := at_.1, bytes := n, msg := m }] })
  (s.modLedger p (fun l => l.ringTake (at_.2 + n))).dropSkip p c

/-! ### Spill (R247, R248) -/

/-- A free spill page. -/
def State.freePage (s : State) (p : Nat) : Option Nat :=
  let m := s.msg p
  (upTo (s.part p).spillPages).find? (fun i => !smGet false m.pages i && !smGet false m.retiredPages i)

/-- Address of a spill page. -/
def State.pageAddr (s : State) (p i : Nat) : Nat := (s.part p).spillBase + pageBytes * i

/-- A free page is taken. -/
def State.pageTake (s : State) (p i : Nat) : State :=
  (s.modMsg p (fun x => { x with pages := smSet false x.pages i true })).modLedger p Ledger.pageTake

/-- A page in use leaves the pool (R248). -/
def State.pageRetire (s : State) (p i : Nat) : State :=
  (s.modMsg p (fun m => { m with pages := smSet false m.pages i false
                                 retiredPages := smSet false m.retiredPages i true })).modLedger p Ledger.pageRetire

/-- A page in use is released: free again, or retired where its unit has been withdrawn (R257; assumption log 17). -/
def State.pageGive (s : State) (p i : Nat) : State :=
  if s.isWithdrawn (unitKey (s.pageAddr p i)) then s.pageRetire p i
  else (s.modMsg p (fun m => { m with pages := smSet false m.pages i false })).modLedger p Ledger.pageGive

/-- A page a new record of a queue may take: none while an older record has lost its own and waits for another (R247, R248). -/
def State.pageFor (s : State) (p : Nat) (c : QueueCfg) : Option Nat :=
  if (s.rq p c.ep c.queue).spill.all (fun x => x.page.isSome) then s.freePage p else none

/-- Give a record a spill page, or hold it where it gets none. -/
def State.spillPut (s : State) (p : Nat) (c : QueueCfg) (m : Rec) : State :=
  match s.pageFor p c with
  | some i => (s.pageTake p i).modRq p c.ep c.queue (fun q => { q with spill := q.spill ++ [{ page := some i, msg := m }] })
  | none => s.modRq p c.ep c.queue (fun q => { q with waiting := q.waiting ++ [m] })

/-- The completion of a record's SEND. -/
def State.sendDone (s : State) (p : Nat) (m : Rec) (status : Nat) : State := s.epDone p m.srcEp m.doneQ m.idx status

/-- Place an accepted record: ring, spill, or held behind records without a page (R245, R247). -/
def State.arrive (s : State) (p : Nat) (c : QueueCfg) (m : Rec) : State :=
  let q := s.rq p c.ep c.queue
  if ¬ q.waiting.isEmpty then s.modRq p c.ep c.queue (fun q => { q with waiting := q.waiting ++ [m] })
  else
    match place q c.size (recBytes m.payload.length) false with
    | some a => (s.ringPut p c m a).sendDone p m 0
    | none => s.spillPut p c m

/-- Retry the oldest record without a page, once (R247). -/
def State.retryWaiting (s : State) (p : Nat) (c : QueueCfg) : State :=
  let q := s.rq p c.ep c.queue
  match q.waiting with
  | [] => s
  | m :: r =>
    match place q c.size (recBytes m.payload.length) false with
    | some a => ((s.modRq p c.ep c.queue (fun q => { q with waiting := r })).ringPut p c m a).sendDone p m 0
    | none =>
      if (s.pageFor p c).isSome then (s.modRq p c.ep c.queue (fun q => { q with waiting := r })).spillPut p c m else s

/-- RECORD_ARRIVAL (R245, R250): the oldest record in flight on a route reaches its queue. -/
def execRecordArrival (p route : Nat) (s : State) : Out :=
  guarded (decide (p < 8) && decide (route < 1088)) <|
    let m := s.msg p
    match smGet [] m.flying route with
    | [] => s
    | x :: rest =>
      let r := m.route route
      let s := s.modMsg p (fun m => { m with flying := smSet [] m.flying route rest })
      match (s.msg p).queueCfg r.dstEp r.dstQueue with
      | none => s
      | some c =>
        if (s.rq p c.ep c.queue).closed then
          let s := s.modMsg p (fun m => { m with dead := smSet 0 m.dead route (smGet 0 m.dead route + 1) })
          (s.modLedger p Ledger.orphan).sendDone p x cOrphaned
        else
          let x := { x with seq := smGet 0 m.seqs route }
          let s := s.modMsg p (fun m => { m with
            seqs := smSet 0 m.seqs route ((smGet 0 m.seqs route + 1) % 2 ^ 32)
            inUse := smSet 0 m.inUse route (smGet 0 m.inUse route + 1) })
          (s.modLedger p Ledger.accept).arrive p c x

/-- Give the oldest record whose spill write failed another page, where one is free (R248). -/
def State.repage (s : State) (p : Nat) (c : QueueCfg) : State :=
  match (s.rq p c.ep c.queue).spill.findIdx? (fun x => x.page.isNone), s.freePage p with
  | some i, some j =>
    (s.pageTake p j).modRq p c.ep c.queue (fun q => { q with spill := q.spill.modify i (fun y => { y with page := some j }) })
  | _, _ => s

/-- SPILL_WRITE_COMPLETE (R248): the oldest spill write of a queue ends; on a withdrawn unit its page is retired and the
record tries another, or keeps its place in the list until a page frees. -/
def execSpillWriteComplete (p ep queue : Nat) (s : State) : Out :=
  guarded (decide (p < 8) && decide (ep < 68) && decide (queue < 16)) <|
    let q := s.rq p ep queue
    match (s.msg p).queueCfg ep queue, q.spill.findIdx? (fun x => x.page.isSome && !x.written) with
    | some c, some i =>
      let x := q.spill.getD i {}
      let w := s.storeP p (s.pageAddr p (x.page.getD 0)) (recData x.msg)
      if w.2 = cAddressWithdrawn then
        (((w.1.memFault p 8 (linesOf (s.pageAddr p (x.page.getD 0)) 128) w.2).pageRetire p (x.page.getD 0)).modRq p ep queue (fun q =>
          { q with spill := q.spill.modify i (fun y => { y with page := none }) })).repage p c
      else
        (w.1.modRq p ep queue (fun q => { q with spill := q.spill.modify i (fun y => { y with written := true }) })).sendDone p x.msg 0
    | _, _ => s

/-- The head of a spill list moves into the ring when it fits: read from its page, which is then free, or, without a page,
placed as an arriving record is (R247, R248). -/
def State.drainHead (s : State) (p : Nat) (c : QueueCfg) : State :=
  match (s.rq p c.ep c.queue).spill with
  | [] => s
  | x :: rest =>
    let n := recBytes x.msg.payload.length
    match x.page, place (s.rq p c.ep c.queue) c.size n true with
    | none, some a =>
      ((s.modRq p c.ep c.queue (fun q => { q with spill := rest })).ringPut p c x.msg a).sendDone p x.msg 0
    | some i, some a =>
      if x.written then
        let addr := s.pageAddr p i
        let m : Rec := { x.msg with spilled := true, memCode := s.rangeCode addr n
                                    payload := s.load (addr + 16) x.msg.payload.length }
        let s := ((s.memFault p 8 (linesOf addr n) m.memCode).touch addr n).modRq p c.ep c.queue (fun q => { q with spill := rest })
        (s.pageGive p i).ringPut p c m a
      else s
    | _, none => s

/-- SPILL_DRAIN (R247, R248): the head of a spill list drains, then the records held without a page retry in order. -/
def execSpillDrain (p ep queue : Nat) (s : State) : Out :=
  guarded (decide (p < 8) && decide (ep < 68) && decide (queue < 16)) <|
    match (s.msg p).queueCfg ep queue with
    | none => s
    | some c => ((s.drainHead p c).repage p c).retryWaiting p c

/-! ### Commands (Table 9-5, Table 9-6) -/

/-- A command breaks Table 9-5. -/
def epCmdBad (c : EpCmd) : Bool := c.reserved != 0 || c.doneQ == 7

/-- Rows an endpoint has: a tile's scratchpad, or a core's 512 KiB of endpoint memory (R237). -/
def epRows (ep : Nat) : Nat := if ep < 64 then 49152 else 4096

/-- Credits a route can still give: those neither in use nor taken by a record in flight. -/
def MsgState.creditFree (m : MsgState) (r : Nat) : Bool :=
  decide (smGet 0 m.inUse r + (smGet [] m.flying r).length < (m.route r).credits)

/-- The checks of a SEND on route r in Table 9-6's order: 0 or a code. -/
def State.sendCode (s : State) (p ep r : Nat) (c : EpCmd) : Nat :=
  let n := ceilDiv c.len 128
  if epCmdBad c then cCommandInvalid
  else if ((s.msg p).route r).maxLen < c.len then cMessageTooLong
  else if (ep < 64 ∧ ¬ s.rowsValid (s.epTile p ep) c.row n) ∨ epRows ep < c.row + n then cRowInvalid
  else 0

/-- Serve a SEND: failed, sent or orphaned, or none where it has no credit (R240, R250). -/
def State.trySend (s : State) (p ep r : Nat) (h : HeldCmd) : Option State :=
  let m := s.msg p
  let z := m.route r
  let k := s.sendCode p ep r h.cmd
  if k ≠ 0 then some (s.epDone p ep h.cmd.doneQ h.idx k)
  else if m.creditFree r then
    let x : Rec := { setf := h.cmd.setf, flag := h.cmd.flag, srcEp := ep, srcPort := h.cmd.index, route := r
                     payload := s.epRead p ep h.cmd.row h.cmd.len, doneQ := h.cmd.doneQ, idx := h.idx }
    some (s.modMsg p (fun m => { m with flying := smSet [] m.flying r (smGet [] m.flying r ++ [x]) }))
  else if (s.rq p z.dstEp z.dstQueue).closed then some (s.epDone p ep h.cmd.doneQ h.idx cOrphaned)
  else none

/-- Serve a SEND in the order of its port: at once, or held behind the earlier SENDs (R240). -/
def State.serveSend (s : State) (p ep idx : Nat) (c : EpCmd) : State :=
  match (s.msg p).routeOf ep c.index with
  | none => s.epDone p ep c.doneQ idx cCommandInvalid
  | some r =>
    let h : HeldCmd := { kind := 1, idx := idx, cmd := c }
    let held := smGet [] (s.msg p).heldSend r
    match (if held.isEmpty then s.trySend p ep r h else none) with
    | some t => t
    | none => s.modMsg p (fun m => { m with heldSend := smSet [] m.heldSend r (held ++ [h]) })

/-- Complete every SEND held for a queue: ORPHANED, or the code of an earlier check of Table 9-6 (R240, R250). -/
def State.orphanHeld (s : State) (p ep queue : Nat) : State :=
  s.each (upTo (s.msg p).sub.routes.length) (fun r x =>
    let z := (x.msg p).route r
    if z.dstEp = ep ∧ z.dstQueue = queue then
      let l := smGet [] (x.msg p).heldSend r
      let x := x.modMsg p (fun m => { m with heldSend := smSet [] m.heldSend r [] })
      l.foldl (fun y h =>
        let k := y.sendCode p z.srcEp r h.cmd
        y.epDone p z.srcEp h.cmd.doneQ h.idx (if k ≠ 0 then k else cOrphaned)) x
    else x)

/-- The gate of a queue is open (R252). -/
def MsgState.gateOpen (m : MsgState) (c : QueueCfg) : Bool := !c.gateEn || bit m.flags c.gateFlag

/-- Set a static flag that a delivered record names, from its setter queue (R252). -/
def State.setStatic (s : State) (p ep queue : Nat) (m : Rec) : State :=
  if m.setf ∧ (s.msg p).sub.flags.any (fun f => f.flag == m.flag && !f.dynamic && f.setEp == ep && f.setQueue == queue) then
    s.modMsg p (fun x => { x with flags := x.flags ||| 2 ^ m.flag })
  else s

/-- Deliver the head record of a queue to rows (R241, R246). -/
def State.takeHead (s : State) (p : Nat) (c : QueueCfg) (r : RingRec) (h : HeldCmd) : State :=
  let s := s.epWrite p c.ep h.cmd.row (recData r.msg)
  let s := s.modRq p c.ep c.queue (fun q =>
    { q with rp := (r.offset + r.bytes) % c.size, used := q.used - r.bytes, ring := q.ring.drop 1, lastDelivery := s.now })
  let s := (s.modLedger p (fun l => l.ringGive r.bytes)).modLedger p (fun l => l.leave true)
  let s := s.modMsg p (fun m => { m with inUse := smSet 0 m.inUse r.msg.route (smGet 0 m.inUse r.msg.route - 1) })
  let s := (s.dropSkip p c).setStatic p c.ep c.queue r.msg
  s.epDone p c.ep h.cmd.doneQ h.idx r.msg.memCode

/-- Serve a RECV, CLOSE, OPEN or CLRF of a queue; none where a RECV has to wait (R240). -/
def State.tryQueue (s : State) (p ep : Nat) (h : HeldCmd) : Option State :=
  let c := h.cmd
  let done := fun (t : State) st => some (t.epDone p ep c.doneQ h.idx st)
  match (s.msg p).queueCfg ep c.index with
  | none => done s cCommandInvalid
  | some z =>
    if epCmdBad c then done s cCommandInvalid
    else if h.kind = 2 then
      let q := s.rq p ep c.index
      if q.closed then done s cQueueClosed
      else
        match q.ring with
        | [] => none
        | r :: _ =>
          if ¬ (s.msg p).gateOpen z then none
          else if c.len < r.msg.payload.length then done s cRecvShort
          else if epRows ep < c.row + ceilDiv (16 + r.msg.payload.length) 128 then done s cCommandInvalid
          else some (s.takeHead p z r h)
    else if h.kind = 3 then done ((s.modRq p ep c.index (fun q => { q with closed := true })).orphanHeld p ep c.index) 0
    else if h.kind = 4 then done (s.modRq p ep c.index (fun q => { q with closed := false })) 0
    else if z.gateEn ∧ z.gateFlag = c.flag then
      done (s.modMsg p (fun m => { m with flags := m.flags &&& (2 ^ 32 - 1 - 2 ^ c.flag) })) 0
    else done s cCommandInvalid

/-- Serve a queue's command, or hold it behind the earlier ones (R240). -/
def State.serveQueue (s : State) (p ep : Nat) (h : HeldCmd) : State :=
  match (if (s.rq p ep h.cmd.index).held.isEmpty then s.tryQueue p ep h else none) with
  | some t => t
  | none => s.modRq p ep h.cmd.index (fun q => { q with held := q.held ++ [h] })

/-- A command in Table 9-5's 128 bits. -/
def epCmdBits (kind : Nat) (c : EpCmd) : Nat :=
  pack [(0, c.badCmd.getD kind), (4, c.index), (8, b2n c.setf), (9, c.flag), (14, bits c.reserved 1 0), (16, c.row), (32, c.len)
        , (46, bits c.reserved 3 2), (48, c.doneQ), (52, c.reserved / 16)]

/-- CMD and the other fields of a command's 128 bits (Table 9-5). -/
def epCmdOf (w : Nat) : Nat × EpCmd :=
  let k := bits w 3 0
  (k, { index := bits w 7 4, setf := bit w 8, flag := bits w 13 9, row := bits w 31 16, len := bits w 45 32, doneQ := bits w 51 48
        reserved := bits w 15 14 + 4 * bits w 47 46 + 16 * bits w 127 52
        badCmd := if 1 ≤ k ∧ k ≤ 5 then none else some k })

/-- Serve a command by its CMD. A reserved CMD names neither a port nor a queue to be served in order: it ends at once with
COMMAND_INVALID. -/
def State.serveCmd (s : State) (p ep idx w : Nat) : State :=
  let c := epCmdOf w
  if c.1 = 1 then s.serveSend p ep idx c.2
  else if 2 ≤ c.1 ∧ c.1 ≤ 5 then s.serveQueue p ep { kind := c.1, idx := idx, cmd := c.2 }
  else s.epDone p ep c.2.doneQ idx cCommandInvalid

/-- Trigger an endpoint command of 128 bits: a tile takes the queue-7 token whose TAG is the command's index; a core writes
CORE_CMD. -/
def State.trigger (s : State) (p ep idx w : Nat) : State :=
  let s := s.stir
  if ¬ s.epOk p ep then s
  else if ep < 64 then
    let t := s.epTile p ep
    match s.tokens t 7 with
    | k :: _ =>
      if k.tag = idx then
        ((s.takeToken t 7).modTile t (fun x => { x with cmds := smSet 0 x.cmds idx (BitVec.ofNat 128 w) })).serveCmd p ep idx w
      else s
    | [] => s
  else s.serveCmd p ep idx w

/-- SEND (R240). -/
def execSend (p ep idx : Nat) (c : EpCmd) (s : State) : Out :=
  guarded (epOkArgs p ep idx c) (s.trigger p ep idx (epCmdBits 1 c))

/-- RECV (R240, R241). -/
def execRecv (p ep idx : Nat) (c : EpCmd) (s : State) : Out :=
  guarded (epOkArgs p ep idx c) (s.trigger p ep idx (epCmdBits 2 c))

/-- CLOSE (R249, R250). -/
def execClose (p ep idx : Nat) (c : EpCmd) (s : State) : Out :=
  guarded (epOkArgs p ep idx c) (s.trigger p ep idx (epCmdBits 3 c))

/-- OPEN (R249). -/
def execOpenQueue (p ep idx : Nat) (c : EpCmd) (s : State) : Out :=
  guarded (epOkArgs p ep idx c) (s.trigger p ep idx (epCmdBits 4 c))

/-- CLRF (R252). -/
def execClrf (p ep idx : Nat) (c : EpCmd) (s : State) : Out :=
  guarded (epOkArgs p ep idx c) (s.trigger p ep idx (epCmdBits 5 c))

/-- HELD_COMMAND_RESUME (R240): the oldest held command of a port or queue proceeds once it can. -/
def execHeldCommandResume (p ep index : Nat) (isSend : Bool) (s : State) : Out :=
  guarded (decide (p < 8) && decide (ep < 68) && decide (index < 16)) <|
    if ¬ s.epOk p ep then s
    else if isSend then
      match (s.msg p).routeOf ep index with
      | none => s
      | some r =>
        match smGet [] (s.msg p).heldSend r with
        | [] => s
        | h :: rest =>
          match s.trySend p ep r h with
          | none => s
          | some t => t.modMsg p (fun m => { m with heldSend := smSet [] m.heldSend r rest })
    else
      match (s.rq p ep index).held with
      | [] => s
      | h :: _ =>
        match s.tryQueue p ep h with
        | none => s
        | some t => t.modRq p ep index (fun q => { q with held := q.held.drop 1 })

/-! ### Reset, flags, watchdog -/

/-- A resident record becomes a dead letter and its credit returns (R249). -/
def State.deadLetter (s : State) (p : Nat) (m : Rec) : State :=
  (s.modMsg p (fun x => { x with dead := smSet 0 x.dead m.route (smGet 0 x.dead m.route + 1)
                                 inUse := smSet 0 x.inUse m.route (smGet 0 x.inUse m.route - 1) })).modLedger p
    (fun l => l.leave false)

/-- Reset a queue (R249, R250): held RECVs end with QUEUE_CLOSED, and the other held commands are then served in their order. -/
def State.resetQueue (s : State) (p : Nat) (c : QueueCfg) : State :=
  let q := s.rq p c.ep c.queue
  let s := (q.ring.filter (fun r => !r.skip)).foldl (fun x r => x.deadLetter p r.msg) s
  let s := q.spill.foldl (fun x r =>
    match r.page with
    | some i => ((if r.written then x else x.sendDone p r.msg 0).pageGive p i).deadLetter p r.msg
    | none => (x.deadLetter p r.msg).sendDone p r.msg cOrphaned) s
  let s := q.waiting.foldl (fun x m => (x.deadLetter p m).sendDone p m cOrphaned) s
  let s := s.modLedger p (fun l => l.ringGive q.used)
  let s := if c.gateEn then s.modMsg p (fun m => { m with flags := m.flags &&& (2 ^ 32 - 1 - 2 ^ c.gateFlag) }) else s
  let s := s.modRq p c.ep c.queue (fun q =>
    { q with closed := true, rp := 0, wp := 0, used := 0, ring := [], spill := [], waiting := [], held := [], reported := false })
  q.held.foldl (fun x h =>
    if h.kind = 2 then x.epDone p c.ep h.cmd.doneQ h.idx cQueueClosed else (x.tryQueue p c.ep h).getD x) (s.orphanHeld p c.ep c.queue)

/-- The nominal setter of a dynamic gate flag. -/
def MsgState.dynamicSetter (m : MsgState) (c : QueueCfg) : Option FlagCfg :=
  if c.gateEn then m.sub.flags.find? (fun f => f.flag == c.gateFlag && f.dynamic) else none

/-- A stalled queue (R254). -/
def State.stalled (s : State) (p : Nat) (c : QueueCfg) (f : FlagCfg) : Bool :=
  let q := s.rq p c.ep c.queue
  !bit (s.msg p).flags f.flag && (!q.ring.isEmpty || q.held.any (fun h => h.kind == 2)) && s.progressLimit != 0
    && decide (s.progressLimit * Config.ticksPerUs ≤ s.now - (s.rq p f.setEp f.setQueue).lastDelivery)

/-- PROGRESS_WATCHDOG (R254): a stalled queue creates one NO_PROGRESS record. -/
def execProgressWatchdog (p ep queue : Nat) (s : State) : Out :=
  guarded (decide (p < 8) && decide (ep < 256) && decide (queue < 16)) <|
    match (s.msg p).queueCfg ep queue with
    | none => s
    | some c =>
      match (s.msg p).dynamicSetter c with
      | none => s
      | some f =>
        if s.stalled p c f ∧ ¬ (s.rq p ep queue).reported then
          (s.record cNoProgress { part := p, block := 8, loc0 := pack [(0, ep), (8, queue)]
                                  loc1 := pack [(0, f.setEp), (8, f.setQueue)] }).modRq p ep queue
            (fun q => { q with reported := true })
        else s

/-- Complete the held commands of a partition's tile endpoints with STREAM_ABORTED (R257, kernel stop). -/
def State.abortHeld (s : State) (p : Nat) : State :=
  let s := s.each (upTo (s.msg p).sub.routes.length) (fun r x =>
    let z := (x.msg p).route r
    if z.srcEp < 64 then
      let l := smGet [] (x.msg p).heldSend r
      l.foldl (fun y h => y.epDone p z.srcEp h.cmd.doneQ h.idx cStreamAborted)
        (x.modMsg p (fun m => { m with heldSend := smSet [] m.heldSend r [] }))
    else x)
  (s.msg p).sub.queues.foldl (fun x c =>
    if c.ep < 64 then
      (x.rq p c.ep c.queue).held.foldl (fun y h => y.epDone p c.ep h.cmd.doneQ h.idx cStreamAborted)
        (x.modRq p c.ep c.queue (fun q => { q with held := [] }))
    else x) s

end Sys2Proof.Machine
end

