-- ==== Sys2Proof/Machine/Teardown.lean ====
section
/-! DEFINITION. The ledger's invariants and their breach, the module-fatal state, and the teardown of a partition
(R256, R257, R276, R404). -/

namespace Sys2Proof.Machine

/-! ### Ledger invariants (Table 9-10) -/

/-- Σ CREDITS of a message subsection. -/
def MsgSub.credits (m : MsgSub) : Nat := (m.routes.map (fun r => r.credits)).sum
/-- Σ SIZE of a message subsection. -/
def MsgSub.ringBytes (m : MsgSub) : Nat := (m.queues.map (fun q => q.size)).sum

/-- Row i of Table 9-10 holds for counters with the totals a partition's shape gives. -/
def Ledger.row (l : Ledger) (credits ring spill tiles : Nat) (i : Nat) : Bool :=
  if i = 1 then l.crHeld + l.crInUse == l.crTotal && l.crTotal == credits
  else if i = 2 then l.ringUsed + l.ringFree == l.ringTotal && l.ringTotal == ring
  else if i = 3 then l.spFree + l.spUsed + l.spRetired == l.spTotal && l.spTotal == spill
  else if i = 4 then l.msgSent == l.msgDelivered + l.msgDead + l.msgResident && l.msgResident == l.crInUse
  else if i = 5 then l.tokEmitted == l.tokConsumed + l.tokRetired + l.tokReturned + l.tokResident
  else if i = 6 then l.wrIssued == l.wrAcked + l.wrFailed + l.wrOutstanding
  else if i = 7 then l.ctxFree + l.ctxUsed == l.ctxTotal && l.ctxTotal == 1024 * tiles
  else l.collSent == l.collLanded + l.collReturned + l.collInFlight

/-- Row i of Table 9-10 holds in partition p. -/
def State.ledgerRow (s : State) (p i : Nat) : Bool :=
  let x := s.part p
  x.ledger.row x.msg.sub.credits x.msg.sub.ringBytes x.spillPages x.tiles i

/-- The first failing row, 0 where every invariant holds. -/
def State.ledgerBad (s : State) (p : Nat) : Nat := ([1, 2, 3, 4, 5, 6, 7, 8].find? (fun i => !s.ledgerRow p i)).getD 0

/-- The totals a structure gives, every free and held count at its total, every other counter zero (R257). -/
def freshLedger (credits ring spill tiles : Nat) : Ledger :=
  { crTotal := credits, crHeld := credits, ringTotal := ring, ringFree := ring, spTotal := spill, spFree := spill
    ctxTotal := 1024 * tiles, ctxFree := 1024 * tiles }

/-- The check of a teardown (Table 9-11): the first row it breaks, 0 for none. -/
def Ledger.drainedBad (l : Ledger) : Nat :=
  if l.crHeld ≠ l.crTotal then 1 else if l.ringUsed ≠ 0 then 2 else if l.spUsed ≠ 0 then 3 else if l.tokResident ≠ 0 then 5
  else if l.wrOutstanding ≠ 0 then 6 else if l.ctxUsed ≠ 0 then 7 else if l.collInFlight ≠ 0 then 8 else 0

/-! ### Descriptors in progress -/

/-- RESULT of a failed descriptor for a partition: SEQ_FAULT for RUN (R334), else 0. -/
def State.failResult (s : State) (p opcode : Nat) : Nat :=
  if opcode = 1 ∧ (s.part p).tiles ≠ 0 then seqFault (s.seq (s.part p).seq) else 0

/-- Post a code for every fetched descriptor that a test accepts. -/
def State.postAll (s : State) (test : Desc → Bool) (code : Nat) : State :=
  s.each (upTo 9) (fun n x => x.each (upTo 8) (fun q y =>
    match (y.qp n q).desc with
    | some d => if test d then y.post n q code (y.failResult d.part d.entry.opcode) else y
    | none => y))

/-! ### Kernels and streams -/

/-- Stop a sequencer's kernel with STOPPED and drain it (R113, R114, R257). -/
def State.stopDrain (s : State) (q : Nat) : State :=
  let x := s.seq q
  if x.state = 0 then s
  else
    let s := if x.state = 3 ∧ (s.kern q).faults = []
      then s.addFault q { cycle := x.count, order := (s.kern q).nextOrder, stage := stStop, code := cStopped
                          bare := true, replay := (s.kern q).replay }
      else s.stopKernel q
    (s.drainEnd q).abortHeld (s.seqP q)

/-- Abort every stream run of a partition and drain it (R175). -/
def State.stopStreams (s : State) (p : Nat) : State :=
  s.each (s.partTiles p) (fun t x => x.each (upTo 24) (fun i y =>
    let y := y.abortSlot t i
    if (y.slot t i).state = 3 then y.drainSlot t i else y))

/-- Records in flight reach queues that are closed (R250, R251). -/
def State.orphanFlying (s : State) (p : Nat) : State :=
  s.each (upTo (s.msg p).sub.routes.length) (fun r x =>
    let l := smGet [] (x.msg p).flying r
    let x := x.modMsg p (fun m => { m with flying := smSet [] m.flying r [], dead := smSet 0 m.dead r (smGet 0 m.dead r + l.length) })
    l.foldl (fun y m => (y.modLedger p Ledger.orphan).sendDone p m cOrphaned) x)

/-- Every queue of a partition reset, held SENDs orphaned (R249, R276). -/
def State.resetQueues (s : State) (p : Nat) : State :=
  ((s.msg p).sub.queues.foldl (fun x c => x.resetQueue p c) s).orphanFlying p

/-- Flush the runtime core's queue of a partition. -/
def State.flushRuntime (s : State) (p : Nat) : State :=
  s.modPart p (fun x => { x with runtimeQ := [], ledger := x.ledger.retire x.runtimeQ.length })

/-- Wake every bank of a tile and drop its sleep requests (R388). -/
def wakeBanks (x : Tile) : Tile :=
  { x with sleep := 0, banks := x.banks.map (fun e => (e.1, 3)) }

/-- Remove a package's kernels from its sequencer. -/
def State.dropPackage (s : State) (p : Nat) (g : Package) : State :=
  s.modSeq (s.part p).seq (fun x => { x with ktab := g.kernels.foldl (fun m k => smSet 0 m k.ktab 0) x.ktab })

/-- Unload every package of a partition (R136): RL_ACTIVE returns to 0. -/
def State.unloadAll (s : State) (p : Nat) : State :=
  ((s.part p).pkgs.foldl (fun x g => x.dropPackage p g) s).modPart p (fun x => { x with pkgs := [], rlActive := 0, binds := [] })

/-- A TDI that is locked or running moves to ERROR: its queues stop with TDI_LOCKED (R352, R353). -/
def State.tdiError (s : State) (n : Nat) : State :=
  if (s.fn n).tdi = 1 ∨ (s.fn n).tdi = 2 then
    s.modFn n (fun x => { x with tdi := 3, queues := x.queues.map (fun e =>
      (e.1, if e.2.enable then { e.2 with error := true, errCode := cTdiLocked } else e.2)) })
  else s

/-- Set a partition's PART_STATE and tell its functions. -/
def State.setPartState (s : State) (p st : Nat) : State :=
  if (s.part p).state = st then s
  else ((s.modPart p (fun x => { x with state := st })).evPart 0).evPart (p + 1)

/-- Steps 1 to 3 of R276: no new work, the kernel stops, streams abort, noise requests are abandoned, queues reset. With a
code, every descriptor in progress has already completed with it. -/
def State.tearStart (s : State) (p : Nat) (code : Option Nat) : State :=
  let s := (s.setPartState p 2).tdiError (p + 1)
  let s := match code with
    | some c => s.postAll (fun d => d.part == p) c
    | none => s
  let s := s.stopDrain (s.part p).seq
  let s := s.postAll (fun d => d.part == p && !d.running) cPartitionDown
  let s := s.modPart p (fun x => { x with noiseBusy := false })
  let s := if s.fab.cfg.jobPart = p then s.leaveJob else s
  (((s.stopStreams p).resetQueues p).dropTokens p).flushRuntime p

/-- Step 5 of R276: packages, generator slots, headers and scratchpads. -/
def State.tearEnd (s : State) (p st : Nat) : State :=
  let s := s.unloadAll p
  let s := s.each (s.partTiles p) (fun t x => x.modTile t (fun y =>
    wakeBanks { y with spad := [], tags := [], gen := [], slots := y.slots.map (fun e => (e.1, { e.2 with state := 0, run := none })) }))
  let s := s.modSeq (s.part p).seq (fun x => { x with hdrs := [] })
  s.setPartState p st

/-! ### Module-fatal faults (R404) -/

/-- LEDGER_BREACH and FACTORY_INVALID: every partition is torn down without the ledger check and reads "failed". -/
def State.fatalStop (s : State) (code : Nat) : State :=
  if s.ras.fatal then s
  else
    let s := { s with ras := { s.ras with fatal := true, fatalCode := code } }
    let s := s.leaveJob
    let s := s.postAll (fun _ => true) code
    s.each (upTo 8) (fun p x =>
      if (x.part p).tiles = 0 then x
      else if (x.part p).state = 1 ∨ (x.part p).state = 2 then (x.tearStart p (some code)).tearEnd p 4
      else x.setPartState p 4)

/-- Raise LEDGER_BREACH for a row of a partition's ledger (R256). -/
def State.breach (s : State) (p row : Nat) : State :=
  let s := s.modPart p (fun x => { x with breach := true, breachItem := row })
  (s.record cLedgerBreach { part := p, block := 12 }).fatalStop cLedgerBreach

/-- Check every invariant of a partition's ledger (R256); suspended in TRIPPED (R382). -/
def State.checkLedger (s : State) (p : Nat) (parityError : Bool) : State :=
  if s.pwr.state = 4 ∨ (s.part p).tiles = 0 ∨ (s.part p).breach then s
  else
    let i := s.ledgerBad p
    if i ≠ 0 then s.breach p i
    else if parityError then
      -- which counter lost its parity is free
      let d := s.draw
      d.2.breach p (d.1 % 8 + 1)
    else s

/-- Stop a sequencer's kernel and drain it; the drained stop ends in a check of the ledger (R256). -/
def State.stopChecked (s : State) (q : Nat) : State :=
  if (s.seq q).state = 0 then s else (s.stopDrain q).checkLedger (s.seqP q) false

/-! ### Teardown (R276) -/

/-- Tear down a partition: it reads `st` afterwards, or "failed" where its ledger check raised a breach. -/
def State.tear (s : State) (p st : Nat) (code : Option Nat) : State :=
  let s := s.tearStart p code
  let i := (s.part p).ledger.drainedBad
  if i ≠ 0 ∧ s.pwr.state ≠ 4 then s.breach p i
  else
    let s := s.checkLedger p false
    if s.ras.fatal then s else s.tearEnd p st

end Sys2Proof.Machine
end

