-- ==== Sys2Proof/Machine/Audit.lean ====
section
/-! DEFINITION. Audits of the ledger and the events that end in one; the loss of a stack (R114, R175, R228, R256, R258). -/

namespace Sys2Proof.Machine

/-- LEDGER_CHECK (R256): every millisecond. -/
def execLedgerCheck (p : Nat) (parityError : Bool) (s : State) : Out := guarded (decide (p < 8)) (s.checkLedger p parityError)

/-- KERNEL_DRAIN_END (R114): a faulted kernel has drained; the held commands of its endpoints then complete (R257). -/
def execKernelDrainEnd (q : Nat) (s : State) : Out :=
  guarded (decide (q < 8)) <|
    if (s.seq q).state = 3 ∧ (s.kern q).faults ≠ [] ∧ ¬ s.arrayFrozen q then
      let p := s.seqP q
      ((s.drainEnd q).abortHeld p).checkLedger p false
    else s

/-- STREAM_ABORT_DRAINED (R175): every context has returned. -/
def execStreamAbortDrained (t i : Nat) (s : State) : Out :=
  guarded (slotOk t i) <|
    if (s.slot t i).state = 3 ∧ (s.run t i).contexts = 0 then
      let s := s.abortDrained t i
      match s.tilePart t with
      | some p => s.checkLedger p false
      | none => s
    else s

/-- Capture a partition's counters (R258). -/
def State.capture (s : State) (p : Nat) : State :=
  (s.modPart p (fun x => { x with snapshot := x.ledger, snapped := true, snapTime := s.now })).checkLedger p false

/-- A route's record of a dump: credits held, credits in use, SEQ and dead letters. Their places in the 32 bytes are
8 bytes each (assumption log 21). -/
def State.routeDump (s : State) (p r : Nat) : List Byte :=
  let m := s.msg p
  let used := smGet 0 m.inUse r
  toBytes 8 ((m.route r).credits - used) ++ toBytes 8 used ++ toBytes 8 (smGet 0 m.seqs r) ++ toBytes 8 (smGet 0 m.dead r)

/-- A queue's 16 bytes of a dump: USED, spill-list length, state and gate flag, 4 bytes each (assumption log 21). -/
def State.queueDump (s : State) (p : Nat) (c : QueueCfg) : List Byte :=
  let q := s.rq p c.ep c.queue
  toBytes 4 q.used ++ toBytes 4 q.spill.length ++ toBytes 4 (b2n q.closed)
    ++ toBytes 4 (if c.gateEn then b2n (bit (s.msg p).flags c.gateFlag) else 0)

/-- The dump (R258): captures, then writes the records to LEDGER_DUMP_ADDR; nothing is written outside the partition's stacks (R3;
assumption log 21). -/
def State.dump (s : State) (p : Nat) : State :=
  let m := s.msg p
  let d := ((upTo m.sub.routes.length).map (s.routeDump p)).flatten ++ (m.sub.queues.map (s.queueDump p)).flatten
  let a := (s.part p).dumpAddr
  if s.inStacks p a d.length then ((s.capture p).storeP p a d).1 else s.capture p

/-- STACK_LOSS (R228, R278): every unit of the stack is withdrawn, and the partitions that hold it fail. -/
def execStackLoss (k : Nat) (s : State) : Out :=
  guarded (decide (k < 12)) <|
    if (s.stk k).failed then s
    else
      let s := s.record cStackFailed (memLoc (k * Config.stackStride) 0)
      let s := (s.modStk k (fun x => { x with failed := true, migrations := [] })).withdrawStack k
      s.each (upTo 8) (fun p x =>
        if bit (x.part p).stks k then
          if x.isUp p then x.tear p 4 (some cStackFailed) else if (x.part p).state = 3 then x.setPartState p 4 else x
        else x)

end Sys2Proof.Machine
end

