-- ==== Sys2Proof/Machine/Power.lean ====
section
/-! DEFINITION. Power states, sleeping banks, frequency, cap, thermal response and trips (R368 to R388; assumption log 22). -/

namespace Sys2Proof.Machine

/-- Change the power controller. -/
def State.modPwr (s : State) (f : PwrState → PwrState) : State := { s with pwr := f s.pwr }

/-! ### Eligibility (Table 14-2) -/

/-- A message record is being placed in or drained to a tile ring: one in flight to a queue of a tile. -/
def State.recordsMoving (s : State) : Bool :=
  (upTo 8).any (fun p => (s.msg p).flying.any (fun e => !e.2.isEmpty && decide (((s.msg p).route e.1).dstEp < 64)))

/-- Some stream run is ACTIVE or ABORTING, or some Badger chain runs. -/
def State.streamsBusy (s : State) : Bool :=
  s.tiles.any (fun e => e.2.slots.any (fun x => decide (2 ≤ x.2.state)))
    || s.memc.caches.any (fun e => e.2.chains.any (fun c => c.running))

/-- Eligible for A1. -/
def State.eligA1 (s : State) : Bool := s.seqs.all (fun e => e.2.state == 0) && !s.streamsBusy && !s.recordsMoving

/-- A command is held at some endpoint, or a spill list is not empty. -/
def State.messagesHeld (s : State) : Bool :=
  (upTo 8).any (fun p => (s.msg p).heldSend.any (fun e => !e.2.isEmpty)
    || (s.msg p).queues.any (fun e => !e.2.held.isEmpty || !e.2.spill.isEmpty))

/-- Eligible for Lizard. -/
def State.eligLizard (s : State) : Bool :=
  s.eligA1 && s.pwr.policy.lizardEn && !s.pwr.holdA0 && !s.queueBusy && !s.messagesHeld
    && (upTo 8).all (fun p => (s.part p).ledger.wrOutstanding == 0 && !(s.part p).noiseBusy) && !s.collOpen
    && !s.img.busy && !s.img.nvBusy && s.memc.stks.all (fun e => e.2.migrations == []) && !s.scrubbing

/-- Eligible for Deep Lizard. -/
def State.eligDeep (s : State) : Bool := s.eligLizard && s.pwr.policy.deepEn

/-- The tolerance T (R370). -/
def State.tolerance (s : State) : Nat :=
  let l := max 1 s.host.latTol
  let peers := (s.fab.ports.filter (fun e => decide (2 ≤ e.2.state))).map (fun e => e.2.peerTol)
  let t := peers.foldl min l
  if s.pwr.policy.maxExitUs = 0 then t else min t s.pwr.policy.maxExitUs

/-- A dwell in ticks has passed since some time; 0 acts as 1 (R12). -/
def dwelled (now : Nat) (since : Option Nat) (ticks : Nat) : Bool :=
  match since with
  | some t => decide (ticks ≤ now - t)
  | none => false

/-- The deepest state the module may be in: 0 A0, 1 A1, 2 Lizard, 3 Deep Lizard (R370). -/
def State.deepest (s : State) : Nat :=
  let t := s.tolerance
  let p := s.pwr.policy
  if s.eligDeep ∧ 900 ≤ t ∧ dwelled s.now s.pwr.deepSince (100000 * max 1 p.deepDwellMs) then 3
  else if s.eligLizard ∧ 40 ≤ t ∧ dwelled s.now s.pwr.lizSince (100 * max 1 p.lizardDwellUs) then 2
  else if s.eligA1 ∧ 2 ≤ t then 1
  else 0

/-- Eligible for a power state (Table 14-2). -/
def State.eligible (s : State) (st : Nat) : Bool :=
  if st = 0 then true else if st = 1 then s.eligA1 else if st = 2 then s.eligLizard else s.eligDeep

/-- Exit latency of a power state in µs (Table 14-1). -/
def exitLatency (st : Nat) : Nat := if st = 0 then 0 else if st = 1 then 2 else if st = 2 then 40 else 900

/-! ### Frequency (R375, R376) -/

/-- The frequency the array shall run at: the job frequency of the latest epoch under the module's ceiling (R376); a job that
forms again keeps its last one (R318). -/
def State.targetFreq (s : State) : Nat :=
  if s.fab.cfg.jobId ≠ 0 ∧ s.fab.cfg.epochUs ≠ 0 ∧ s.fab.jobFreq ≠ 0 then min s.fab.jobFreq s.pwr.ceiling else s.pwr.ceiling

/-- Thermal duty (R377). -/
def dutyOf (f c : Nat) : Nat := if c < f then ceilDiv (64 * (f - c)) f else 0

/-- Follow the ceilings and recompute the thermal duties. -/
def State.newLimits (s : State) : State :=
  let s := s.newCeilings
  s.modPwr (fun x => { x with nDie0 := dutyOf x.freq x.c0, nDie1 := dutyOf x.freq x.c1 })

/-- Begin a change of frequency: a step down freezes the array while the clock slews; a step up runs on at the old frequency
until its voltage is up (R376). -/
def State.beginChange (s : State) : State :=
  let t := s.targetFreq
  if t = s.pwr.freq then s
  else s.modPwr (fun x => { x with changing := some t, changeAt := s.now, frozen := decide (t < x.freq) })

/-- FREQUENCY_CHANGE (R376): one asked for during a change waits for its end. -/
def execFrequencyChange (s : State) : Out :=
  guarded true <| if s.pwr.changing.isSome ∨ 2 ≤ s.pwr.state then s else s.beginChange

/-- FREQUENCY_CHANGE_END (R376). -/
def execFrequencyChangeEnd (s : State) : Out :=
  guarded true <|
    match s.pwr.changing with
    | none => s
    | some t => ((s.modPwr (fun x => { x with freq := t, changing := none, frozen := false })).newLimits).beginChange

/-- Each tick: a step up whose voltage has had its 50 µs freezes the array while the clock slews (R376). -/
def State.followClock (s : State) : State :=
  match s.pwr.changing with
  | some t => if s.pwr.freq < t ∧ s.pwr.changeAt + 50 * Config.ticksPerUs ≤ s.now then s.modPwr (fun x => { x with frozen := true }) else s
  | none => s

/-! ### Entry and exit (R370 to R372) -/

/-- A wake trigger starts an exit (R371). -/
def State.startExit (s : State) : State :=
  if 1 ≤ s.pwr.state ∧ s.pwr.state ≤ 3 then s.modPwr (fun x => { x with exiting := true }) else s

/-- The exit is done (R371, R372): A0 again at the frequency that applies; FROG ports return to ACTIVE. -/
def State.exitDone (s : State) : State :=
  let s := s.each (upTo 8) (fun n x => x.frogReturn n)
  let deep := decide (2 ≤ s.pwr.state)
  let s := s.modPwr (fun x => { x with state := 0, exiting := false })
  let s := if deep then (s.modPwr (fun x => { x with freq := s.targetFreq })).newLimits else s
  s.ltr

/-- An access wakes the module (R371, R372): it waits for the exit to A0 and is performed after it. The exit latency is not
modelled (assumption log 22), so the access's command runs the exit to its end first. -/
def State.wake (s : State) : State := if 1 ≤ s.pwr.state ∧ s.pwr.state ≤ 3 then s.exitDone else s

/-- An access by PF0 to a register of its own: it wakes the module; with no running firmware none is served (R398). -/
def State.pf0 (s : State) (f : State → State) : State := if s.fw.running = 2 then s else f s.wake

/-- Each tick: since when the module is continuously eligible, and an exit where it is not eligible for its state any more or the
tolerance has fallen below the state's exit latency (R370, R371; assumption log 22). Work that begins between two ticks starts
the dwells again where it begins (`State.stir`). -/
def State.followPower (s : State) : State :=
  let keep := fun (b : Bool) (o : Option Nat) => if b then some (o.getD s.now) else none
  let t := s.modPwr (fun x => { x with lizSince := keep s.eligLizard x.lizSince, deepSince := keep s.eligDeep x.deepSince })
  let t := if s.pwr.state ≤ 3 ∧ (¬ s.eligible s.pwr.state ∨ s.tolerance < exitLatency s.pwr.state) then t.startExit else t
  t.followClock

/-- Ask for FROG on every ACTIVE port (R306). -/
def State.askFrog (s : State) : State :=
  s.each (upTo 8) (fun n x => if (x.port n).state = 2 then x.modPort n (fun y => { y with frogAsked := true }) else x)

/-- Enter a power state. The array's clock stops in Lizard, so a change of frequency in progress ends there: the exit sets the
frequency that applies then (R372). -/
def State.enterPower (s : State) (st : Nat) : State :=
  if s.deepest ≠ st ∨ st ≤ s.pwr.state ∨ s.pwr.exiting then s
  else
    let s := s.modPwr (fun x => { x with state := st })
    let s := if 2 ≤ st then (s.modPwr (fun x => { x with changing := none, frozen := false })).askFrog else s
    let s := if st = 3 then s.writeBack (fun _ => true) else s
    s.ltr

/-- ENTER_A1. -/
def execEnterA1 (s : State) : Out := guarded true (s.enterPower 1)
/-- ENTER_LIZARD. -/
def execEnterLizard (s : State) : Out := guarded true (s.enterPower 2)
/-- ENTER_DEEP_LIZARD: dirty lines are written back before the caches lose power (R372). -/
def execEnterDeepLizard (s : State) : Out := guarded true (s.enterPower 3)

/-- POWER_STATE_EXIT (R371): an exit that no access of its own command started. -/
def execPowerStateExit (s : State) : Out := guarded true s.startExit

/-- POWER_STATE_EXIT_DONE (R371, R372). -/
def execPowerStateExitDone (s : State) : Out := guarded true (if s.pwr.exiting then s.exitDone else s)

/-! ### Sleeping banks (R373, R374) -/

/-- Banks of a tile that hold a receive ring of the image in force. -/
def State.ringBanks (s : State) (t : Nat) : List Nat :=
  match s.tilePart t with
  | none => []
  | some p =>
    ((s.msg p).sub.queues.filter (fun c => decide (c.ep < 64) && s.epTile p c.ep == t)).flatMap (fun c =>
      (upTo 24).filter (fun b => decide (bankOf c.ringRow ≤ b) && decide (b ≤ bankOf (c.ringRow + c.ringRows - 1))))

/-- Rows of bank b among n rows from a row. -/
def bankRows (b : Nat) (row : Int) (n : Nat) : Nat := ((upTo n).filter (fun (l : Nat) => bankOf (row + l).toNat == b)).length

/-- Transfers of a block with lines held in fetch contexts: accepted, and not all landed. -/
def State.heldTransfers (s : State) (t : Nat) (d : BitVec 512) (r : StreamRun) (k : Block) : List Nat :=
  ((s.spans t d r k.entry).filter (fun x => decide (x.2.1 < k.requested) && decide (k.landed < x.2.1 + x.2.2))).map (fun x => x.1)

/-- Stream-side writes accepted for a bank and not yet landed: rows of load transfers with lines in contexts, and staged Badger
rows (R373). -/
def State.bankWriteCount (s : State) (t b : Nat) : Nat :=
  ((upTo 24).map (fun i =>
    let x := s.slot t i
    let d := x.desc
    let r := s.run t i
    if x.state < 2 ∨ ¬ sdIsLoad d then 0
    else (r.blocks.map (fun k =>
      let n := s.chunkRows t d r k.entry
      let rows := fun (at_ : Nat → Int) (l : List Nat) => (l.map (fun c => bankRows b (at_ c) n)).sum
      (if k.landed < k.requested then rows (beRow r k.entry) ((s.heldTransfers t d r k).flatMap (chunksOf d k.entry)) else 0)
        + (if k.chain = 2 then rows (beRow2 r k.entry) (upTo (beChunks k.entry)) else 0))).sum)).sum

/-- The bank state a write of its sleep bit leads to. -/
def bankNext (st : Nat) (sleep : Bool) : Nat :=
  if sleep then (if st = 0 then 1 else st) else (if st = 1 ∨ st = 2 then 3 else st)

/-- Write BANK_SLEEP_n (R373): bits of banks that hold a receive ring are ignored. -/
def State.writeBankSleep (s : State) (t v : Nat) : State :=
  let keep := s.ringBanks t
  let want := fun b => bit v b && !keep.contains b
  s.modTile t (fun x => { x with
    sleep := ((upTo 24).map (fun b => b2n (want b) * 2 ^ b)).sum
    banks := (upTo 24).foldl (fun m b => smSet 0 m b (bankNext (smGet 0 x.banks b) (want b))) x.banks })

/-- BANK_SLEEP_WRITE (R373). -/
def execBankSleepWrite (t : Nat) (v : Word) (s : State) : Out := guarded (decide (t < 64)) (s.writeBankSleep t v.toNat)

/-- BANK_POWER_OFF (R373, R374): a draining bank without writes left is ASLEEP, and the data of its rows is lost. -/
def execBankPowerOff (t b : Nat) (s : State) : Out :=
  guarded (decide (t < 64) && decide (b < 24)) <|
    if smGet 0 (s.tile t).banks b = 1 ∧ s.bankWriteCount t b = 0 then
      s.modTile t (fun x =>
        let y := clearRows x (2048 * b) 2048
        { y with banks := smSet 0 y.banks b 2 })
    else s

/-- BANK_WAKE_DONE (R373): every row zero with VALID = 0 and STAMP = 0; a bank asked to sleep meanwhile drains next. -/
def execBankWakeDone (t b : Nat) (s : State) : Out :=
  guarded (decide (t < 64) && decide (b < 24)) <|
    if smGet 0 (s.tile t).banks b = 3 then
      s.modTile t (fun x =>
        let y := clearRows x (2048 * b) 2048
        { y with banks := smSet 0 y.banks b (if bit y.sleep b then 1 else 0) })
    else s

/-! ### Cap (R378, R379) -/

/-- The cap in force. -/
def PwrState.cap (x : PwrState) : Nat :=
  if x.capOvr ≠ 0 ∧ x.capOvr < x.policy.capW then x.capOvr else x.policy.capW

/-- The least cap duty that keeps the estimate at or below the cap; 63 where none does. -/
def capDuty (fixed dynamic cap : Nat) : Nat :=
  ((upTo 64).find? (fun n => decide (64 * fixed + dynamic * (64 - n) ≤ 64 * cap))).getD 63

/-- TRIP_RECORD as read. -/
def PwrState.tripRecord (x : PwrState) : Nat := pack [(0, x.tripSource), (2, x.tripIndex), (16, tempBits x.tripTemp)]

/-- DUTY_WINDOW (R377): the duty set before applies in this window, which begins for each sequencer at its schedule cycle. -/
def execDutyWindow (s : State) : Out :=
  guarded true <|
    let s := s.modPwr (fun x =>
      { x with dutyFrozen := smSet 0 (smSet 0 x.dutyFrozen 0 (max x.nDie0 x.nCap)) 1 (max x.nDie1 x.nCap) })
    let seqs : SMap Seq := s.seqs.map (fun (e : Nat × Seq) => (e.1, { e.2 with kern := e.2.kern.map (fun k => { k with windowAt := e.2.count }) }))
    { s with seqs := seqs }

/-- POWER_SAMPLE (R378, R379): an estimate in whole watts; the cap trigger when the mean of the last four is above the cap and
no cap duty is in force. -/
def execPowerSample (staticW dynamicW input : Nat) (s : State) : Out :=
  guarded (decide (staticW + dynamicW < 2 ^ 16) && decide (input < 2 ^ 16)) <|
    let e := staticW + dynamicW
    let l := (e :: s.pwr.estimates).take 4
    let s := s.modPwr (fun x => { x with
      sampleW := e, estimates := l, meanW := l.sum / 4, inputW := input
      msSum := x.msSum + e, msCount := x.msCount + 1 })
    if 4 * s.pwr.cap < l.sum ∧ ¬ s.pwr.capHeld then
      let n := capDuty staticW dynamicW s.pwr.cap
      let s := s.modPwr (fun x => { x with nCap := n, capHeld := n != 0, cp := max 32 (x.freq - 1) })
      let s := s.record cCapThrottle { block := 11, loc0 := s.pwr.status }
      s.newLimits
    else s

/-- CAP_RECOMPUTE (R379): every 100 µs under a cap duty. -/
def execCapRecompute (staticW dynamicW : Nat) (s : State) : Out :=
  guarded (decide (staticW + dynamicW < 2 ^ 16)) <|
    if ¬ s.pwr.capHeld then s
    else
      let n := capDuty staticW dynamicW s.pwr.cap
      (s.modPwr (fun x => { x with nCap := n, capHeld := n != 0, cp := if n = 0 then x.cp else max 32 (x.cp - 1) })).newLimits

/-- One millisecond in ticks. -/
abbrev ticksPerMs : Nat := 100000

/-- CAP_CEILING_RAISE (R379): a millisecond whose mean estimate stayed at or below the cap minus 30 W. -/
def execCapCeilingRaise (s : State) : Out :=
  guarded true <|
    let x := s.pwr
    if s.now < x.msStart + ticksPerMs then s
    else
      let ok := x.msCount ≠ 0 ∧ x.msSum ≤ (x.cap - 30) * x.msCount
      (s.modPwr (fun y => { y with
        msStart := s.now, msSum := 0, msCount := 0, cp := if ok then min (y.cp + 1) (max y.cp y.cmax) else y.cp })).newLimits

/-! ### Thermal response (R380) -/

/-- Take the readings of a die and its stacks. -/
def State.readTemps (s : State) (d : Nat) (t : DieTemps) : State :=
  s.modPwr (fun x => { x with
    tempDie := smSet 0 x.tempDie d t.die
    tempStack := (upTo 6).foldl (fun m i => smSet 0 m (6 * d + i) (t.stks.getD i 0)) x.tempStack })

/-- Readings reach thresholds lowered by some sixteenths of a degree. -/
def tempsReach (p : PowerPolicy) (t : DieTemps) (less : Int) : Bool :=
  decide (16 * (p.dieThrottle : Int) - less ≤ t.die)
    || t.stks.any (fun (x : Int) => decide (16 * (p.stackThrottle : Int) - less ≤ x))

/-- Change the thermal ceiling of a die. -/
def State.modCeil (s : State) (d : Nat) (f : Nat → Nat) : State :=
  (s.modPwr (fun x => if d = 0 then { x with c0 := f x.c0 } else { x with c1 := f x.c1 })).newLimits

/-- A die's readings: it is hot, and a streak of cool readings breaks unless they are 3 °C below their thresholds. -/
def State.followHot (s : State) (d : Nat) (t : DieTemps) : State :=
  s.modPwr (fun x => { x with
    hot := smSet false x.hot d (tempsReach x.policy t 0)
    coolSince := if tempsReach x.policy t 47 then smSet 0 x.coolSince d 0 else x.coolSince })

/-- A hot die's crossing: its ceiling falls by 4 steps. -/
def State.crossing (s : State) (d : Nat) (t : DieTemps) : State :=
  let s := s.modCeil d (fun c => max 32 (c - 4))
  s.record cThermalThrottle { block := 11, loc0 := s.pwr.status, loc1 := tempBits t.die }

/-- THERMAL_THROTTLE (R380): at the crossing the die's ceiling falls by 4 steps. -/
def execThermalThrottle (d : Nat) (temps : DieTemps) (s : State) : Out :=
  guarded (tempsOk d temps) <|
    let was := smGet false s.pwr.hot d
    let s := (s.readTemps d temps).followHot d temps
    if tempsReach s.pwr.policy temps 0 ∧ ¬ was then s.crossing d temps else s

/-- THERMAL_STEP (R380): 2 steps down while hot; one step up for each millisecond the readings stay 3 °C below. -/
def execThermalStep (d : Nat) (temps : DieTemps) (s : State) : Out :=
  guarded (tempsOk d temps) <|
    let was := smGet false s.pwr.hot d
    let s := (s.readTemps d temps).followHot d temps
    if tempsReach s.pwr.policy temps 0 then
      if was then s.modCeil d (fun c => max 32 (c - 2)) else s.crossing d temps
    else if tempsReach s.pwr.policy temps 47 then s
    else
      let t := smGet 0 s.pwr.coolSince d
      if t = 0 then s.modPwr (fun x => { x with coolSince := smSet 0 x.coolSince d (s.now + 1) })
      else if s.now + 1 - t < ticksPerMs then s
      else
        (s.modPwr (fun x => { x with coolSince := smSet 0 x.coolSince d (s.now + 1) })).modCeil d
          (fun c => min (c + 1) (max c s.pwr.cmax))

/-! ### Trips (R381, R382) -/

/-- The die a trip concerns. -/
def tripDie (stack : Bool) (index : Nat) : Nat := if stack then (if index < 6 then 0 else 1) else index

/-- The trip point of a comparator, in 1/16 °C (R381): 115 °C on a die, 105 °C on a stack. -/
def tripPoint (stack : Bool) : Int := 16 * (if stack then 105 else 115)

/-- TRIP: a comparator fires at its trip point (R381): TRIPPED, with every partition failed and the fabric told (R314, R318). What
the dies and stacks held is lost. -/
def execTrip (stack : Bool) (index : Nat) (temp : Int) (s : State) : Out :=
  guarded (decide (index < if stack then 12 else 2) && decide (-32768 ≤ temp) && decide (temp < 32768)) <|
    let t := s.modPwr (fun x => { x with tripSource := if stack then 2 else 1, tripIndex := index, tripTemp := temp })
    if temp < tripPoint stack then s
    else if s.pwr.state = 4 then t
    else
      let s := t
      let f := s.fab.cfg
      let d := s.draw
      let s := if f.jobId = 0 then s else d.2.sendCtl f.neighbours 3 [f.jobId, 255, d.1 % 256, cPeerTripped, f.moduleAddr]
      let s := (s.endAllColls cPeerTripped).leaveJob
      let s := s.postAll (fun _ => true) cThermalTrip
      let s := s.each (upTo 8) (fun p x => if (x.part p).tiles = 0 then x else (x.tdiError (p + 1)).setPartState p 4)
      let s := { s with
        seqs := [], tiles := [], mem := [], poison := []
        memc := { s.memc with fixups := [], caches := s.memc.caches.map (fun (e : Nat × Cache) => (e.1, { e.2 with chains := [] })) }
        pins := { s.pins with thermTrip := true } }
      let s := s.dropLines (fun _ => true)
      let s := s.modPwr (fun x => { x with state := 4, exiting := false, changing := none, frozen := false })
      s.record cThermalTrip { block := 11, loc0 := s.pwr.tripRecord
                              loc1 := tempBits (smGet 0 s.pwr.tempDie (tripDie stack index)) }

/-! ### Ageing and PWR_CTRL -/

/-- The last entry of the ageing record whose check field is valid (R383). -/
def PwrState.ageEntry (x : PwrState) : AgeEntry := (x.ageLog.reverse.find? (fun e => e.ok)).getD {}

/-- What start-up applies (R383): for each die the larger of the factory trim and the record's. -/
def PwrState.applyTrim (x : PwrState) : PwrState :=
  let a := max x.factory0 x.ageEntry.trim0
  let b := max x.factory1 x.ageEntry.trim1
  { x with half0 := a, half1 := b, ageLimit := decide (100 ≤ a) || decide (100 ≤ b) }

/-- AGEING_TRIM (R383): 2.5 mV more for a die, at most 50 mV, and an entry of the ageing record; one whose write is cut short has no
valid check field. -/
def execAgeingTrim (a : AgeIn) (s : State) : Out :=
  guarded (decide (a.die < 2)) <|
    let v := if a.die = 0 then s.pwr.half0 else s.pwr.half1
    if 100 ≤ v then s
    else
      let s := s.modPwr (fun x => if a.die = 0 then { x with half0 := v + 5 } else { x with half1 := v + 5 })
      let s := s.modPwr (fun x => { x with ageLog := x.ageLog ++ [{ trim0 := x.half0, trim1 := x.half1, ok := !a.cut }] })
      if v + 5 < 100 then s
      else
        let s := s.modPwr (fun x => { x with ageLimit := true })
        s.record cAgeingLimit { block := 11, loc0 := s.pwr.status, loc1 := tempBits (smGet 0 s.pwr.tempDie a.die) }

/-- Write PWR_CTRL (Table 14-8): a CAP_OVR outside 0 and 300 to 1,500 discards the write. -/
def State.writePwrCtrl (s : State) (v : Nat) : State :=
  let c := bits v 15 0
  if c = 0 ∨ (300 ≤ c ∧ c ≤ 1500) then s.modPwr (fun x => { x with capOvr := c, holdA0 := bit v 16 }) else s.regAccess 0 11

/-- PWR_CTRL_WRITE. -/
def execPwrCtrlWrite (v : Word) (s : State) : Out := guarded true (s.pf0 (fun s => s.writePwrCtrl v.toNat))

end Sys2Proof.Machine
end

