-- ==== Sys2Proof/Machine/FabricPorts.lean ====
section
/-! DEFINITION. Helbole ports and the switch: flits, replay, training, lanes, failover, Frog (R289 to R307; assumption log
23). -/

namespace Sys2Proof.Machine

/-! ### Sending (R290, R296, R303) -/

/-- The virtual channel whose credits the next flit returns: the lowest with any. -/
def Port.owedVc (p : Port) : Nat := ((upTo 4).find? (fun v => smGet 0 p.owed v != 0)).getD 0

/-- Transmit a flit: it acknowledges, NAKs and returns credits, and it enters the replay buffer (Table 11-2, R296). -/
def Port.transmit (p : Port) (now : Nat) (packets : List Packet) (body : List Byte) : Port :=
  let v := p.owedVc
  let n := min 31 (smGet 0 p.owed v)
  { p with
    replayBuf := p.replayBuf ++ [{ seq := p.txSeq, packets := packets
                                   wire := flitBytes body (flitTrailer p.txSeq ((p.rxNext + 4095) % 4096) p.nakDue v n) }]
    txSeq := (p.txSeq + 1) % 4096, nakDue := false, owed := smSet 0 p.owed v (smGet 0 p.owed v - n)
    unackedSince := if p.replayBuf.isEmpty then now else p.unackedSince }

/-- A packet as it goes through a port: a level-1 link clears DETOUR (R307). -/
def Port.sent (p : Port) (x : Packet) : Packet := if p.level = 1 then { x with detour := false } else x

/-- Flits a packet needs when it starts a flit body. -/
def flitsOf (x : Packet) : Nat := ceilDiv (packetBytes x).length 240

/-- Send a packet through a port: it spends a credit and starts a flit, a packet longer than a body ends in the next one, and
idle fills the rest (R290, R303). -/
def State.sendFlit (s : State) (e : Nat) (x : Packet) : State :=
  s.modPort e (fun p =>
    let y := p.sent x
    let b := fillBody (packetBytes y)
    let p := { p with credits := smSet 0 p.credits x.vc (smGet 0 p.credits x.vc - 1) }
    if b.length ≤ 240 then p.transmit s.now [y] b
    else (p.transmit s.now [] (b.take 240)).transmit s.now [y] (b.drop 240))

/-- A flit of idle packets, sent where no packet is ready (R290). -/
def State.idleFlit (s : State) (n : Nat) : State :=
  if (s.port n).usable ∧ (s.port n).replayBuf.length < 512 then s.modPort n (fun p => p.transmit s.now [] (fillBody [])) else s

/-- Try to send a packet through port e: none while it has to wait. -/
def State.trySendPort (s : State) (e : Nat) (x : Packet) : Option State :=
  let p := s.port e
  if p.state = 3 ∧ x.vc ≠ 3 then none
  else if ¬ p.creditFor x ∨ 512 < p.replayBuf.length + flitsOf x then none
  else some (s.sendFlit e x)

/-- Packets wait at port e: one of virtual channels 0 to 2 makes a FROG port leave Frog and wakes the module (R306, R371). -/
def State.waitAt (s : State) (e : Nat) (l : List Packet) : State :=
  if (s.port e).state = 3 ∧ l.any (fun x => x.vc != 3) then (s.modPort e (fun y => { y with leaving := true })).startExit else s

/-- Take packet i out of a port's ingress: its buffer's credit is owed to the peer (R303). -/
def State.drainIngress (s : State) (n i : Nat) (x : Packet) : State :=
  s.modPort n (fun y => { y with ingress := y.ingress.eraseIdx i, owed := smSet 0 y.owed x.vc (smGet 0 y.owed x.vc + 1) })

/-- A packet at an ingress need not wait: it is delivered here, discarded, or can be sent. -/
def State.passes (s : State) (x : Packet) : Bool :=
  x.dest == s.fab.cfg.moduleAddr ||
    match s.egressOf x with
    | none => true
    | some (e, d) => (s.trySendPort e { x with detour := d }).isSome

/-- Packet i of an ingress goes on: delivered here, discarded, forwarded, or waiting while an idle flit goes out (R290, R300). -/
def State.ingressStep (s : State) (n i : Nat) (x : Packet) : State :=
  if x.dest = s.fab.cfg.moduleAddr then s.drainIngress n i x
  else
    match s.egressOf x with
    | none => (s.drainIngress n i x).unreachable n x
    | some (e, d) =>
      match s.trySendPort e { x with detour := d } with
      | some t => t.drainIngress n i x
      | none => (s.waitAt e [x]).idleFlit n

/-- PACKET_FORWARD (R300): the port's next packet leaves: one queued for egress, else one at its ingress, delivered here or
forwarded; with none ready, an idle flit goes out. The oldest that need not wait goes first, since the fabric keeps no order
(R292, R306). -/
def execPacketForward (n : Nat) (s : State) : Out :=
  guarded (decide (n < 8)) <|
    let p := s.port n
    if p.egress.isEmpty then
      let i := (p.ingress.findIdx? s.passes).getD 0
      match p.ingress[i]? with
      | none => s.idleFlit n
      | some x => s.ingressStep n i x
    else if ¬ p.usable then s
    else
      let s := s.waitAt n p.egress
      let i := (p.egress.findIdx? (fun x => (s.trySendPort n x).isSome)).getD 0
      match p.egress[i]?.bind (s.trySendPort n) with
      | some t => t.modPort n (fun y => { y with egress := p.egress.eraseIdx i })
      | none => s.idleFlit n

/-! ### Receiving (R290, R291, R296, R302, R303) -/

/-- Sequence number a is covered by an acknowledgement of b. -/
def ackCovers (a b : Nat) : Bool := decide ((b + 4096 - a % 4096) % 4096 < 2048)

/-- A packet the port accepts: its TYPE matches its VC, and a FROG port takes virtual channel 3 alone. -/
def Port.accepts (p : Port) (x : Packet) : Bool := vcOk x && (p.state == 2 || x.vc == 3)

/-- A flit that is discarded: counted, and NAKed by the next flit sent. -/
def State.discardFlit (s : State) (n : Nat) : State :=
  s.modPort n (fun y => { y with uncorrectable := satInc 16 y.uncorrectable, nakDue := true })

/-- The next flit in sequence is accepted: acknowledgements, credits and packets. The buffer of a packet that is discarded drains at
once, and its credit is owed to the peer (R302, R303). -/
def Port.acceptFlit (p : Port) (now : Nat) (d : List Byte) : Port :=
  let t := leAt d 240 4
  let b := p.rxStream ++ d.take 240
  let r := cutStream (b.length / 16) b
  let buf := p.replayBuf.filter (fun e => !ackCovers e.seq (bits t 23 12))
  let vc := bits t 26 25
  { p with
    rxNext := (p.rxNext + 1) % 4096, nakDue := false, lastAck := bits t 23 12, replayBuf := buf
    unackedSince := if buf.length < p.replayBuf.length ∨ bit t 24 then now else p.unackedSince
    replays := if bit t 24 ∧ ¬ buf.isEmpty then satInc 16 p.replays else p.replays
    credits := smSet 0 p.credits vc (min (vcBuffers vc) (smGet 0 p.credits vc + bits t 31 27))
    rxStream := r.2
    ingress := p.ingress ++ r.1.filter p.accepts
    owed := (r.1.filter (fun x => x.type != 0 && !p.accepts x)).foldl (fun m x => smSet 0 m x.vc (smGet 0 m x.vc + 1)) p.owed
    uncorrectable := min (p.uncorrectable + (r.1.filter (fun x => x.type != 0 && !p.accepts x)).length) (2 ^ 16 - 1) }

/-- FLIT_RECEIVE (R291, R296, R302, R303): a flit's body of 240 bytes and the 16 after it: corrected symbols are counted; a flit
that the FEC or the CRC fails is discarded and
NAKed; only the next flit in sequence is accepted. -/
def execFlitReceive (n : Nat) (body tail : List Byte) (s : State) : Out :=
  guarded (decide (n < 8) && body.length == 240 && tail.length == 16) <|
    if ¬ (s.port n).usable then s
    else
      match flitCorrected (body ++ tail) with
      | none => s.discardFlit n
      | some (d, fixed) =>
        let s := s.modPort n (fun y => { y with fecCorrected := min (y.fecCorrected + fixed) (2 ^ 32 - 1) })
        if ¬ flitCrcOk d then s.discardFlit n
        else if bits (leAt d 240 4) 11 0 ≠ (s.port n).rxNext then s
        else s.modPort n (fun y => y.acceptFlit s.now d)

/-- REPLAY_TIMEOUT (R296): 2 µs without an acknowledgement. -/
def execReplayTimeout (n : Nat) (s : State) : Out :=
  guarded (decide (n < 8)) <|
    let p := s.port n
    if p.usable ∧ ¬ p.replayBuf.isEmpty ∧ 200 ≤ s.now - p.unackedSince then
      s.modPort n (fun y => { y with replays := satInc 16 y.replays, unackedSince := s.now })
    else s

/-! ### Training (R294, R295) -/

/-- The level of a link (R295); none where the ranges do not meet. -/
def linkLevel (max_ lo hi : Nat) : Option Nat := if max 1 lo ≤ min max_ hi then some (min max_ hi) else none

/-- A failed training: DOWN; the third in a row records LINK_DOWN. -/
def State.trainFail (s : State) (n : Nat) : State :=
  let s := s.modPort n (fun y => { y with
    state := 0, level := 0, trainFails := satInc 16 y.trainFails, fails := y.fails + 1, failTime := s.now })
  if (s.port n).fails = 3 then s.record cLinkDown (s.fabLoc n { coll := 0 }) else s

/-- A lane passes the lane test: no uncorrectable symbol and fewer than 100 corrected ones. -/
def lanePasses (x : Nat × Nat) : Bool := x.1 == 0 && decide (x.2 < 100)

/-- Bit i: lane i passes the lane test. -/
def lanesPassing (l : List (Nat × Nat)) : Nat := pack ((upTo 8).map (fun i => (i, b2n (lanePasses (l.getD i (1, 0))))))

/-- A step of the training ends within its limit in microseconds. -/
def stepInTime (limit : Nat) (t : Option Nat) : Bool := t.any (fun n => decide (n ≤ limit))

/-- Train a port (R294): under way, to ACTIVE, or back to DOWN. -/
def State.train (s : State) (n : Nat) (t : TrainIn) : State :=
  if t.running then s.modPort n (fun y => { y with state := 1 })
  else if ¬ stepInTime 1000 t.lockUs then s.trainFail n
  else
    let s := s.modPort n (fun y => { y with peerAddr := t.peerAddr })
    match linkLevel s.fab.cfg.maxLevel t.peerLo t.peerHi with
    | none => (s.record cLinkLevel (s.fabLoc n { coll := 0 })).trainFail n
    | some l =>
      let lanes := lanesPassing t.laneTest
      let low := lanes % 16 == 15
      let high := lanes / 16 == 15
      if ¬ stepInTime 20000 t.eqUs ∨ (¬ low ∧ ¬ high) then s.trainFail n
      else s.modPort n (fun y => { y with
        state := 2, level := l, width4 := !(low && high), upper := !low, laneFailed := 255 - lanes, fails := 0
        txSeq := 0, rxNext := 0, lastAck := 0, nakDue := false, replayBuf := [], unackedSince := s.now, frogAsked := false
        leaving := false, rxStream := [], owed := [], credits := fullCredits })

/-- PORT_TRAINING (R294): a DOWN port that may train and has no failed training to wait for, or one in TRAINING. -/
def execPortTraining (n : Nat) (link : TrainIn) (s : State) : Out :=
  guarded (trainOk n link) <|
    let p := s.port n
    if (p.state = 1 ∨ (p.state = 0 ∧ p.fails = 0)) ∧ s.mayTrain n then s.train n link else s

/-- TRAINING_RETRY (R294): 100 ms after a failure, 1 s after the third in a row. -/
def execTrainingRetry (n : Nat) (link : TrainIn) (s : State) : Out :=
  guarded (trainOk n link) <|
    let p := s.port n
    if p.state = 0 ∧ p.fails ≠ 0 ∧ s.mayTrain n ∧ (if p.fails < 3 then 10000000 else 100000000) ≤ s.now - p.failTime then
      s.train n link
    else s

/-! ### Link loss and lanes (R297, R298) -/

/-- PORT_DOWN: the link is lost. -/
def execPortDown (n : Nat) (s : State) : Out := guarded (decide (n < 8)) (s.portDown n)

/-- LANE_FAILURE (R297): an x8 port narrows to its other half; an x4 port, or one with both halves hit, goes DOWN. A FROG port
uses lane 0 alone: it follows its other lanes when it leaves Frog. -/
def execLaneFailure (n lane : Nat) (s : State) : Out :=
  guarded (decide (n < 8) && decide (lane < 8)) <|
    let p := s.port n
    if ¬ p.usable then s
    else
      let s := s.modPort n (fun y => { y with laneFailed := y.laneFailed ||| 2 ^ lane })
      if p.state = 3 then (if lane = 0 then s.portDown n else s) else s.followLanes n

/-- RETRAIN (PORT_CTRL.RETRAIN): from DOWN at full width. -/
def execRetrain (n : Nat) (link : TrainIn) (s : State) : Out :=
  guarded (trainOk n link) <|
    let t := s.retrainStart n
    if t.mayTrain n then t.train n link else t

/-! ### Frog (R306) -/

/-- FROG_ENTRY: both ends ask for it; this end asks only in Lizard or Deep Lizard. -/
def execFrogEntry (n : Nat) (s : State) : Out :=
  guarded (decide (n < 8)) <|
    let p := s.port n
    if p.state = 2 ∧ p.frogAsked ∧ (s.pwr.state = 2 ∨ s.pwr.state = 3) then s.modPort n (fun y => { y with state := 3 }) else s

/-- FROG_EXIT: ACTIVE again for traffic that waits, or once the module is in neither Lizard nor Deep Lizard. -/
def execFrogExit (n : Nat) (s : State) : Out :=
  guarded (decide (n < 8)) <|
    let p := s.port n
    if p.state = 3 ∧ (p.leaving ∨ ¬ (s.pwr.state = 2 ∨ s.pwr.state = 3)) then s.frogReturn n else s

/-- ADVERT (R306): a peer's latency tolerance. -/
def execAdvert (n tol : Nat) (s : State) : Out :=
  guarded (decide (n < 8) && decide (tol < 2 ^ 32)) (s.modPort n (fun y => { y with peerTol := tol }))

/-- The tolerance this module offers its peers. -/
def State.offered (s : State) : Nat := min (max 1 s.host.latTol) (max 1 s.pwr.policy.fabricTolUs)

/-- Advertise the tolerance on every port when it differs from an earlier one (R306). -/
def State.advertise (s : State) (before : Nat) : State :=
  if s.offered = before then s
  else s.each (upTo 8) (fun n x => if (x.port n).usable then
        (x.noteCtl (x.port n).peerAddr 7 [x.offered]).toEgress n (x.ctlPacket (x.port n).peerAddr 7 [x.offered])
      else x)

end Sys2Proof.Machine
end

