-- ==== Sys2Proof/Machine/FabricJob.lean ====
section
/-! DEFINITION. Jobs: one frequency, joining and leaving, aborts (R314 to R318). -/

namespace Sys2Proof.Machine

/-- This module has job `job`. -/
def State.inJob (s : State) (job : Nat) : Bool := s.fab.cfg.jobId != 0 && s.fab.cfg.jobId == job

/-- Job-tree neighbours but one. -/
def State.othersThan (s : State) (n : Nat) : List Nat := s.fab.cfg.neighbours.filter (· != n)

/-! ### Frequency (R316) -/

/-- An epoch boundary: the array follows the job frequency. -/
def State.epochAt (s : State) (e f : Nat) : State :=
  let s := { s with fab := { s.fab with jobFreq := f, epochNo := e, epochLow := e % 2 ^ 16, lastEpoch := s.now, lockLost := false } }
  if s.pwr.changing.isSome ∨ 2 ≤ s.pwr.state then s else s.beginChange

/-- The least ceiling the children have reported. -/
def State.childrenCeiling (s : State) : Nat := s.fab.childCeil.foldl (fun m e => min m e.2) 256

/-- A module that has left its job relays the ceilings of the members below it, without its own (R318). -/
def State.relayCeiling (s : State) (job : Nat) : State :=
  if s.fab.joining ∨ s.fab.cfg.isRoot ∨ s.childrenCeiling = s.fab.sentCeil then s
  else
    let s := s.sendCtl [s.fab.cfg.jobParent] 1 [job, s.childrenCeiling % 256]
    { s with fab := { s.fab with sentCeil := s.childrenCeiling } }

/-- CEILING: a child's subtree minimum. -/
def execCeiling (from_ job step : Nat) (s : State) : Out :=
  guarded (decide (from_ < 2 ^ 16) && decide (job < 2 ^ 64) && decide (step < 256)) <|
    if s.inJob job ∧ s.fab.cfg.jobChildren.contains from_ then
      (({ s with fab := { s.fab with childCeil := smSet 256 s.fab.childCeil from_ step } }).relayCeiling job).newCeilings
    else s

/-- EPOCH: forwarded down the job tree; the epoch boundary of a joined member. -/
def execEpoch (job e f : Nat) (s : State) : Out :=
  guarded (decide (job < 2 ^ 64) && decide (e < 2 ^ 32) && decide (f < 256)) <|
    if ¬ s.inJob job then s
    else
      let s := s.sendCtl s.fab.cfg.jobChildren 2 [job, e, f]
      if s.locked then s.epochAt e f else s

/-- EPOCH_TIMER: the job root starts an epoch every EPOCH_US with the least ceiling it knows. -/
def execEpochTimer (s : State) : Out :=
  guarded true <|
    let c := s.fab.cfg
    if s.locked ∧ c.isRoot ∧ c.jobId ≠ 0 ∧ c.epochUs * Config.ticksPerUs ≤ s.now - s.fab.lastEpoch then
      let e := (s.fab.epochNo + 1) % 2 ^ 32
      let f := s.treeCeiling
      (s.sendCtl c.jobChildren 2 [c.jobId, e, f]).epochAt e f
    else s

/-- FREQ_LOCK_LOST: four periods without an EPOCH; the frequency stays. -/
def execFreqLockLost (s : State) : Out :=
  guarded true <|
    if s.locked ∧ ¬ s.fab.lockLost ∧ 4 * s.fab.cfg.epochUs * Config.ticksPerUs ≤ s.now - s.fab.lastEpoch then
      ({ s with fab := { s.fab with lockLost := true } }).record cFreqLockLost (s.fabLoc 0 { coll := 0 })
    else s

/-! ### Aborts (R314, R315) -/

/-- ABORT: forwarded once to every other neighbour. -/
def execAbort (from_ job coll inst cause origin : Nat) (s : State) : Out :=
  guarded (decide (from_ < 2 ^ 16) && decide (job < 2 ^ 64) && decide (coll < 256) && decide (inst < 256)
      && decide (cause < 2 ^ 16) && decide (origin < 2 ^ 16)) <|
    if ¬ s.inJob job ∨ s.fab.aborts.contains (origin, cause, coll, inst) then s
    else
      let s := { s with fab := { s.fab with aborts := s.fab.aborts ++ [(origin, cause, coll, inst)] } }
      let s := s.sendCtl (s.othersThan from_) 3 [job, coll, inst, cause, origin]
      s.abortNamed coll inst cause

/-! ### Joining and leaving (R317, R318) -/

/-- Set the job state, and what its members do at once. A job that joins anew obeys the ABORTs of every instance anew. -/
def State.setJob (s : State) (status : Nat) : State :=
  let s := { s with fab := { s.fab with aborts := s.fab.aborts.filter (fun a => a.2.2.1 != 255), jobState := if status = 0 then 2 else 3, lastEpoch := s.now, lockLost := false, sentCeil := 0 } }
  s.newCeilings

/-- The level a subtree reports: one that differs from JOB_LEVEL, if any member's does. -/
def State.joinLevel (s : State) (l : List Nat) : Nat := (l.find? (· != s.fab.cfg.jobLevel)).getD s.fab.cfg.jobLevel

/-- Once every child has reported: the sum goes up, or the root decides (R317). -/
def State.tryJoin (s : State) : State :=
  let f := s.fab
  let c := f.cfg
  if c.jobId = 0 ∨ c.jobChildren.any (fun a => (smGet (0, 0) f.childJoin a).2 == 0) then s
  else
    let kids := c.jobChildren.map (fun a => smGet (0, 0) f.childJoin a)
    let count := (kids.map (fun e => e.2)).sum + b2n f.joining
    let level := s.joinLevel ((if f.joining then [(s.part c.jobPart).rlActive] else []) ++ kids.map (fun e => e.1))
    if count = 0 then s
    else if ¬ c.isRoot then s.sendCtl [c.jobParent] 4 [c.jobId, level, count]
    else if level ≠ c.jobLevel then (s.sendCtl c.jobChildren 5 [c.jobId, cJobLevelMismatch]).setJob cJobLevelMismatch
    else if count = c.jobMembers then (s.sendCtl c.jobChildren 5 [c.jobId, 0]).setJob 0
    else s

/-- A package has loaded into the partition that is the job member (R317). -/
def State.joinJob (s : State) : State :=
  if s.fab.cfg.jobId = 0 ∨ s.fab.joining then s
  else ({ s with fab := { s.fab with joining := true, joinSince := s.now } }).tryJoin

/-- JOIN: a child's report; one of zero members reports none. -/
def execJoin (from_ job level count : Nat) (s : State) : Out :=
  guarded (decide (from_ < 2 ^ 16) && decide (job < 2 ^ 64) && decide (level < 256) && decide (count < 2 ^ 16)) <|
    if s.inJob job ∧ s.fab.cfg.jobChildren.contains from_ then
      ({ s with fab := { s.fab with childJoin := smSet (0, 0) s.fab.childJoin from_ (level, count) } }).tryJoin
    else s

/-- JOIN_RESULT: joined or refused; flooded down. -/
def execJoinResult (job status : Nat) (s : State) : Out :=
  guarded (decide (job < 2 ^ 64) && decide (status < 2 ^ 16)) <|
    if ¬ s.inJob job then s
    else
      let s := s.sendCtl s.fab.cfg.jobChildren 5 [job, status]
      if s.fab.joining then s.setJob status else s

/-- LEAVE: flooded on; open instances end with MEMBER_LEFT and the job forms again. -/
def execLeave (from_ job origin : Nat) (s : State) : Out :=
  guarded (decide (from_ < 2 ^ 16) && decide (job < 2 ^ 64) && decide (origin < 2 ^ 16)) <|
    if ¬ s.inJob job then s
    else
      let s := s.sendCtl (s.othersThan from_) 6 [job, origin]
      let s := { s with fab := { s.fab with childJoin := smSet (0, 0) s.fab.childJoin from_ (0, 0)
                                            childCeil := smSet 256 s.fab.childCeil from_ 256, joinSince := s.now } }
      s.jobForming

/-- JOIN_LIMIT_EXPIRY (R317): pending collectives complete with JOB_NOT_READY. -/
def execJoinLimitExpiry (s : State) : Out :=
  guarded true <|
    if s.fab.joining ∧ s.fab.jobState ≠ 2 ∧ s.fab.joinLimit ≠ 0 ∧ s.fab.joinLimit * ticksPerMs ≤ s.now - s.fab.joinSince then
      s.endAllColls cJobNotReady
    else s

end Sys2Proof.Machine
end

