-- ==== Sys2Proof/Machine/GlahusCtl.lean ====
section
/-! DEFINITION. Glahus control, load, store and binding operations, opcodes 0x0000 to 0x0106 (R126 to R128, R431). -/

namespace Sys2Proof.Machine

/-- Translation rejects a NOP (R133). -/
def nopBad (g : GInstr) : Bool :=
  unusedBad {} g

/-- NOP: no effect. -/
def runNop (p : Nat) (g : GInstr) (s : State) : State :=
  s.gRun p (nopBad g) (fun s => s)

/-- NOP. -/
def execNop (p : Nat) (g : GInstr) (s : State) : Out := guarded (gOk p g) (s.gCmd p 0x0000 g (runNop p g))

/-- Translation rejects a WAITT (R133). -/
def waittBad (g : GInstr) : Bool :=
  unusedBad { f0 := true, f1 := true } g || decide (g.f0 < 8) || decide (15 < g.f0) || g.f1 == 0 || decide (15 < g.f1)

/-- Consume the tokens of a WAITT (R101, R102): the lowest bad STATUS stops the kernel. -/
def State.waittTake (s : State) (p : Nat) (g : GInstr) : State :=
  let c := (s.tokenStatus p g.f0 g.f1).1
  let s := s.takeTokens p g.f0 g.f1
  if c ≠ 0 then s.gFault p c else s

/-- WAITT (R101, R102): F1 tokens leave queue F0 of every tile; until every tile holds them the command waits, and those
after it wait behind it. -/
def runWaitt (p : Nat) (g : GInstr) (s : State) : State :=
  s.gRun p (waittBad g) (fun s =>
    if s.tokensReady p g.f0 g.f1 then s.waittTake p g
    else s.modPart p (fun x => { x with held := (0x0001, g) :: x.held, heldSince := s.now }))

/-- WAITT. -/
def execWaitt (p : Nat) (g : GInstr) (s : State) : Out := guarded (gOk p g) (s.gCmd p 0x0001 g (runWaitt p g))

/-- Translation rejects an EMITT (R133). -/
def emittBad (g : GInstr) : Bool :=
  unusedBad { f0 := true, f1 := true } g || decide (g.f0 < 8) || decide (15 < g.f0) || decide (1 < g.f1)

/-- EMITT (R103): one token in queue F0 of every tile, or one to the runtime. Its TAG is the OPID of its word: in a package's
kernel its operation-table entry, for a command of its own free. -/
def runEmitt (p : Nat) (g : GInstr) (s : State) : State :=
  s.gRun p (emittBad g) (fun s =>
    let d := s.draw
    let id := match (s.pseq p).kern with
      | some k => ktOpBase ((s.pseq p).kt k.kernel) + k.pos
      | none => d.1
    let k : Token := { status := 0, source := 2, tag := id % 256 }
    let s := d.2
    if g.f1 = 1 then s.emitRuntime p k
    else
      let full := (s.partTiles p).any (fun t => decide (64 ≤ (s.tokens t g.f0).length))
      let s := s.each (s.partTiles p) (fun t x =>
        if (x.tokens t g.f0).length < 64 then x.emitTile t g.f0 k else x.modLedger p Ledger.returned)
      if full then s.gFault p cTokenOverflow else s)

/-- EMITT. -/
def execEmitt (p : Nat) (g : GInstr) (s : State) : Out := guarded (gOk p g) (s.gCmd p 0x0002 g (runEmitt p g))

/-- Bind an entry to a region operand (R126). -/
def State.bindEntry (s : State) (p e v : Nat) : State :=
  s.modPart p (fun x => { x with binds := smSet 0 x.binds e (v + 1) })

/-- A region of LDCT or BIND that translation rejects (R126, R165). -/
def State.bindRegionBad (s : State) (p v : Nat) : Bool := s.limbRegionBad p v 12 || s.zeroStrideDst p v

/-- Translation rejects a BIND (R126, R133). -/
def State.bindBad (s : State) (p : Nat) (g : GInstr) : Bool :=
  unusedBad { f0 := true, rx := true } g || s.bindRegionBad p g.rx

/-- BIND (R126). -/
def runBind (p : Nat) (g : GInstr) (s : State) : State :=
  s.gRun p (s.bindBad p g) (fun s => s.bindEntry p g.f0 g.rx)

/-- BIND. -/
def execBind (p : Nat) (g : GInstr) (s : State) : Out := guarded (gOk p g) (s.gCmd p 0x0102 g (runBind p g))

/-- Memory index of limb j of component c under a header's ORDER (Table 3-3). -/
def memLimb (h : Header) (c j : Nat) : Nat := if h.order then j * h.comps + c else c * (h.limbs + h.specials) + j

/-- LOG_N of a header names a limb size of the module. -/
def logNOk (h : Header) : Bool := decide (12 ≤ h.logN) && decide (h.logN ≤ 17)

/-- Translation rejects an LDCT (R126, R133). -/
def State.ldctBad (s : State) (p : Nat) (g : GInstr) : Bool :=
  unusedBad { canon := true, f0 := true, pset := g.canon, param := true, imm64 := true, rx := true } g
    || (g.canon && (s.pset? g.pset).isNone) || constAddrBad g || s.bindRegionBad p g.rx

/-- LDCT (R55, R126, R167, R431): header into the entry, body into RX in component-major order. A header whose LOG_N names no limb
size sizes no body: the load takes the header alone, and the operation that names the entry judges it (R56; assumption log 38). A
noncanonical residue in a
checked load leaves no row of RX valid: the model's choice beside R166, which names the failing chunk's rows (assumption
log 38). -/
def runLdct (p : Nat) (g : GInstr) (s : State) : State :=
  s.gRun p (s.ldctBad p g) (fun s =>
    let a := s.gAddr p g
    let s := s.bindEntry p g.f0 g.rx
    let r := s.region p g.rx
    if a % 2048 ≠ 0 then s.gFault p cParamRange
    else if ¬ s.inStacks p a 2048 then s.gFault p cStreamRange
    else
      let m := s.lineCode a
      let h := { headerOf (s.loadLE a 64) with bodyAddr := a + 2048 }
      let n := if logNOk h then h.bodyLimbs else 0
      let s := s.touch a 64
      if m ≠ 0 then (s.gMem p [a] m).modHdr p g.f0 (fun _ => { h with poison := true, poisonCause := m })
      else if logNOk h ∧ s.capacity p r h.logN < n then
        (s.modHdr p g.f0 (fun _ => { h with valid := false })).gFault p cBindingShort
      else
        let lb := limbBytes h.logN h.format
        let ps := s.pset g.pset
        let per := h.limbs + h.specials
        let at_ := fun i => a + 2048 + lb * memLimb h (i / max 1 per) (i % max 1 per)
        let raw := fun i => decodeElems h.format (s.load (at_ i) lb)
        if ¬ s.inStacks p (a + 2048) (lb * n) then
          ((s.dropLimbs p r h.logN).modHdr p g.f0 (fun _ => h)).gFault p cStreamRange
        else if g.canon ∧ (upTo n).any (fun i =>
            let e := ps.limbEntry h.limbs (i % max 1 per)
            decide (ps.primes.length ≤ e) || canonBad (ps.q e) (raw i)) then
          ((s.dropLimbs p r h.logN).modHdr p g.f0 (fun _ => h)).gFault p cNoncanonicalInput
        else
          let c := ((upTo n).map (fun i => s.rangeCode (at_ i) lb)).find? (· != 0) |>.getD 0
          let h := if c ≠ 0 then { h with poison := true, poisonCause := c } else h
          let body := (upTo n).map (fun i => (raw i).map (fun v => v % 2 ^ 36))
          let s := (s.gMem p (linesOf (a + 2048) (lb * n)) c).touch (a + 2048) (lb * n)
          let s := s.each (upTo body.length) (fun i x => x.lgWrite p (r.limbAt i).toNat (pack36 (body.getD i [])) 0)
          s.modHdr p g.f0 (fun _ => h))

/-- LDCT. -/
def execLdct (p : Nat) (g : GInstr) (s : State) : Out := guarded (gOk p g) (s.gCmd p 0x0100 g (runLdct p g))

/-- Translation rejects an STCT (R126, R133). -/
def State.stctBad (s : State) (p : Nat) (g : GInstr) : Bool :=
  unusedBad { f0 := true, param := true, imm64 := true } g || constAddrBad g || (s.bound p g.f0).isNone

/-- STCT (R55, R167): body in the entry's FORMAT and ORDER, then the header. An entry whose LOG_N names no limb size has no body to
store, and one that needs more limbs than its binding holds ends with BINDING_SHORT: the model's choices (assumption log 38). -/
def runStct (p : Nat) (g : GInstr) (s : State) : State :=
  s.gRun p (s.stctBad p g) (fun s =>
    let a := s.gAddr p g
    let r := (s.bound p g.f0).getD {}
    let h := s.hdr p g.f0
    let n := if logNOk h then h.bodyLimbs else 0
    let lb := limbBytes h.logN h.format
    let per := h.limbs + h.specials
    if a % 2048 ≠ 0 then s.gFault p cParamRange
    else if s.capacity p r h.logN < n then s.gFault p cBindingShort
    else if ¬ s.inStacks p a (2048 + lb * n) then s.gFault p cStreamRange
    else if (upTo n).any (fun i => !s.lgValid p (r.limbAt i).toNat (limbBytes h.logN false)) then s.gFault p cRowInvalid
    else
      let w := (upTo n).foldl (fun (acc : State × Nat) i =>
        let d := encodeElems h.format (s.lgLimb p (r.limbAt i).toNat h.logN)
        let z := acc.1.storeP p (a + 2048 + lb * memLimb h (i / max 1 per) (i % max 1 per)) d
        (z.1, if acc.2 ≠ 0 then acc.2 else z.2)) (s, 0)
      if w.2 ≠ 0 then (w.1.gMem p (linesOf (a + 2048) (lb * n)) w.2).gFault p w.2
      else
        let z := w.1.storeP p a (toBytes 64 (storedHeader h (a + 2048)))
        if z.2 ≠ 0 then (z.1.gMem p [a] z.2).gFault p z.2
        else z.1.modHdr p g.f0 (fun x => { x with bodyAddr := a + 2048 }))

/-- STCT. -/
def execStct (p : Nat) (g : GInstr) (s : State) : Out := guarded (gOk p g) (s.gCmd p 0x0101 g (runStct p g))

/-- Prime of limb c of a checked LDL. -/
def ldlPrime (ps : PrimeSet) (g : GInstr) (c : Nat) : Nat := ps.q (limbOpEntry g c)

/-- Translation rejects an LDL (R133, R431). -/
def State.ldlBad (s : State) (p : Nat) (g : GInstr) : Bool :=
  let u : Uses := { canon := true, f0 := g.canon, f1 := true, f2 := g.canon, pset := g.canon, param := true, imm8 := true
                    imm64 := true, rx := true }
  unusedBad u g
    || (g.canon && (s.pset? g.pset).isNone) || constAddrBad g || decide (1 < g.imm8) || decide (g.f1 < 12)
    || decide (17 < g.f1) || decide (1 < g.f2) || s.limbRegionBad p g.rx g.f1 || s.zeroStrideDst p g.rx

/-- LDL (R128, R431): raw limbs in order; the first fault leaves its limb and the later ones invalid, the model's choice for
the later ones beside R166 (assumption log 38). Raw limbs in the format of IMM8 (0 packed-36, 1 wide-64). -/
def runLdl (p : Nat) (g : GInstr) (s : State) : State :=
  s.gRun p (s.ldlBad p g) (fun s =>
    let a := s.gAddr p g
    let r := s.region p g.rx
    let wide := g.imm8 == 1
    let lb := limbBytes g.f1 wide
    let ps := s.pset g.pset
    if a % 2048 ≠ 0 then s.gFault p cParamRange
    else
      -- limbs load in order; the first fault leaves its limb and the later ones invalid
      let w := (upTo r.count).foldl (fun (acc : State × Nat) c =>
        let s := acc.1
        let la := a + lb * c
        let raw := decodeElems wide (s.load la lb)
        let code := if acc.2 ≠ 0 then acc.2
          else if ¬ s.inStacks p la lb then cStreamRange
          else if s.noiseMissing p la lb then cNoiseUnavailable
          else if g.canon ∧ (ldlPrime ps g c = 0 ∨ canonBad (ldlPrime ps g c) raw) then cNoncanonicalInput
          else s.rangeCode la lb
        let read := decide (acc.2 = 0) && s.inStacks p la lb && !s.noiseMissing p la lb
        if code ≠ 0 then ((if read then s.touch la lb else s).lgInvalid p (r.limbAt c).toNat (limbBytes g.f1 false), code)
        else ((s.touch la lb).lgWrite p (r.limbAt c).toNat (pack36 (raw.map (fun v => v % 2 ^ 36))) 0, 0)) (s, 0)
      if w.2 ≠ 0 then (w.1.gMem p (linesOf a (lb * r.count)) w.2).gFault p w.2 else w.1)

/-- LDL. -/
def execLdl (p : Nat) (g : GInstr) (s : State) : Out := guarded (gOk p g) (s.gCmd p 0x0103 g (runLdl p g))

/-- Translation rejects an STL (R133). -/
def State.stlBad (s : State) (p : Nat) (g : GInstr) : Bool :=
  unusedBad { f1 := true, param := true, imm8 := true, imm64 := true, ry := true } g
    || constAddrBad g || decide (1 < g.imm8) || decide (g.f1 < 12) || decide (17 < g.f1)
    || s.limbRegionBad p g.ry g.f1

/-- STL (R40, R128): raw limbs to memory. -/
def runStl (p : Nat) (g : GInstr) (s : State) : State :=
  s.gRun p (s.stlBad p g) (fun s =>
    let a := s.gAddr p g
    let r := s.region p g.ry
    let wide := g.imm8 == 1
    let lb := limbBytes g.f1 wide
    if a % 2048 ≠ 0 then s.gFault p cParamRange
    else
      let w := (upTo r.count).foldl (fun (acc : State × Nat) c =>
        let s := acc.1
        let la := a + lb * c
        if acc.2 ≠ 0 then acc
        else if ¬ s.inStacks p la lb then (s, cStreamRange)
        else if ¬ s.lgValid p (r.limbAt c).toNat (limbBytes g.f1 false) then (s, cRowInvalid)
        else s.storeP p la (encodeElems wide (s.lgLimb p (r.limbAt c).toNat g.f1))) (s, 0)
      if w.2 ≠ 0 then (w.1.gMem p (linesOf a (lb * r.count)) w.2).gFault p w.2 else w.1)

/-- STL. -/
def execStl (p : Nat) (g : GInstr) (s : State) : Out := guarded (gOk p g) (s.gCmd p 0x0104 g (runStl p g))

/-- Position of tile index c of a tensor: none for a null list entry; the code of a bad one (R172). -/
def State.tensorPos (s : State) (p : Nat) (tn : Tensor) (c : Nat) : Nat × Option TilePos :=
  if tn.mode = 1 then
    let a := tn.listAddr + 8 * c
    let v := s.loadLE a 8
    let m := if s.inStacks p a 8 then s.rangeCode a 8 else cStreamRange
    if tn.listCount ≤ c then (cCoordRange, none)
    else if m ≠ 0 then (m, none)
    else if v % 2 ^ 16 = 0xFFFF then (0, none)
    else if tn.tcMax ≤ bits v 15 0 ∨ tn.trMax ≤ bits v 31 16 ∨ tn.d2 ≤ bits v 47 32 ∨ tn.d3 ≤ bits v 63 48 then (cCoordRange, none)
    else (0, some { tc := bits v 15 0, tr := bits v 31 16, i2 := bits v 47 32, i3 := bits v 63 48 })
  else (0, some (tn.posOf c))

/-- A tile's pieces lie in the partition's stacks and read well: 0 or a code. -/
def State.tileCode (s : State) (p : Nat) (l : List Piece) (read : Bool) : Nat :=
  if l.any (fun e => decide (e.mem < 0) || !s.inStacks p (e.mem.toNat / 8) (max 1 (e.mw / 8))) then cStreamRange
  else if read then (((pieceLines l).map s.lineCode).find? (· != 0)).getD 0 else 0

/-- The checks on a tensor object before any block (R161, R165, R169): 0 or a code. -/
def State.tensorCode (s : State) (p a : Nat) (r : Region) (store : Bool) : Nat :=
  let tn := tensorOf (s.loadLE a 64)
  if a % 2048 ≠ 0 then cParamRange
  else if ¬ s.inStacks p a 2048 then cStreamRange
  else if s.lineCode a ≠ 0 then s.lineCode a
  else if tn.zeroBad then cDescriptorZero
  else if tn.invalid store then cTensorInvalid
  else if ¬ store ∧ 1 < r.count ∧ r.stride = 0 ∧ tn.reduce = 0 then cStrideZeroWrite
  else 0

/-- Translation rejects an LDT (R133). -/
def State.ldtBad (s : State) (p : Nat) (g : GInstr) : Bool :=
  unusedBad { param := true, imm64 := true, rx := true } g || constAddrBad g || s.byteRegionBad p g.rx 128

/-- A fault of the tensor at a (R14, R161, R169, R400): a zero that a header may not have refuses the operation. -/
def State.tensorFault (s : State) (p a c : Nat) : State :=
  if c = cDescriptorZero then s.gRefuse p c else (s.gMem p [a] c).gFault p c

/-- The lines of a tensor's first n tiles and of their list entries. -/
def State.tensorLines (s : State) (p : Nat) (tn : Tensor) (base : Int) (n : Nat) : List Nat :=
  (upTo n).flatMap (fun k =>
    (if tn.mode = 1 ∧ k < tn.listCount then [lineOf (tn.listAddr + 8 * k)] else [])
      ++ pieceLines (tn.pieces base (s.tensorPos p tn k).2))

/-- The coordinate-list entry of tile index c has been read (R172, R210). -/
def State.tensorRead (s : State) (p : Nat) (tn : Tensor) (c : Nat) : State :=
  if tn.mode = 1 ∧ c < tn.listCount then s.readLine p (tn.listAddr + 8 * c) true else s

/-- LDT (R169 to R173): tile c of the tensor becomes block c of RX; with STRIDE 0 the tiles are combined (R163). -/
def runLdt (p : Nat) (g : GInstr) (s : State) : State :=
  s.gRun p (s.ldtBad p g) (fun s =>
    let a := s.gAddr p g
    let r := s.region p g.rx
    let tn := tensorOf (s.loadLE a 64)
    let base : Int := a + 2048
    let c := s.tensorCode p a r false
    let s := if a % 2048 = 0 then s.readLine p a true else s
    if c ≠ 0 then s.tensorFault p a c
    else
      let w := (upTo r.count).foldl (fun (acc : State × Nat) k =>
        let s := acc.1
        let q := s.tensorPos p tn k
        let fits := s.lgFits p (r.blockAt k) tn.blockBytes
        let code := if acc.2 ≠ 0 then acc.2 else if q.1 ≠ 0 then q.1 else if ¬ fits then cStreamRange
          else s.tileCode p (tn.pieces base q.2) true
        let s := if acc.2 = 0 then s.tensorRead p tn k else s
        if code ≠ 0 then (if fits then s.lgInvalid p (r.blockAt k).toNat tn.blockBytes else s, code)
        else
          let new := tn.loadBlock s.mem base q.2
          let old := s.lgRead p (r.blockAt k).toNat tn.blockBytes
          let d := if r.stride = 0 ∧ 0 < k then combineBlocks tn.reduce old new else new
          let s := s.delivered (pieceLines (tn.pieces base q.2)) true
          (s.lgWrite p (r.blockAt k).toNat d 0, 0)) (s, 0)
      if w.2 ≠ 0 then (w.1.gMem p (w.1.tensorLines p tn base r.count) w.2).gFault p w.2 else w.1)

/-- LDT. -/
def execLdt (p : Nat) (g : GInstr) (s : State) : Out := guarded (gOk p g) (s.gCmd p 0x0105 g (runLdt p g))

/-- Translation rejects an STT (R133). -/
def State.sttBad (s : State) (p : Nat) (g : GInstr) : Bool :=
  unusedBad { param := true, imm64 := true, ry := true } g || constAddrBad g || s.byteRegionBad p g.ry 128

/-- Write the masked lines of a store for a partition; the first failure's code, or 0. -/
def State.storeFieldsP (s : State) (p : Nat) (l : SMap (Nat × Nat)) : State × Nat :=
  l.foldl (fun (acc : State × Nat) e =>
    let y := acc.1.storeBitsP p e.1 e.2.1 e.2.2
    (y.1, if acc.2 ≠ 0 then acc.2 else y.2)) (s, 0)

/-- STT (R163, R171): block c of RY becomes tile c of the tensor; with a reduction, elements written twice combine. -/
def runStt (p : Nat) (g : GInstr) (s : State) : State :=
  s.gRun p (s.sttBad p g) (fun s =>
    let a := s.gAddr p g
    let r := s.region p g.ry
    let tn := tensorOf (s.loadLE a 64)
    let base : Int := a + 2048
    let c := s.tensorCode p a r true
    let s := if a % 2048 = 0 then s.readLine p a true else s
    if c ≠ 0 then s.tensorFault p a c
    else
      let w := (upTo r.count).foldl (fun (acc : State × SMap Nat × Nat) k =>
        let s := acc.1
        let q := s.tensorPos p tn k
        let l := tn.pieces base q.2
        let code := if acc.2.2 ≠ 0 then acc.2.2 else if q.1 ≠ 0 then q.1
          else if q.2.isNone then 0
          else if ¬ s.lgFits p (r.blockAt k) tn.blockBytes then cStreamRange
          else if ¬ s.lgValid p (r.blockAt k).toNat tn.blockBytes then cRowInvalid
          else s.tileCode p l false
        let s := if acc.2.2 = 0 then s.tensorRead p tn k else s
        if code ≠ 0 then (s, acc.2.1, code)
        else
          let b := ofBytes (s.lgRead p (r.blockAt k).toNat tn.blockBytes)
          let f := storeFields tn.reduce acc.2.1 l (l.map (fun e => (b >>> e.spad) % 2 ^ e.sw))
          let y := s.storeFieldsP p f.2
          (y.1, f.1, y.2)) (s, [], 0)
      if w.2.2 ≠ 0 then (w.1.gMem p (w.1.tensorLines p tn base r.count) w.2.2).gFault p w.2.2 else w.1)

/-- STT. -/
def execStt (p : Nat) (g : GInstr) (s : State) : Out := guarded (gOk p g) (s.gCmd p 0x0106 g (runStt p g))

end Sys2Proof.Machine
end

