-- ==== Sys2Proof/Machine/Collectives.lean ====
section
/-! DEFINITION. Collectives: ALLRED, BCAST, GATHER, their packets, acknowledgements and ends (R299, R308 to R313; assumption
log 24). -/

namespace Sys2Proof.Machine

/-! ### Peers (R299, R312) -/

/-- Key of a peer and virtual channel. -/
def peerKey (addr vc : Nat) : Nat := 4 * addr + vc
/-- What is kept for a peer. -/
def State.peer (s : State) (k : Nat) : Peer := smGet {} s.fab.peers k
/-- Change what is kept for a peer. -/
def State.modPeer (s : State) (k : Nat) (f : Peer → Peer) : State :=
  { s with fab := { s.fab with peers := smSet {} s.fab.peers k (f (s.peer k)) } }

/-- Send waiting packets while fewer than 128 are unacknowledged: each counts in COLL_SENT and COLL_IN_FLIGHT. -/
def State.pump (k : Nat) : Nat → State → State
  | 0, s => s
  | n + 1, s =>
    let z := s.peer k
    match z.txq with
    | [] => s
    | x :: rest =>
      if 128 ≤ z.unacked.length then s
      else
        let p := s.fab.cfg.jobPart
        let x := { x with pseq := z.txSeq }
        let s := s.modPeer k (fun y => { y with
          txq := rest, txSeq := (y.txSeq + 1) % 2 ^ 24, unacked := y.unacked ++ [(x.pseq, p, x.coll)] })
        let s := s.modLedger p (fun l => { l with collSent := l.collSent + 1, collInFlight := l.collInFlight + 1 })
        State.pump k n (s.submit x)

/-- Queue packets for a peer and send what may go. -/
def State.sendTo (s : State) (dest vc : Nat) (l : List Packet) : State :=
  let k := peerKey dest vc
  State.pump k 128 (s.modPeer k (fun y => { y with txq := y.txq ++ l }))


/-- Cut bytes into packets of six groups from a group offset (R292). -/
def cutPackets (mk : Nat → List Byte → Packet) : Nat → Nat → List Byte → List Packet
  | 0, _, _ => []
  | n + 1, off, b => if b.isEmpty then [] else mk off (b.take 216) :: cutPackets mk n (off + 6) (b.drop 216)

/-- The OFFSET of a header packet (Table 11-3). -/
abbrev headerOffset : Nat := 0xFFFFFFFF

/-- Groups a packet carries. -/
def pktGroups (x : Packet) : Nat := 16 * x.units / 36

/-- A header packet and the data packets of a body for one destination. -/
def State.collPackets (s : State) (c dest type rankBase : Nat) (hdr data : List Byte) : List Packet :=
  let f := s.fab.cfg
  let mk := fun (off : Nat) (b : List Byte) =>
    let b := padUnits b
    ({ type := type, vc := type - 1, units := b.length / 16, dest := dest, src := f.moduleAddr, coll := c, inst := (s.coll c).inst
       offset := off, part := f.jobPart, body := b } : Packet)
  mk headerOffset hdr
    :: cutPackets mk (data.length + 1) rankBase data

/-! ### Bodies and headers -/

/-- Packed-36 groups of a body. -/
def Header.groups (h : Header) : Nat := h.bodyLimbs * (2 ^ h.logN / 8)

/-- The prime set of a header, with its index. -/
def State.setOf (s : State) (h : Header) : Option (Nat × PrimeSet) :=
  match s.img.image with
  | none => none
  | some x => (x.psets.findIdx? (fun z => z.id == h.psetId)).map (fun i => (i, x.psets.getD i {}))

/-- Component and limb of the m-th limb of a body in memory (Table 3-3, ORDER). -/
def Header.limbOf (h : Header) (m : Nat) : Nat × Nat :=
  if h.order then (m % max 1 h.comps, m / max 1 h.comps) else (m / max 1 (h.limbs + h.specials), m % max 1 (h.limbs + h.specials))

/-- Prime of group g of a body as it lies in memory (R309). -/
def groupPrime (ps : PrimeSet) (h : Header) (g : Nat) : Nat := bodyPrime ps h (h.limbOf (g / (2 ^ h.logN / 8))).2

/-- A body in its binding, as packed-36 bytes in memory order. -/
def State.bodyBytes (s : State) (p e : Nat) (h : Header) : List Byte :=
  let r := (s.bound p e).getD {}
  ((upTo h.bodyLimbs).map (fun m =>
    let z := h.limbOf m
    pack36 (s.lgLimb p (r.limbAt (z.1 * (h.limbs + h.specials) + z.2)).toNat h.logN))).flatten

/-- The key-set and header comparison of R310: 0 or a code. -/
def hdrDiffers (a b : Header) : Nat :=
  let z := fun (h : Header) => { h with
    valid := true, noise := 0, poison := false, poisonCause := 0, flooded := false, bodyAddr := 0, keyTag := 0 }
  if a.keyTag ≠ b.keyTag then cKeysetMismatch else if z a ≠ z b then cCollMismatch else 0

/-- Write bytes the partition that holds the stack counts (R212). -/
def State.storeD (s : State) (a : Nat) (d : List Byte) : State := (s.storeH a d).1

/-- Add one group into the landing area (R309): a poisoned line keeps its bytes and poisons the result. A group past the area
lands nowhere (assumption log 24). -/
def State.landGroup (s : State) (c q g v : Nat) : State :=
  match s.collCfg c with
  | none => s
  | some x =>
    let a := x.bufAddr + 36 * g
    if x.half < 36 * (g + 1) then s
    else if s.rangeCode a 36 ≠ 0 then 
      (s.memFault (s.coll c).part 7 (linesOf a 36) (s.rangeCode a 36)).modColl c (fun k => { k with landPoison := true })
    else
      (s.touch a 36).storeD a (toBytes 36 (packGroup (List.zipWith (fun a b => addM q (fold a q) (fold b q))
        (unpackGroup (s.loadLE a 36)) (unpackGroup v))))

/-- Add consecutive groups. -/
def State.landGroups (s : State) (c : Nat) (ps : PrimeSet) (h : Header) (g0 : Nat) (b : List Byte) : State :=
  s.each (upTo (b.length / 36)) (fun i x => x.landGroup c (groupPrime ps h (g0 + i)) (g0 + i) (leAt b (36 * i) 36))

/-- Address of the result area. -/
def CollCfg.result (x : CollCfg) : Nat := x.bufAddr + x.half
/-- Bytes of the result area a gather gives each rank (assumption log 24). -/
def CollCfg.rankBytes (x : CollCfg) : Nat := x.half / x.members / 2048 * 2048

/-- Merge a rank's poison into an instance: the lowest poisoned rank gives the cause. -/
def Coll.mergePoison (k : Coll) (rank cause : Nat) : Coll :=
  if rank < k.poisonRank then { k with poisonRank := rank, poisonCause := cause } else k

/-- Merge a bound, poison and FLOODED of a subtree. -/
def Coll.merge (k : Coll) (noise rank cause : Nat) (flooded : Bool) : Coll :=
  ({ k with maxNoise := max k.maxNoise noise, flooded := k.flooded || flooded }).mergePoison rank cause

/-! ### Ends -/

/-- Load a finished output into its entry's binding: 0, BINDING_SHORT, or POISON_INPUT under the stop policy (R311, R403). -/
def State.loadOutput (s : State) (p e a : Nat) (h : Header) : State × Nat :=
  let r := (s.bound p e).getD {}
  let n := h.groups * 36
  let m := s.rangeCode a n
  let h := if m ≠ 0 ∧ ¬ h.poison then { h with poison := true, poisonCause := m, noise := 0xFFFF } else h
  let s := (s.memFault p 7 (linesOf a n) m).touch a n
  if s.capacity p r h.logN < h.bodyLimbs then (s, cBindingShort)
  else if h.poison ∧ s.gStop p = true then (s, cPoisonInput)
  else
    let lb := limbBytes h.logN false
    let per := h.limbs + h.specials
    let s := s.putLimbs p r ((upTo h.bodyLimbs).map (fun i =>
      unpack36 (s.load (a + lb * memLimb h (i / max 1 per) (i % max 1 per)) lb)))
    (s.modHdr p e (fun z => { h with valid := true, bodyAddr := z.bodyAddr }), 0)

/-- End an instance whose output is loaded, or that could not load it. -/
def State.endLoaded (s : State) (c code : Nat) : State :=
  if code = cBindingShort then s.abortColl c code else s.endColl c code

/-- A region operand for part r of `parts` equal parts of a region (R311). -/
def regionPart (z : Region) (parts r : Nat) : Nat :=
  let n := z.count / parts
  pack [(0, (((z.base : Int) + (r * n : Nat) * z.stride * 2048) % 2 ^ 32).toNat), (32, fromSigned 16 z.stride), (48, n)]

/-- The header of a gather's rank: its sender's, once a data packet has shown the sender's rank (assumption log 24). -/
def Coll.rankHdr (k : Coll) (r : Nat) : Header :=
  let a := smGet 0 k.ranks r
  if a = 0 then {} else smGet {} k.childHdr (a - 1)

/-- Load every rank of a gather (R311). -/
def State.loadGather (s : State) (c p f0 rx : Nat) (x : CollCfg) : State :=
  let r := (upTo x.members).foldl (fun (acc : State × Nat) i =>
    if acc.2 ≠ 0 then acc
    else
      let h := (acc.1.coll c).rankHdr i
      let t := acc.1.modPart p (fun y => { y with binds := smSet 0 y.binds (f0 + i) (regionPart (acc.1.region p rx) x.members i + 1) })
      t.loadOutput p (f0 + i) (x.result + x.rankBytes * i) h) (s, 0)
  r.1.endLoaded c r.2

/-- An instance's result is complete. -/
def State.resultReady (s : State) (c : Nat) (x : CollCfg) : Bool :=
  let k := s.coll c
  if x.kind = 3 then
    if x.parent = 0xFFFF then
      (upTo x.members).all (fun i => (k.rankHdr i).valid && smGet 0 k.landed i == (k.rankHdr i).groups)
    else k.ownDone && (s.fab.unackedOf c).isEmpty && s.fab.peers.all (fun e => e.2.txq.all (fun y => y.coll != c))
  else
    match k.resHdr with
    | some h => k.resLanded == h.groups
    | none => false

/-- Load a complete result and end the instance (R309 step 6). -/
def State.finishColl (s : State) (c : Nat) : State :=
  match s.collCfg c with
  | none => s
  | some x =>
    let k := s.coll c
    if ¬ k.isOpen ∨ ¬ s.resultReady c x then s
    else if x.kind = 3 then
      if x.parent = 0xFFFF then s.loadGather c k.part k.entry k.rx x else s.endColl c 0
    else
      let r := s.loadOutput k.part k.entry x.result (k.resHdr.getD {})
      r.1.endLoaded c r.2

/-- COLL_RESULT_COMPLETE (R309 step 6, R311). -/
def execCollResultComplete (c : Nat) (s : State) : Out := guarded (decide (c < 64)) (s.finishColl c)

/-- COLL_TIMEOUT (R314). -/
def execCollTimeout (c : Nat) (s : State) : Out :=
  guarded (decide (c < 64)) <|
    if (s.coll c).isOpen ∧ s.fab.collLimit ≠ 0 ∧ s.fab.collLimit * Config.ticksPerUs ≤ s.now - (s.coll c).since then
      s.abortColl c cCollTimeout
    else s

/-! ### All-reduce -/

/-- Send a result to every child (R309 step 5). -/
def State.sendDown (s : State) (c : Nat) (x : CollCfg) (h : Header) (data : List Byte) : State :=
  x.children.foldl (fun (y : State) d => y.sendTo d 1 (y.collPackets c d 2 0 (toBytes 64 (headerBits h)) data)) s

/-- The root's output header (R310). -/
def Coll.output (k : Coll) (members : Nat) : Header :=
  let poison := k.poisonRank != 0xFFFF
  { k.hdr with
    noise := if poison ∨ k.maxNoise = 0xFFFF then 0xFFFF else plusB k.maxNoise (logT members)
    poison := poison, poisonCause := if poison then k.poisonCause else 0, flooded := k.flooded }

/-- The budget check of the output header (R69, R310). -/
def State.outputBad (s : State) (h : Header) : Bool :=
  match s.setOf h with
  | none => true
  | some (i, ps) =>
    match s.noise? i h.scheme with
    | none => true
    | some t => !h.poison && decide (2 ≤ h.comps) && budgetCode { hdr := h, scale := h.scale } ps t != 0

/-- Every child has announced and landed its groups. -/
def Coll.childrenDone (k : Coll) (x : CollCfg) : Bool :=
  x.children.all (fun d => smGet 0 k.announced d != 0 && smGet 0 k.landed d + 1 == smGet 0 k.announced d)

/-- The sum is complete here: it goes to the parent, or the root forms and sends the result (R309 steps 4 and 5, R310). -/
def State.sumDone (s : State) (c : Nat) : State :=
  match s.collCfg c with
  | none => s
  | some x =>
    let k := s.coll c
    if ¬ k.isOpen ∨ x.kind ≠ 1 ∨ ¬ k.ownDone ∨ k.sentUp ∨ ¬ k.childrenDone x then s
    else
      let n := 36 * k.hdr.groups
      let bad := k.landPoison || s.rangeCode x.bufAddr n != 0
      let k := if bad then k.mergePoison x.rank cPoisonRead else k
      let s := s.modColl c (fun _ => { k with sentUp := true })
      let data := s.load x.bufAddr n
      let s := s.touch x.bufAddr n
      if x.parent = 0xFFFF then
        let h := k.output x.members
        if s.outputBad h then s.abortColl c cNoiseBudget
        else
          let s := (s.storeD x.result data).modColl c (fun y => { y with resHdr := some h, resLanded := h.groups })
          s.sendDown c x h data
      else
        let sum := toBytes 2 k.maxNoise ++ toBytes 2 k.poisonRank ++ toBytes 2 k.poisonCause ++ toBytes 1 (b2n k.flooded)
          ++ toBytes 5 0 ++ toBytes 4 k.hdr.groups
        s.sendTo x.parent 0 (s.collPackets c x.parent 1 0 (toBytes 64 (headerBits k.hdr) ++ sum) data)

/-- COLL_SEND_UP (R309, R310). -/
def execCollSendUp (c : Nat) (s : State) : Out := guarded (decide (c < 64)) (s.sumDone c)

/-- The checks of a collective's operand in Table 3-8's orders 1 to 4: 0 or a code. Its prime set is the one the header names
(assumption log 12); any DOMAIN suits it (R72). -/
def State.collHeaderCode (s : State) (h : Header) : Nat :=
  let z := s.setOf h
  let c := headerCode oCadd (z.map (fun e => e.2)) h
  if c ≠ 0 then c
  else
    match z with
    | none => cPrimesetMismatch
    | some e => if (s.noise? e.1 h.scheme).isNone then cPrimesetMismatch else if h.specials ≠ 0 then cShapeMismatch else 0

/-- The checks of an all-reduce's operand (R309): BOOT = 0 besides. -/
def State.reduceCode (s : State) (h : Header) : Nat :=
  let c := s.collHeaderCode h
  if c = 0 ∧ h.boot then cShapeMismatch else c

/-- Issue an instance (R308): open, then its first code: JOB_NOT_READY, the cause of an ABORT that came first, or 0. -/
def State.openColl (s : State) (p : Nat) (g : GInstr) : State × Nat :=
  let k := s.coll g.f1
  let t := s.stir.modColl g.f1 (fun k => { k with
    isOpen := true, part := p, entry := g.f0, rx := g.rx, since := s.now, hdr := s.hdr p g.f0 })
  (t, if s.fab.jobState ≠ 2 ∨ s.fab.cfg.jobPart ≠ p then cJobNotReady else smGet 0 k.dead k.inst)

/-- A collective whose earlier instance is still open waits for its end, since the landing area is zero before every instance
(R308, R309; assumption log 24). -/
def State.issueColl (s : State) (p o : Nat) (g : GInstr) (run : State → State) : State :=
  if (s.coll g.f1).isOpen then s.modPart p (fun x => { x with held := (o, g) :: x.held, heldSince := s.now }) else run s

/-- The collective a command names has the kind it needs. -/
def State.collBad (s : State) (g : GInstr) (kind : Nat) : Bool :=
  match s.collCfg g.f1 with
  | some x => x.kind != kind
  | none => true

/-- The operand's body as stored to the buffer: ROW_INVALID where a row is, BINDING_SHORT where it does not fit. -/
def State.operandCode (s : State) (p e room : Nat) (h : Header) : Nat :=
  let r := (s.bound p e).getD {}
  if room < 36 * h.groups ∨ s.capacity p r h.logN < h.bodyLimbs then cBindingShort
  else if ¬ h.poison ∧ (upTo h.bodyLimbs).any (fun i => !s.lgValid p (r.limbAt i).toNat (limbBytes h.logN false)) then cRowInvalid
  else 0

/-- Translation rejects an ALLRED (R133). -/
def State.allredBad (s : State) (_p : Nat) (g : GInstr) : Bool :=
  unusedBad { f0 := true, f1 := true } g || s.collBad g 1

/-- ALLRED (R308, R309): the member's own body lands; a lone member completes at once. -/
def runAllred (p : Nat) (g : GInstr) (s : State) : State :=
  s.gRun p (s.allredBad p g) (fun s => s.issueColl p 0x0502 g (fun s =>
    let c := g.f1
    let x := (s.collCfg c).getD {}
    let o := s.openColl p g
    let s := o.1
    let h := s.hdr p g.f0
    let ps := ((s.setOf h).map (fun z => z.2)).getD {}
    if o.2 ≠ 0 then s.endColl c o.2
    else
      let e := s.reduceCode h
      let e := if e ≠ 0 then e else s.operandCode p g.f0 x.half h
      let early := x.children.map (fun d =>
        let z := smGet {} (s.coll c).childHdr d
        if z.valid then hdrDiffers h z else 0)
      let e := if e ≠ 0 then e else (early.find? (· != 0)).getD 0
      if e ≠ 0 then s.abortColl c e
      else
        let s := s.landGroups c ps h 0 (s.bodyBytes p g.f0 h)
        let s := s.modColl c (fun k => ({ k with ownDone := true }).merge h.noise
          (if h.poison then x.rank else 0xFFFF) h.poisonCause h.flooded)
        if x.members = 1 then (s.sumDone c).finishColl c else s))

/-- ALLRED. -/
def execAllred (p : Nat) (g : GInstr) (s : State) : Out := guarded (gOk p g) (s.gCmd p 0x0502 g (runAllred p g))

/-- Translation rejects a BCAST (R133). -/
def State.bcastBad (s : State) (_p : Nat) (g : GInstr) : Bool :=
  unusedBad { f0 := true, f1 := true } g || s.collBad g 2

/-- BCAST (R311): the root sends its header and body down; the other members wait for them. -/
def runBcast (p : Nat) (g : GInstr) (s : State) : State :=
  s.gRun p (s.bcastBad p g) (fun s => s.issueColl p 0x0503 g (fun s =>
    let c := g.f1
    let x := (s.collCfg c).getD {}
    let o := s.openColl p g
    let s := o.1
    let h := s.hdr p g.f0
    if o.2 ≠ 0 then s.endColl c o.2
    else if x.parent ≠ 0xFFFF then s
    else
      let k := s.collHeaderCode h
      let e := if k ≠ 0 then k else s.operandCode p g.f0 x.half h
      if e ≠ 0 then s.abortColl c e
      else
        let data := s.bodyBytes p g.f0 h
        let s := (s.storeD x.result data).modColl c (fun k => { k with
          ownDone := true, resHdr := some h, resLanded := h.groups })
        if x.members = 1 then s.finishColl c else s.sendDown c x h data))

/-- BCAST. -/
def execBcast (p : Nat) (g : GInstr) (s : State) : Out := guarded (gOk p g) (s.gCmd p 0x0503 g (runBcast p g))

/-- Translation rejects a GATHER (R133, R311). -/
def State.gatherBad (s : State) (p : Nat) (g : GInstr) : Bool :=
  unusedBad { f0 := true, f1 := true, rx := true } g || s.collBad g 3 || s.bindRegionBad p g.rx
    || decide (256 < ((s.collCfg g.f1).getD {}).members + g.f0)

/-- GATHER (R311): a member sends its header and body to the root; the root places its own. -/
def runGather (p : Nat) (g : GInstr) (s : State) : State :=
  s.gRun p (s.gatherBad p g) (fun s => s.issueColl p 0x0504 g (fun s =>
    let c := g.f1
    let x := (s.collCfg c).getD {}
    let o := s.openColl p g
    let s := o.1
    let h := s.hdr p g.f0
    if o.2 ≠ 0 then s.endColl c o.2
    else
      let k := s.collHeaderCode h
      let e := if k ≠ 0 then k else s.operandCode p g.f0 x.rankBytes h
      if e ≠ 0 then s.abortColl c e
      else
        let data := s.bodyBytes p g.f0 h
        let s := s.modColl c (fun k => { k with ownDone := true })
        if x.parent = 0xFFFF then
          let s := (s.storeD (x.result + x.rankBytes * x.rank) data).modColl c (fun k => { k with
            childHdr := smSet {} k.childHdr s.fab.cfg.moduleAddr h, ranks := smSet 0 k.ranks x.rank (s.fab.cfg.moduleAddr + 1)
            landed := smSet 0 k.landed x.rank h.groups })
          if x.members = 1 then s.finishColl c else s
        else
          s.sendTo x.parent 1 (s.collPackets c x.parent 2 (x.rank * 2 ^ 26) (toBytes 64 (headerBits h)) data)))

/-- GATHER. -/
def execGather (p : Nat) (g : GInstr) (s : State) : Out := guarded (gOk p g) (s.gCmd p 0x0504 g (runGather p g))

/-! ### Arrivals (R299, R308, R313) -/

/-- What becomes of an arriving packet. -/
inductive Arrival where
  /-- not for this module, or not yet receivable -/
  | ignore
  /-- received before -/
  | duplicate
  /-- an older or aborted instance: received and discarded -/
  | stale
  | fresh
  deriving DecidableEq, Repr

/-- Judge an arriving packet. -/
def State.judge (s : State) (x : Packet) (type : Nat) : Arrival :=
  if x.type ≠ type ∨ x.dest ≠ s.fab.cfg.moduleAddr ∨ (s.collCfg x.coll).isNone then .ignore
  else
    let z := s.peer (peerKey x.src x.vc)
    let d := (x.pseq + 2 ^ 24 - z.rxNext) % 2 ^ 24
    if 2 ^ 23 ≤ d ∨ smGet false z.window x.pseq then .duplicate
    else if 256 ≤ d then .ignore
    else
      let k := s.coll x.coll
      let n := (x.inst + 256 - k.inst) % 256
      if 128 ≤ n ∨ smGet 0 k.dead x.inst ≠ 0 then .stale else if n = 0 then .fresh else .ignore

/-- Advance the in-order mark over packets received. -/
def slide : Nat → Nat → SMap Bool → Nat × SMap Bool
  | 0, next, w => (next, w)
  | n + 1, next, w => if smGet false w next then slide n ((next + 1) % 2 ^ 24) (smSet false w next false) else (next, w)

/-- Mark a packet received; it will be acknowledged. -/
def State.received (s : State) (x : Packet) : State :=
  s.modPeer (peerKey x.src x.vc) (fun z =>
    let r := slide 257 z.rxNext (smSet false z.window x.pseq true)
    { z with rxNext := r.1, window := r.2, ackDue := true })

/-- A packet refused while a scrub is pending or recorded (R313). -/
def State.refusePacket (s : State) (x : Packet) : State :=
  s.originate x.coll x.inst cRemoteRefused

/-- Receive a packet: duplicates are counted and acknowledged again, stale ones discarded, fresh ones handled. -/
def State.arrivePacket (s : State) (x : Packet) (type : Nat) (f : State → State) : State :=
  if s.scrubbing then (if x.type = type ∧ x.dest = s.fab.cfg.moduleAddr then s.refusePacket x else s)
  else
    match s.judge x type with
    | .ignore => s
    | .duplicate =>
      ({ s with fab := { s.fab with dup := min (s.fab.dup + 1) (2 ^ 64 - 1) } }).modPeer (peerKey x.src x.vc)
        (fun z => { z with ackDue := true })
    | .stale => s.received x
    | .fresh => f (s.received x)

/-- A child's header and summary (R310). -/
def State.childHeader (s : State) (x : Packet) : State :=
  let h := headerOf (leAt x.body 0 64)
  let s := s.modColl x.coll (fun k => ({ k with
    childHdr := smSet {} k.childHdr x.src h, announced := smSet 0 k.announced x.src (leAt x.body 76 4 + 1) }).merge
      (leAt x.body 64 2) (leAt x.body 66 2) (leAt x.body 68 2) (leAt x.body 70 1 != 0))
  let k := s.coll x.coll
  if k.ownDone then
    let e := hdrDiffers k.hdr h
    if e ≠ 0 then s.abortColl x.coll e else s
  else s

/-- A child's contribution (R309 step 3). -/
def State.childData (s : State) (x : Packet) : State :=
  let k := s.coll x.coll
  let h := if k.ownDone then k.hdr else smGet {} k.childHdr x.src
  match s.setOf h with
  | none => s
  | some (_, ps) =>
    let n := pktGroups x
    (s.landGroups x.coll ps h x.offset (x.body.take (36 * n))).modColl x.coll (fun k => { k with
      landed := smSet 0 k.landed x.src (smGet 0 k.landed x.src + n) })

/-- CONTRIBUTION_ARRIVAL (R299, R309, R310, R313). A contribution that comes before any header it can be placed by waits. -/
def execContributionArrival (pkt : Packet) (s : State) : Out :=
  guarded (packetOk pkt) <|
    let k := s.coll pkt.coll
    let known := k.ownDone || (smGet {} k.childHdr pkt.src).valid
    if pkt.offset ≠ headerOffset ∧ ¬ known ∧ s.judge pkt 1 = .fresh then s
    else s.arrivePacket pkt 1 (fun s => if pkt.offset = headerOffset then s.childHeader pkt else s.childData pkt)

/-- Result data lands and goes on to the children (R309 step 5, R311). -/
def State.landResult (s : State) (x : Packet) (z : CollCfg) : State :=
  let s := if x.offset = headerOffset then s.modColl x.coll (fun k => { k with resHdr := some (headerOf (leAt x.body 0 64)) })
    else
      let n := pktGroups x
      if z.half < 36 * (x.offset + n) then s
      else (s.storeD (z.result + 36 * x.offset) (x.body.take (36 * n))).modColl x.coll (fun k => { k with resLanded := k.resLanded + n })
  z.children.foldl (fun (y : State) d => y.sendTo d 1 [{ x with dest := d, src := y.fab.cfg.moduleAddr, detour := false }]) s

/-- A gather packet reaches the root (R311): a header packet is its sender's; the OFFSET of a data packet shows the rank. -/
def State.landGather (s : State) (x : Packet) (z : CollCfg) : State :=
  if x.offset = headerOffset then
    s.modColl x.coll (fun k => { k with childHdr := smSet {} k.childHdr x.src (headerOf (leAt x.body 0 64)) })
  else
    let r := x.offset / 2 ^ 26
    let n := pktGroups x
    if z.members ≤ r ∨ z.rankBytes < 36 * (x.offset % 2 ^ 26 + n) then s
    else (s.storeD (z.result + z.rankBytes * r + 36 * (x.offset % 2 ^ 26)) (x.body.take (36 * n))).modColl x.coll (fun k => { k with
      ranks := smSet 0 k.ranks r (x.src + 1), landed := smSet 0 k.landed r (smGet 0 k.landed r + n) })

/-- DATA_ARRIVAL (R299, R309, R311, R313). -/
def execDataArrival (pkt : Packet) (s : State) : Out :=
  guarded (packetOk pkt) <|
    s.arrivePacket pkt 2 (fun s =>
      match s.collCfg pkt.coll with
      | none => s
      | some z => if z.kind = 3 then s.landGather pkt z else s.landResult pkt z)

/-! ### Acknowledgements (R312) -/

/-- LANDING_ACKNOWLEDGEMENT: packets up to a PSEQ have landed; waiting ones follow. -/
def execLandingAcknowledgement (peer vc upTo : Nat) (s : State) : Out :=
  guarded (decide (peer < 2 ^ 16) && decide (vc < 2) && decide (upTo < 2 ^ 24)) <|
    let k := peerKey peer vc
    let covered := fun (u : Nat × Nat × Nat) => decide ((upTo + 2 ^ 24 - u.1) % 2 ^ 24 < 2 ^ 23)
    let l := (s.peer k).unacked.filter covered
    let s := l.foldl (fun (x : State) u => x.modLedger u.2.1 (fun z =>
      { z with collInFlight := z.collInFlight - 1, collLanded := z.collLanded + 1 })) s
    State.pump k 128 (s.modPeer k (fun z => { z with unacked := z.unacked.filter (fun u => !covered u) }))

/-- LANDING_ACK_SEND: the highest PSEQ received in order, on virtual channel 2. -/
def execLandingAckSend (peer vc : Nat) (s : State) : Out :=
  guarded (decide (peer < 2 ^ 16) && decide (vc < 2)) <|
    let k := peerKey peer vc
    if ¬ (s.peer k).ackDue then s
    else
      let z := s.peer k
      let f := s.fab.cfg
      (s.modPeer k (fun y => { y with ackDue := false })).submit
        { type := 3, vc := 2, dest := peer, src := f.moduleAddr, pseq := (z.rxNext + 2 ^ 24 - 1) % 2 ^ 24, part := f.jobPart }

end Sys2Proof.Machine
end

