-- ==== Sys2Proof/Machine/GlahusCt.lean ====
section
/-! DEFINITION. Glahus ciphertext operations, opcodes 0x0300 to 0x0314 (Tables 3-7, 5-4; R68 to R81, R428). -/

namespace Sys2Proof.Machine

/-- CADD (R67): component by component; a component one operand lacks is the other's. -/
def runCadd (p : Nat) (g : GInstr) (s : State) : State :=
  s.ctOp p oCadd g 1 (fun s ps h =>
    (bodyBy ps h (fun c j q => zip2 (addM q) (s.opLimb p ps g.f1 c j) (s.opLimb p ps g.f2 c j)), s))

/-- CADD. -/
def execCadd (p : Nat) (g : GInstr) (s : State) : Out := guarded (gOk p g) (s.gCmd p oCadd g (runCadd p g))

/-- CSUB (R67). -/
def runCsub (p : Nat) (g : GInstr) (s : State) : State :=
  s.ctOp p oCsub g 1 (fun s ps h =>
    (bodyBy ps h (fun c j q => zip2 (subM q) (s.opLimb p ps g.f1 c j) (s.opLimb p ps g.f2 c j)), s))

/-- CSUB. -/
def execCsub (p : Nat) (g : GInstr) (s : State) : Out := guarded (gOk p g) (s.gCmd p oCsub g (runCsub p g))

/-- CNEG (R67). -/
def runCneg (p : Nat) (g : GInstr) (s : State) : State :=
  s.ctOp p oCneg g 1 (fun s ps h =>
    (bodyBy ps h (fun c j q => (s.opLimb p ps g.f1 c j).map (negM q)), s))

/-- CNEG. -/
def execCneg (p : Nat) (g : GInstr) (s : State) : Out := guarded (gOk p g) (s.gCmd p oCneg g (runCneg p g))

/-- CADDP (R428): the plaintext body is added to component 0. -/
def runCaddp (p : Nat) (g : GInstr) (s : State) : State :=
  s.ctOp p oCaddp g 1 (fun s ps h =>
    (bodyBy ps h (fun c j q => zip2 (addM q) (s.opLimb p ps g.f1 c j) (s.opLimb p ps g.f2 c j)), s))

/-- CADDP. -/
def execCaddp (p : Nat) (g : GInstr) (s : State) : Out := guarded (gOk p g) (s.gCmd p oCaddp g (runCaddp p g))

/-- CMULP (R428): every component times the plaintext. -/
def runCmulp (p : Nat) (g : GInstr) (s : State) : State :=
  s.ctOp p oCmulp g 1 (fun s ps h =>
    (bodyBy ps h (fun c j q => zip2 (mulM q) (s.opLimb p ps g.f1 c j) (s.opLimb p ps g.f2 0 j)), s))

/-- CMULP. -/
def execCmulp (p : Nat) (g : GInstr) (s : State) : Out := guarded (gOk p g) (s.gCmd p oCmulp g (runCmulp p g))

/-- CMUL (R67, Table 5-4): the three-component product; under BFV the scaled product's bits are the results level's (log 15). -/
def runCmul (p : Nat) (g : GInstr) (s : State) : State :=
  s.ctOp p oCmul g 1 (fun s ps h =>
    if h.scheme = 3 then s.levelBody p oCmul g ps h
    else
      (bodyBy ps h (fun c j q =>
        let a := fun i => s.opLimb p ps g.f1 i j
        let b := fun i => s.opLimb p ps g.f2 i j
        if c = 0 then zip2 (mulM q) (a 0) (b 0)
        else if c = 1 then zip2 (addM q) (zip2 (mulM q) (a 0) (b 1)) (zip2 (mulM q) (a 1) (b 0))
        else zip2 (mulM q) (a 1) (b 1)), s))

/-- CMUL. -/
def execCmul (p : Nat) (g : GInstr) (s : State) : Out := guarded (gOk p g) (s.gCmd p oCmul g (runCmul p g))

/-- CMULI (Table 5-4): every residue times the signed constant IMM64. -/
def runCmuli (p : Nat) (g : GInstr) (s : State) : State :=
  let k := toSigned 64 g.imm64
  s.ctOp p oCmuli g k (fun s ps h =>
    (bodyBy ps h (fun c j q => (s.opLimb p ps g.f1 c j).map (fun v => mulM q v (k % (max 1 q : Nat)).toNat)), s))

/-- CMULI. -/
def execCmuli (p : Nat) (g : GInstr) (s : State) : Out := guarded (gOk p g) (s.gCmd p oCmuli g (runCmuli p g))

/-- RELIN with a KIND 1 key (R61, R68); its bits are the results level's (log 15). -/
def runRelin (p : Nat) (g : GInstr) (s : State) : State :=
  s.ctOp p oRelin g 1 (fun s ps h => s.levelBody p oRelin g ps h)

/-- RELIN. -/
def execRelin (p : Nat) (g : GInstr) (s : State) : Out := guarded (gOk p g) (s.gCmd p oRelin g (runRelin p g))

/-- ROT with a KIND 2 key for its Galois element (R47, R48, R61); its bits are the results level's (log 15). -/
def runRot (p : Nat) (g : GInstr) (s : State) : State :=
  s.ctOp p oRot g 1 (fun s ps h => s.levelBody p oRot g ps h)

/-- ROT. -/
def execRot (p : Nat) (g : GInstr) (s : State) : Out := guarded (gOk p g) (s.gCmd p oRot g (runRot p g))

/-- KSW with a KIND 4 key, whose TARGET_TAG the output takes (R63); its bits are the results level's (log 15). -/
def runKsw (p : Nat) (g : GInstr) (s : State) : State :=
  s.ctOp p oKsw g 1 (fun s ps h => s.levelBody p oKsw g ps h)

/-- KSW. -/
def execKsw (p : Nat) (g : GInstr) (s : State) : Out := guarded (gOk p g) (s.gCmd p oKsw g (runKsw p g))

/-- MODUP to the extended basis (R68); its bits are the results level's (log 15). -/
def runModup (p : Nat) (g : GInstr) (s : State) : State :=
  s.ctOp p oModup g 1 (fun s ps h => s.levelBody p oModup g ps h)

/-- MODUP. -/
def execModup (p : Nat) (g : GInstr) (s : State) : Out := guarded (gOk p g) (s.gCmd p oModup g (runModup p g))

/-- MODDOWN from the extended basis (R68); its bits are the results level's (log 15). -/
def runModdown (p : Nat) (g : GInstr) (s : State) : State :=
  s.ctOp p oModdown g 1 (fun s ps h => s.levelBody p oModdown g ps h)

/-- MODDOWN. -/
def execModdown (p : Nat) (g : GInstr) (s : State) : Out := guarded (gOk p g) (s.gCmd p oModdown g (runModdown p g))

/-- RESCALE of a CKKS ciphertext (R70, R71); its bits are the results level's (log 15). -/
def runRescale (p : Nat) (g : GInstr) (s : State) : State :=
  s.ctOp p oRescale g 1 (fun s ps h => s.levelBody p oRescale g ps h)

/-- RESCALE. -/
def execRescale (p : Nat) (g : GInstr) (s : State) : Out := guarded (gOk p g) (s.gCmd p oRescale g (runRescale p g))

/-- MODSW of a BGV ciphertext (R70, R71); its bits are the results level's (log 15). -/
def runModsw (p : Nat) (g : GInstr) (s : State) : State :=
  s.ctOp p oModsw g 1 (fun s ps h => s.levelBody p oModsw g ps h)

/-- MODSW. -/
def execModsw (p : Nat) (g : GInstr) (s : State) : Out := guarded (gOk p g) (s.gCmd p oModsw g (runModsw p g))

/-- DROP (R71): the limbs of the first w·(ℓ′ + 1) q-primes, copied with folding. -/
def runDrop (p : Nat) (g : GInstr) (s : State) : State :=
  s.ctOp p oDrop g 1 (fun s ps h => (bodyBy ps h (fun c j _ => s.opLimb p ps g.f1 c j), s))

/-- DROP. -/
def execDrop (p : Nat) (g : GInstr) (s : State) : Out := guarded (gOk p g) (s.gCmd p oDrop g (runDrop p g))

/-- TOEVAL (R42): every limb's forward transform. -/
def runToeval (p : Nat) (g : GInstr) (s : State) : State :=
  s.ctOp p oToeval g 1 (fun s ps h =>
    (bodyBy ps h (fun c j q =>
      nttForward q (ps.psiN (ps.limbEntry h.limbs j) h.logN) h.logN (s.opLimb p ps g.f1 c j)), s))

/-- TOEVAL. -/
def execToeval (p : Nat) (g : GInstr) (s : State) : Out := guarded (gOk p g) (s.gCmd p oToeval g (runToeval p g))

/-- TOCOEF (R43): every limb's inverse transform. -/
def runTocoef (p : Nat) (g : GInstr) (s : State) : State :=
  s.ctOp p oTocoef g 1 (fun s ps h =>
    (bodyBy ps h (fun c j q =>
      nttInverse q (ps.psiN (ps.limbEntry h.limbs j) h.logN) h.logN (s.opLimb p ps g.f1 c j)), s))

/-- TOCOEF. -/
def execTocoef (p : Nat) (g : GInstr) (s : State) : Out := guarded (gOk p g) (s.gCmd p oTocoef g (runTocoef p g))

/-- ENCPK under a public key with DRBG noise, a ternary u and CBD21 e₀ and e₁ (R61, R70, R200); its bits are the results level's
(log 15). -/
def runEncpk (p : Nat) (g : GInstr) (s : State) : State :=
  s.ctOp p oEncpk g 1 (fun s ps h => s.levelBody p oEncpk g ps h)

/-- ENCPK. -/
def execEncpk (p : Nat) (g : GInstr) (s : State) : Out := guarded (gOk p g) (s.gCmd p oEncpk g (runEncpk p g))

/-- The integer centred on zero whose residues modulo the given primes are the given values (R76). -/
def centred (qs vs : List Nat) : Int :=
  let m := qs.foldl (· * ·) 1
  let x := ((qs.zip vs).map (fun e =>
    let r := m / e.1
    r * (e.2 * invM e.1 (r % e.1) % e.1))).sum % max 1 m
  if m < 2 * x then (x : Int) - m else x

/-- MODRAISE (R76): level-0 residues, centred, reduced modulo every q-prime; the output keeps the input's domain. -/
def runModraise (p : Nat) (g : GInstr) (s : State) : State :=
  s.ctOp p oModraise g 1 (fun s ps h =>
    let a := s.hdr p g.f1
    let qs := (upTo a.limbs).map (fun j => bodyPrime ps a j)
    let coef := fun c => (upTo a.limbs).map (fun j =>
      let l := s.opLimb p ps g.f1 c j
      if a.domain then nttInverse (bodyPrime ps a j) (ps.psiN j a.logN) a.logN l else l)
    let lift := (upTo h.comps).map (fun c =>
      let ls := coef c
      (upTo (2 ^ h.logN)).map (fun i => centred qs (ls.map (fun l => el l i))))
    (bodyBy ps h (fun c j q =>
      let r := (lift.getD c []).map (fun (i : Int) => (i % (max 1 q : Nat)).toNat)
      if a.domain then nttForward q (ps.psiN j h.logN) h.logN r else r), s))

/-- MODRAISE. -/
def execModraise (p : Nat) (g : GInstr) (s : State) : Out := guarded (gOk p g) (s.gCmd p oModraise g (runModraise p g))

/-- BOOTCLOSE (R78): the body is unchanged, copied with folding. -/
def runBootclose (p : Nat) (g : GInstr) (s : State) : State :=
  s.ctOp p oBootclose g 1 (fun s ps h => (bodyBy ps h (fun c j _ => s.opLimb p ps g.f1 c j), s))

/-- BOOTCLOSE. -/
def execBootclose (p : Nat) (g : GInstr) (s : State) : Out := guarded (gOk p g) (s.gCmd p oBootclose g (runBootclose p g))

/-- FLOOD (R79, R200): the polynomial of its uniform noise request, coefficients in [−2^f, 2^f − 1], reduced into every limb's
prime, added to component 0. -/
def runFlood (p : Nat) (g : GInstr) (s : State) : State :=
  s.ctOp p oFlood g 1 (fun s ps h =>
    let noise := (s.noisePolys oFlood g.imm8 h.logN).headD []
    (bodyBy ps h (fun c j q =>
      let a := s.opLimb p ps g.f1 c j
      if c ≠ 0 then a
      else
        let e := noise.map (fun (i : Int) => (i % (max 1 q : Nat)).toNat)
        let e := if h.domain then nttForward q (ps.psiN (ps.limbEntry h.limbs j) h.logN) h.logN e else e
        zip2 (addM q) a e), s.drewNoise oFlood g.imm8))

/-- FLOOD. -/
def execFlood (p : Nat) (g : GInstr) (s : State) : Out := guarded (gOk p g) (s.gCmd p oFlood g (runFlood p g))


end Sys2Proof.Machine
end

