-- ==== Sys2Proof/Machine/GlahusLimb.lean ====
section
/-! DEFINITION. Glahus limb operations, opcodes 0x0200 to 0x0208 (R42 to R49, R128, R429). -/

namespace Sys2Proof.Machine

/-- Limb operations with a third region in IMM64. -/
def limbUses3 : Uses := { limbUses with imm64 := true }

/-- LADD: RX ← RY + IMM64 region. -/
def runLadd (p : Nat) (g : GInstr) (s : State) : State :=
  s.limbOp p g limbUses3 1 [g.ry, g.imm64] [] (fun ps e l =>
    zip2 (addM (ps.q e)) (l.getD 0 []) (l.getD 1 []))

/-- LADD. -/
def execLadd (p : Nat) (g : GInstr) (s : State) : Out := guarded (gOk p g) (s.gCmd p 0x0200 g (runLadd p g))

/-- LSUB: RX ← RY − IMM64 region. -/
def runLsub (p : Nat) (g : GInstr) (s : State) : State :=
  s.limbOp p g limbUses3 1 [g.ry, g.imm64] [] (fun ps e l =>
    zip2 (subM (ps.q e)) (l.getD 0 []) (l.getD 1 []))

/-- LSUB. -/
def execLsub (p : Nat) (g : GInstr) (s : State) : Out := guarded (gOk p g) (s.gCmd p 0x0201 g (runLsub p g))

/-- LNEG: RX ← −RY. -/
def runLneg (p : Nat) (g : GInstr) (s : State) : State :=
  s.limbOp p g limbUses 1 [g.ry] [] (fun ps e l => (l.getD 0 []).map (negM (ps.q e)))

/-- LNEG. -/
def execLneg (p : Nat) (g : GInstr) (s : State) : Out := guarded (gOk p g) (s.gCmd p 0x0202 g (runLneg p g))

/-- LMUL: RX ← RY · IMM64 region. -/
def runLmul (p : Nat) (g : GInstr) (s : State) : State :=
  s.limbOp p g limbUses3 1 [g.ry, g.imm64] [] (fun ps e l =>
    zip2 (mulM (ps.q e)) (l.getD 0 []) (l.getD 1 []))

/-- LMUL. -/
def execLmul (p : Nat) (g : GInstr) (s : State) : Out := guarded (gOk p g) (s.gCmd p 0x0203 g (runLmul p g))

/-- LMAC: RX ← RY · IMM64 region + RX. -/
def runLmac (p : Nat) (g : GInstr) (s : State) : State :=
  s.limbOp p g limbUses3 1 [g.ry, g.imm64, g.rx] [] (fun ps e l =>
    (upTo (2 ^ g.f1)).map (fun i => mulAddM (ps.q e) (el (l.getD 0 []) i) (el (l.getD 1 []) i) (el (l.getD 2 []) i)))

/-- LMAC. -/
def execLmac (p : Nat) (g : GInstr) (s : State) : Out := guarded (gOk p g) (s.gCmd p 0x0204 g (runLmac p g))

/-- LMULC: RX ← RY · Ak, the constant in kernel parameter PARAM (R109, R128). -/
def runLmulc (p : Nat) (g : GInstr) (s : State) : State :=
  let w := s.kparam p (g.param - 1)
  if g.param = 0 then s.gEnd p cGlahusInvalid
  else s.limbOp p g { limbUses with param := true } 1 [g.ry] (if 2 ^ 36 ≤ w then [cParamRange] else []) (fun ps e l =>
    (l.getD 0 []).map (fun v => mulConstM (ps.q e) v (fold w (ps.q e))))

/-- LMULC. -/
def execLmulc (p : Nat) (g : GInstr) (s : State) : Out := guarded (gOk p g) (s.gCmd p 0x0205 g (runLmulc p g))

/-- LNTT (R42). -/
def runLntt (p : Nat) (g : GInstr) (s : State) : State :=
  s.limbOp p g limbUses 1 [g.ry] [] (fun ps e l =>
    nttForward (ps.q e) (ps.psiN e g.f1) g.f1 (l.getD 0 []))

/-- LNTT. -/
def execLntt (p : Nat) (g : GInstr) (s : State) : Out := guarded (gOk p g) (s.gCmd p 0x0206 g (runLntt p g))

/-- LINTT (R43). -/
def runLintt (p : Nat) (g : GInstr) (s : State) : State :=
  s.limbOp p g limbUses 1 [g.ry] [] (fun ps e l =>
    nttInverse (ps.q e) (ps.psiN e g.f1) g.f1 (l.getD 0 []))

/-- LINTT. -/
def execLintt (p : Nat) (g : GInstr) (s : State) : Out := guarded (gOk p g) (s.gCmd p 0x0207 g (runLintt p g))

/-- LAUT (R45 to R48): the automorphism of IMM64, in the evaluation domain when F2 bit 1 is set. -/
def runLaut (p : Nat) (g : GInstr) (s : State) : State :=
  let k := autGalois g.f1 g.imm64 g.conj
  if autOperandBad g g.imm64 then s.gEnd p cGlahusInvalid
  else s.limbOp p g { limbUses3 with conj := true } 3 [g.ry]
    ((if 2 ^ 34 ≤ g.imm64 then [cParamRange] else [])
      ++ (if bit g.imm64 33 ∧ galoisBad g.f1 k then [cGaloisElement] else []))
    (fun ps e l => if bit g.f2 1 then automorphEval g.f1 k (l.getD 0 []) else automorphCoeff (ps.q e) g.f1 k (l.getD 0 []))

/-- LAUT. -/
def execLaut (p : Nat) (g : GInstr) (s : State) : Out := guarded (gOk p g) (s.gCmd p 0x0208 g (runLaut p g))


end Sys2Proof.Machine
end

