-- ==== Sys2Proof/Machine/GlahusMat.lean ====
section
/-! DEFINITION. Glahus matrix and vector operations, opcodes 0x0400 to 0x0402 (R182, R183, R188, R198, R199). -/

namespace Sys2Proof.Machine

/-- A shape record (Table 7-6). -/
structure Shape where
  mode : Nat := 0
  aTrans : Bool := false
  bTrans : Bool := false
  toRx : Bool := false
  mt : Nat := 0
  nt : Nat := 0
  kb : Nat := 0
  bad : Bool := false
  deriving DecidableEq, Repr

/-- Decode a shape record. -/
def shapeOf (v : Nat) : Shape :=
  let m := bits v 7 0
  { mode := m, aTrans := bit v 8, bTrans := bit v 9, toRx := bit v 10, mt := bits v 31 16, nt := bits v 47 32
    kb := bits v 63 48
    bad := decide (m < 2) || decide (6 < m) || bits v 15 11 != 0 || bits v 255 64 != 0
      || (m == 3 && (bit v 8 || bit v 9)) }

/-- Bytes of an operand block of a mode. -/
def blockSize (m : Nat) : Nat := if m = 4 then 8192 else 4096
/-- k-steps of an operand block. -/
def blockSteps (m : Nat) : Nat := if m = 3 then 128 else 64

/-- One k-step of an accumulator (R182, R183). -/
def macStep (m old a b : Nat) : Nat :=
  if m = 2 then fromSigned 32 ((old : Int) + toSigned 8 a * toSigned 8 b)
  else if m = 3 then fromSigned 32 ((old : Int) + toSigned 4 a * toSigned 4 b)
  else if m = 4 then fMac old (bf16 a) (bf16 b)
  else if m = 5 then fMac old (e4m3 a) (e4m3 b)
  else fMac old (e5m2 a) (e5m2 b)

/-- Read-shape code of a transposed or plain block. -/
def transCode (t : Bool) : Nat := if t then 4 else 0

/-- One output tile: accumulation over kb, then over the k-steps, ascending (R137, R183). -/
def outTile (z : Shape) (a b : Nat → List Byte) : List Nat :=
  (upTo 4096).map (fun p =>
    (upTo z.kb).foldl (fun v k =>
      (upTo (blockSteps z.mode)).foldl (fun v i =>
        macStep z.mode v (matElem z.mode (transCode z.aTrans) (a k) i (p / 64)) (matElem z.mode (transCode z.bTrans) (b k) i (p % 64)))
        v) 0)

/-- Rows of n consecutive blocks of a byte region: the code of the first bad one (R97, R161). -/
def State.blocksCode (s : State) (p : Nat) (r : Region) (n size : Nat) : Nat :=
  ((upTo n).map (fun c =>
    if ¬ s.lgFits p (r.blockAt c) size then cStreamRange
    else if ¬ s.lgValid p (r.blockAt c).toNat size then cRowInvalid else 0)).find? (· != 0) |>.getD 0

/-- The address of an MMUL's shape record: A_k, since IMM64 holds the B region; with PARAM 0 it is IMM64 (R127; assumption
log 16). -/
def State.shapeAddr (s : State) (p : Nat) (g : GInstr) : Nat :=
  if g.param = 0 then g.imm64 else s.kparam p (g.param - 1)

/-- A shape record at an address the instruction fixes is a compile-time constant, which translation checks (R198); one outside the
partition's stacks is not read (R3): the run-time check refuses it. -/
def State.constShapeBad (s : State) (p : Nat) (g : GInstr) : Bool :=
  g.param == 0 && (constAddrBad g || (s.inStacks p g.imm64 32 && (shapeOf (s.loadLE g.imm64 32)).bad))

/-- Translation rejects an MMUL (R133): RX blocks are of 16 KiB, source blocks of at least 4 KiB. -/
def State.mmulBad (s : State) (p : Nat) (g : GInstr) : Bool :=
  unusedBad { param := true, imm64 := true, rx := true, ry := true } g || s.constShapeBad p g
    || s.byteRegionBad p g.rx 16384 || s.byteRegionBad p g.ry 4096 || s.byteRegionBad p g.imm64 4096
    || s.zeroStrideDst p g.rx

/-- MMUL (R198): output tiles to the queue of the next VPASS, or to RX. -/
def runMmul (p : Nat) (g : GInstr) (s : State) : State :=
  s.gRun p (s.mmulBad p g) (fun s =>
    let a := s.shapeAddr p g
    let z := shapeOf (if s.inStacks p a 32 then s.loadLE a 32 else 0)
    let rx := s.region p g.rx
    let ra := s.region p g.ry
    let rb := s.region p g.imm64
    let size := blockSize z.mode
    let tiles := z.mt * z.nt
    let m := s.lineCode a
    let s := if a % 2048 = 0 then s.readLine p a true else s
    if a % 2048 ≠ 0 then s.gFault p cParamRange
    else if ¬ s.inStacks p a 32 then s.gFault p cStreamRange
    else if m ≠ 0 then (s.gMem p [a] m).gFault p m
    else if z.bad then s.gFault p cMatrixSequence
    else if tiles = 0 ∨ z.kb = 0 then s.modPart p (fun x => { x with mmulQ := if z.toRx then none else some [] })
    else
      let ca := s.blocksCode p ra (z.mt * z.kb) size
      let cb := s.blocksCode p rb (z.kb * z.nt) size
      let c := if ca ≠ 0 then ca else cb
      if c ≠ 0 then (if z.toRx then s.dropBlocks p rx 16384 else s).gFault p c
      else if z.toRx ∧ (upTo tiles).any (fun i => !s.lgFits p (rx.blockAt i) 16384) then s.gFault p cStreamRange
      else
        let out := (upTo tiles).map (fun i =>
          outTile z (fun k => s.lgRead p (ra.blockAt (i / z.nt * z.kb + k)).toNat size)
            (fun k => s.lgRead p (rb.blockAt (k * z.nt + i % z.nt)).toNat size))
        if z.toRx then
          let st := (s.modPart p (fun x => { x with mmulQ := none })).gStamp
          st.2.each (upTo tiles) (fun i x =>
            x.lgWrite p (rx.blockAt i).toNat (((out.getD i []).map (toBytes 4)).flatten) st.1)
        else s.modPart p (fun x => { x with mmulQ := some out }))

/-- MMUL. -/
def execMmul (p : Nat) (g : GInstr) (s : State) : Out := guarded (gOk p g) (s.gCmd p 0x0400 g (runMmul p g))

/-- VPASS fields that break the vector rules (R187, R199). -/
def vpassBad (g : GInstr) : Bool :=
  let rnd := g.f1 % 4
  g.f0 == 0 || decide (19 < g.f0) || decide (64 ≤ g.f1) || decide (31 < g.f2) || rnd == 3
    || (rnd == 2 && !([9, 14, 15, 16].contains g.f0)) || (rnd != 0 && !([9, 14, 15, 16, 17, 18].contains g.f0))
    || ((g.f0 == 13 || g.f0 == 19) && bit g.f1 3)

/-- Bytes of a VPASS's destination block, and of its source block: 64 columns for REQ and DEQUANT. -/
def vpassOut (g : GInstr) : Nat := 512 * vopBits g.f0
def vpassSrc (g : GInstr) : Nat := if g.f0 = 14 ∨ g.f0 = 15 then 256 else 16384

/-- Mask sel of logical tile i of a pass (R190); a kernel start sets every one to ones (assumption log 16). -/
def Part.mask (x : Part) (i sel : Nat) : BitVec 4096 := smGet (BitVec.allOnes 4096) x.masks (2 * i + sel)

/-- Translation rejects a VPASS (R133, R199). -/
def State.vpassInvalid (s : State) (p : Nat) (g : GInstr) : Bool :=
  unusedBad { f0 := true, f1 := true, f2 := true, param := true, imm64 := g.param == 0, rx := true, ry := true } g
    || vpassBad g || s.byteRegionBad p g.rx (vpassOut g) || s.byteRegionBad p g.ry (vpassSrc g) || s.zeroStrideDst p g.rx

/-- VPASS (R199): every tile the preceding MMUL queued, in order; over the blocks of RY where none is queued (R193). -/
def runVpass (p : Nat) (g : GInstr) (s : State) : State :=
  s.gRun p (s.vpassInvalid p g) (fun s =>
    let deq := (s.part p).mmulQ.isSome
    let q := (s.part p).mmulQ.getD []
    let rx := s.region p g.rx
    let ry := s.region p g.ry
    let col := g.f0 == 14 || g.f0 == 15
    let n := if deq then q.length else ry.count
    let t0 := if g.param = 0 then g.imm64 else s.kparam p (g.param - 1)
    let outBytes := vpassOut g
    let srcBytes := vpassSrc g
    let c := if deq ∧ ry.count = 0 then 0 else s.blocksCode p ry n srcBytes
    if c ≠ 0 then (s.dropBlocks p rx outBytes).gFault p c
    else if (upTo n).any (fun i => !s.lgFits p (rx.blockAt i) outBytes) then s.gFault p cStreamRange
    else
      let st := s.gStamp
      let s := st.2.modPart p (fun x => { x with mmulQ := none })
      let w := (upTo n).foldl (fun (acc : State × Nat) i =>
        let s := acc.1
        if acc.2 ≠ 0 then acc
        else
          -- masks are the logical tile's own, whatever tile it falls on (R24, log 16); RSEED fills every tile's slot alike
          let sel := bits g.f1 4 4
          let mask := (s.part p).mask i sel
          let slot := smGet {} (s.tile (p * (s.part p).tiles)).gen (bits g.f1 2 2)
          let src := if deq ∧ ry.count = 0 then [] else s.lgRead p (ry.blockAt i).toNat srcBytes
          let x := q.getD i []
          let outs := (upTo 4096).map (fun k =>
            let sv := leAt src (4 * (if col then k % 64 else k)) 4
            let mb := mask.getLsbD k
            if bit g.f1 3 ∧ ¬ mb then (({} : LaneOut), false)
            else
              (laneOp { vop := g.f0, x := if deq then x.getD k 0 else sv, y := if deq then sv else 0, rnd := g.f1 % 4
                        shift := g.f2, maskBit := mb
                        key := slot.key ++ List.replicate (16 - slot.key.length) 0#8, stream := slot.stream
                        dropP := slot.dropP, index := ((t0 + i) * 4096 + k) % 2 ^ 64 }, true))
          let code := if bit g.f1 5 ∧ outs.any (fun o => o.1.sat && o.2) then cVectorLane
            else if outs.any (fun o => o.1.bad) then cVectorOperand else 0
          if code ≠ 0 then (s.dropBlocks p rx outBytes, code)
          else
            let m := ((upTo 4096).zip outs).foldl (fun (z : BitVec 4096) o => match o.2.1.mask with
              | some true => z ||| (1#4096 <<< o.1)
              | some false => z &&& ~~~(1#4096 <<< o.1)
              | none => z) mask
            let s := s.modPart p (fun y => { y with masks := smSet (BitVec.allOnes 4096) y.masks (2 * i + sel) m })
            (s.lgWrite p (rx.blockAt i).toNat (packLanes (vopBits g.f0) (outs.map (fun o => o.1.val))) st.1, 0)) (s, 0)
      if w.2 ≠ 0 then w.1.gFault p w.2 else w.1)

/-- VPASS. -/
def execVpass (p : Nat) (g : GInstr) (s : State) : Out := guarded (gOk p g) (s.gCmd p 0x0401 g (runVpass p g))

/-- Translation rejects an RSEED (R133). -/
def rseedBad (g : GInstr) : Bool :=
  unusedBad { f0 := true, param := true, imm64 := true } g || decide (1 < g.f0) || constAddrBad g

/-- RSEED (R192, R199): slot F0 of every tile from the seed record. -/
def runRseed (p : Nat) (g : GInstr) (s : State) : State :=
  s.gRun p (rseedBad g) (fun s =>
    let a := s.gAddr p g
    let b := s.load a 32
    let m := s.lineCode a
    let s := if a % 2048 = 0 then s.readLine p a true else s
    if a % 2048 ≠ 0 then s.gFault p cParamRange
    else if ¬ s.inStacks p a 32 then s.gFault p cStreamRange
    else if m ≠ 0 then (s.gMem p [a] m).gFault p m
    else if ofBytes (b.drop 26) ≠ 0 then s.gFault p cVectorOperand
    else s.each (s.partTiles p) (fun t x => x.modTile t (fun y =>
      { y with gen := smSet {} y.gen g.f0 { key := b.take 16, stream := leAt b 16 8, dropP := leAt b 24 2 } })))

/-- RSEED. -/
def execRseed (p : Nat) (g : GInstr) (s : State) : Out := guarded (gOk p g) (s.gCmd p 0x0402 g (runRseed p g))

end Sys2Proof.Machine
end

