-- ==== Sys2Proof/Machine/Firmware.lean ====
section
/-! DEFINITION. Firmware banks, the checks of the boot loader, and the engine's microcode (R357, R397, R398; assumption logs 5 and 34). -/

namespace Sys2Proof
open Machine

/-! ### The header of a bank (Table 15-4) -/

/-- n bytes of a bank from byte i; flash that is erased reads as ones. -/
def FwBank.part (b : FwBank) (i n : Nat) : List Byte :=
  let l := (b.bytes.drop i).take n
  l ++ List.replicate (n - l.length) 0xff#8

/-- MAGIC. -/
def FwBank.magic (b : FwBank) : Nat := ofBytes (b.part 0 4)
/-- BUILD_NO. -/
def FwBank.build (b : FwBank) : Nat := ofBytes (b.part 4 2)
/-- MINOR. -/
def FwBank.minor (b : FwBank) : Nat := ofBytes (b.part 6 2)
/-- MAJOR. -/
def FwBank.major (b : FwBank) : Nat := ofBytes (b.part 8 2)
/-- RL_MAX. -/
def FwBank.rlMax (b : FwBank) : Nat := ofBytes (b.part 10 1)
/-- SVN. -/
def FwBank.svn (b : FwBank) : Nat := ofBytes (b.part 12 4)
/-- BODY_BYTES. -/
def FwBank.bodyBytes (b : FwBank) : Nat := ofBytes (b.part 16 4)
/-- DIGEST. -/
def FwBank.digest (b : FwBank) : List Byte := b.part 20 48
/-- SIG_R. -/
def FwBank.sigR (b : FwBank) : Nat := ofBytesBE (b.part 128 48)
/-- SIG_S. -/
def FwBank.sigS (b : FwBank) : Nat := ofBytesBE (b.part 176 48)
/-- The body, which follows the header directly. -/
def FwBank.body (b : FwBank) : List Byte := b.part 256 b.bodyBytes
/-- The microcode a bank's body holds. -/
def FwBank.microcode (b : FwBank) : List Byte := (b.body.drop b.micro.place).take b.micro.length

end Sys2Proof

namespace Sys2Proof.Machine

/-! ### Validity -/

/-- The most bytes of a body. -/
abbrev bodyMost : Nat := 16776960
/-- MAGIC of a bank, "KZFW". -/
abbrev bankMagic : Nat := 0x57465A4B

/-- A signature of P-384 with SHA-384 over a string, by the holder of a public key; r and s lie from 1 to n − 1. -/
def signatureOk (key : Nat × Nat) (m : List Byte) (r t : Nat) : Bool :=
  r != 0 && t != 0 && decide (r < p384.n) && decide (t < p384.n) && ecdsaValid p384 key.1 key.2 (ofBytesBE (sha384 m)) r t

/-- A bank is valid (R398): MAGIC, the signature over header bytes 0 to 127, the digest of its body, and its security version. -/
def State.bankOk (s : State) (b : FwBank) : Bool :=
  b.magic == bankMagic && decide (b.bodyBytes ≤ bodyMost) && decide (s.fw.fwRollback ≤ b.svn)
    && signatureOk s.pins.fwKey (b.part 0 128) b.sigR b.sigS && sha384 b.body == b.digest

/-- A bank's microcode is accepted (R357): its signature, and its version under the microcode rollback counter. -/
def State.microcodeOk (s : State) (b : FwBank) : Bool :=
  decide (s.fw.microRollback ≤ b.micro.version) && signatureOk s.pins.microKey b.microcode b.micro.sigR b.micro.sigS

/-! ### The running bank -/

/-- Bank 0 or 1. -/
def FwState.slot (f : FwState) (i : Nat) : FwBank := if i = 0 then f.bank0 else f.bank1

/-- Put a bank. -/
def FwState.put (f : FwState) (i : Nat) (b : FwBank) : FwState := if i = 0 then { f with bank0 := b } else { f with bank1 := b }

/-- The flash address of a bank (R397). -/
def bankAt (i : Nat) : Nat := if i = 0 then Config.fwBank0 else Config.fwBank1

/-- The running firmware bank; none runs: an erased one. -/
def FwState.bank (f : FwState) : FwBank := if f.running = 0 then f.bank0 else if f.running = 1 then f.bank1 else {}

/-- FW_VERSION (Table 12-8). -/
def FwState.version (f : FwState) : Nat :=
  if f.running = 2 then 0 else pack [(0, f.bank.build), (16, f.bank.minor), (32, f.bank.major)]

/-- GL_VERSION.RL_MAX of the running firmware. -/
def FwState.rlMax (f : FwState) : Nat := if f.running = 2 then 0 else f.bank.rlMax

/-- Order of firmware banks: MAJOR, MINOR, BUILD_NO. -/
def bankNewer (a b : FwBank) : Bool := decide ([b.major, b.minor, b.build] < [a.major, a.minor, a.build])

/-- The bank the boot loader runs (R398): the newer valid one, or the other valid one where it fails; 2: none. -/
def State.selectBank (s : State) (fails : Bool) : Nat :=
  let v0 := s.bankOk s.fw.bank0
  let v1 := s.bankOk s.fw.bank1
  let first := if v0 ∧ v1 then (if bankNewer s.fw.bank1 s.fw.bank0 then 1 else 0) else if v0 then 0 else if v1 then 1 else 2
  if ¬ fails then first else if first = 0 then (if v1 then 1 else 2) else if first = 1 then (if v0 then 0 else 2) else 2

/-- The digests of measurements 1 to 3 (R348): the boot loader, the running bank as flash holds it, header and body, and the
engine's microcode. -/
def FwState.measured (f : FwState) (i : Nat) : List Byte :=
  if i = 1 then toBytes 48 Config.bootDigest
  else if i = 2 then sha384 (f.bank.part 0 256 ++ f.bank.body)
  else sha384 f.bank.microcode

/-- The digests of measurements 1 to 3, one after another. -/
def FwState.digests (f : FwState) : List Byte := f.measured 1 ++ f.measured 2 ++ f.measured 3

end Sys2Proof.Machine
end

