-- ==== Sys2Proof/Machine/NoiseUnit.lean ====
section
/-! DEFINITION. The noise unit (R200, R201) and the use of the DRBG instances (R362, R363). -/

namespace Sys2Proof.Machine

/-- Fields of a noise request (Table 7-8). -/
def nqKind (r : BitVec 256) : Nat := be r 1 0
/-- WIDTH. -/
def nqWidth (r : BitVec 256) : Nat := be r 7 2
/-- PSET. -/
def nqPset (r : BitVec 256) : Nat := be r 11 8
/-- E0. -/
def nqE0 (r : BitVec 256) : Nat := be r 18 12
/-- LIMBS. -/
def nqLimbs (r : BitVec 256) : Nat := be r 25 19
/-- log N. -/
def nqLogN (r : BitVec 256) : Nat := be r 28 26 + 12
/-- OFFSET. -/
def nqOffset (r : BitVec 256) : Nat := be r 127 64

/-- Bits a coefficient takes (R200). -/
def nqBits (r : BitVec 256) : Nat := drawBits (nqKind r) (nqWidth r)

/-- Bytes of the polynomial's limbs. -/
def nqBytes (r : BitVec 256) : Nat := nqLimbs r * limbBytes (nqLogN r) false

/-- The checks of a GO in order (R201): 0 or a code. -/
def State.noiseCode (s : State) (p : Nat) : Nat :=
  let r := (s.part p).noiseReq
  if be r 63 29 ≠ 0 ∨ be r 255 128 ≠ 0 ∨ nqKind r = 3 ∨ 17 < nqLogN r ∨ (nqKind r ≠ 2 ∧ nqWidth r ≠ 0) ∨ 60 < nqWidth r then
    cNoiseRequestInvalid
  else
    match s.pset? (nqPset r) with
    | none => cNoiseRequestInvalid
    | some x =>
      if x.primes.length < nqE0 r + nqLimbs r then cNoiseRequestInvalid
      else if nqLimbs r = 0 ∨ (nqKind r = 2 ∧ nqWidth r = 0) then cDescriptorZero
      else if nqOffset r % 2048 ≠ 0 ∨ noiseBytes < nqOffset r + nqBytes r ∨ ¬ s.isUp p then cNoiseUnavailable
      else 0

/-- The end of a noise request: DONE, and the runtime's token to the waiting tiles. -/
def State.noiseEnd (s : State) (p code : Nat) : State :=
  (s.modPart p (fun x => { x with noiseBusy := false, noiseDone := true, noiseErr := code })).collToken p code

/-- The polynomial of a request. -/
def noisePoly (r : BitVec 256) (draw : Nat) : List Int := drawPoly (nqKind r) (nqWidth r) (nqLogN r) draw

/-- NOISE_REQUEST_DONE (R200, R201): the limbs reach the noise region, DONE is set and the token leaves. -/
def execNoiseRequestDone (p : Nat) (s : State) : Out :=
  guarded (decide (p < 8)) <|
    let x := s.part p
    if ¬ x.noiseBusy then s
    else
      let r := x.noiseReq
      let ps := s.pset (nqPset r)
      let poly := noisePoly r s.free
      let s := { s with free := s.free + 1 }
      let s := s.each (upTo (nqLimbs r)) (fun j y =>
        let q := ps.q (nqE0 r + j)
        let a := x.noiseBase + nqOffset r + j * limbBytes (nqLogN r) false
        let w := y.storeP p a (pack36 (poly.map (fun c => (c % (q : Int)).toNat)))
        w.1.memFault p 9 (linesOf a (limbBytes (nqLogN r) false)) w.2)
      let s := s.modPart p (fun y => { y with noiseRanges := y.noiseRanges ++ [{ offset := nqOffset r, bytes := nqBytes r }] })
      s.noiseEnd p 0

end Sys2Proof.Machine
end

