-- ==== Sys2Proof/Machine/Security.lean ====
section
/-! DEFINITION. The security complex: the public-key engine, the owner image key, entropy, and the wipe
(R355 to R366; assumption logs 9 and 26). -/

namespace Sys2Proof.Machine

/-- Change the security complex. -/
def State.modSec (s : State) (f : SecState → SecState) : State := { s with sec := f s.sec }

/-! ### Public-key operations (R357 to R361) -/

/-- A request whose fields fail decode (R366). -/
def pkBad (op : Nat) (r : PkReq) : Bool :=
  r.reserved != 0 || op == 0 || op == 7
    || (if 2 ≤ op ∧ op ≤ 5 then decide (r.slot < 48) else r.slot != 0)
    || r.curve == 3 || ((op == 1 || op == 4) && r.curve == 0) || (op == 6 && r.rsaLen == 0)

/-- The fixed time in security-complex cycles (Table 13-9). -/
def pkCycles (op curve rsaLen : Nat) : Nat :=
  if op = 1 then (if curve = 1 then 130000 else 305000)
  else if op = 2 then (if curve = 1 then 90000 else 210000)
  else if op = 3 ∨ op = 4 then (if curve = 1 then 85000 else 200000)
  else if op = 5 then 2000
  else if rsaLen = 1 then 20000 else if rsaLen = 2 then 42500 else 75000

/-- Ticks of 10 ns a number of cycles of 500 MHz take. -/
def pkTicks (cycles : Nat) : Nat := cycles / 5

/-- Bytes of an RSA operand. -/
def rsaBytes (rsaLen : Nat) : Nat := 128 * (rsaLen + 1)

/-- Operand i of L bytes in PK_BUF, big-endian. -/
def SecState.operand (c : SecState) (l i : Nat) : Nat := ofBytesBE (memBytes c.pkBuf (l * i) l)

/-- A slot suits an operation (Table 13-8, order 1). -/
def SecState.slotOk (c : SecState) (op : Nat) : Bool :=
  let u := smGet {} c.users c.pkSlot
  if op = 2 then u.full && !u.ecdh
  else if op = 3 then u.full && u.ecdh
  else if op = 4 then !u.full
  else if op = 5 then u.full
  else true

/-- Points and scalars of an operation on a curve: the checks of orders 4 and 6 (Table 13-8). -/
def pointCode (c : CurveParams) (x y : Nat) : Nat :=
  if c.p ≤ x ∨ c.p ≤ y then cPkRange else if onCurve c x y then 0 else cPkNotOnCurve

/-- What an operation finds and computes: its code and its result bytes; v: a free value for a nonce or private scalar. -/
def SecState.compute (c : SecState) (z : PkOp) (v : Nat) : Nat × List Byte :=
  let k := curveOf z.curve
  let l := k.len
  let u := smGet {} c.users c.pkSlot
  let scalar := v % (k.n - 1) + 1
  let two := fun (p : Nat × Nat) => toBytesBE l p.1 ++ toBytesBE l p.2
  if ¬ c.slotOk c.pkOp then (cPkSlot, [])
  else if c.pkOp = 1 then
    let r := c.operand l 3
    let t := c.operand l 4
    let x := c.operand l 0
    let y := c.operand l 1
    if r = 0 ∨ t = 0 then (cPkZero, [])
    else if k.n ≤ r ∨ k.n ≤ t then (cPkRange, [])
    else if pointCode k x y ≠ 0 then (pointCode k x y, [])
    else if ecdsaValid k x y (c.operand l 2) r t then (0, []) else (cPkSignature, [])
  else if c.pkOp = 2 then
    if ¬ c.secOk then (cDrbgFail, []) else (0, two (ecdsaSignWith k u.d (c.operand l 0) scalar))
  else if c.pkOp = 3 then
    let x := c.operand l 0
    let y := c.operand l 1
    if pointCode k x y ≠ 0 then (pointCode k x y, [])
    else
      match ecMul k u.d (x, y) with
      | some p => (0, toBytesBE l p.1)
      | none => (cPkZero, [])
  else if c.pkOp = 4 then
    if ¬ c.secOk then (cDrbgFail, []) else (0, two (ecPublic k scalar))
  else if c.pkOp = 5 then (0, two (u.x, u.y))
  else
    let l := rsaBytes c.pkRsaLen
    let n := c.operand l 0
    let e := c.operand l 1
    let σ := c.operand l 2
    if σ = 0 ∨ n = 0 then (cPkZero, [])
    else if n ≤ σ then (cPkRange, [])
    else if n % 2 = 0 ∨ n < 2 ^ (8 * l - 1) ∨ e % 2 = 0 ∨ e < 3 ∨ 2 ^ 32 ≤ e then (cPkRange, [])
    else (0, toBytesBE l (powM n σ e))

/-- Bytes of a result. -/
def SecState.resultLen (c : SecState) (z : PkOp) : Nat :=
  let l := (curveOf z.curve).len
  if c.pkOp = 1 then 0 else if c.pkOp = 3 then l else if c.pkOp = 6 then rsaBytes c.pkRsaLen else 2 * l

/-- Why the engine serves no request: PK_MICROCODE, PK_DISABLED, or 0. -/
def SecState.engineCode (c : SecState) : Nat :=
  if c.microcodeBad ∨ (¬ c.pkReady ∧ c.mismatches < 3) then cPkMicrocode else if 3 ≤ c.mismatches then cPkDisabled else 0

/-- Complete a host request at once with a code. -/
def State.pkEnd (s : State) (code : Nat) : State :=
  let s := s.modSec (fun c => { c with pkDone := true, pkErr := code, pkBusy := false, running := none })
  s.report code { block := 10 }

/-- The engine takes up a host request: its decode, the engine's own state, then its start (R359, R361, R366). -/
def State.pkServe (s : State) (op : Nat) (r : PkReq) : State :=
  if pkBad op r then s.pkEnd cPkRequest
  else if s.sec.engineCode ≠ 0 then s.pkEnd s.sec.engineCode
  else
    let u := smGet {} s.sec.users r.slot
    -- the curve of an empty slot is open: it fixes the time of the failure
    let d := if (op = 2 ∨ op = 3 ∨ op = 5) ∧ ¬ u.full then s.draw else (u.curve - 1, s)
    let curve := if op = 1 ∨ op = 4 then r.curve else d.1 % 2 + 1
    d.2.modSec (fun c => { c with
      pkBusy := true, running := some { since := s.now, curve := curve, cycles := pkCycles op curve r.rsaLen } })

/-- A PK_CTRL write with GO = 1 (R358 to R361, R366). While the wipe runs the request waits (R365). -/
def State.pkGo (s : State) (op : Nat) (r : PkReq) : State :=
  if s.sec.pkBusy then s.regAccess 0 10
  else
    let s := s.modSec (fun c => { c with pkOp := op, pkSlot := r.slot, pkCurve := r.curve, pkEcdh := r.ecdhKey, pkRsaLen := r.rsaLen })
    if s.sec.wiping then s.modSec (fun c => { c with pkBusy := true, heldPk := some (op, r) }) else s.pkServe op r

/-- ECDSA_VERIFY (OP 1). -/
def execEcdsaVerify (r : PkReq) (s : State) : Out := guarded (pkOk r) (s.pf0 (fun s => s.pkGo 1 r))
/-- ECDSA_SIGN (OP 2). -/
def execEcdsaSign (r : PkReq) (s : State) : Out := guarded (pkOk r) (s.pf0 (fun s => s.pkGo 2 r))
/-- ECDH (OP 3). -/
def execEcdh (r : PkReq) (s : State) : Out := guarded (pkOk r) (s.pf0 (fun s => s.pkGo 3 r))
/-- GEN (OP 4). -/
def execGen (r : PkReq) (s : State) : Out := guarded (pkOk r) (s.pf0 (fun s => s.pkGo 4 r))
/-- READ_PUBLIC (OP 5). -/
def execReadPublic (r : PkReq) (s : State) : Out := guarded (pkOk r) (s.pf0 (fun s => s.pkGo 5 r))
/-- RSA_VERIFY (OP 6). -/
def execRsaVerify (r : PkReq) (s : State) : Out := guarded (pkOk r) (s.pf0 (fun s => s.pkGo 6 r))

/-- The two evaluations of an operation disagree (R360): counted; the third disables the engine until device reset. -/
def State.engineMismatch (s : State) : State :=
  s.modSec (fun x => { x with
    mismatches := min 3 (x.mismatches + 1), pkReady := x.pkReady && !decide (2 ≤ x.mismatches) })

/-! ### The owner image key (R356) -/

/-- The checks of INSTALL_OWNER: 0 or a code. -/
def SecState.installCode (c : SecState) : Nat :=
  let x := ofBytesBE (memBytes c.ownerBuf 0 48)
  let y := ofBytesBE (memBytes c.ownerBuf 48 48)
  if c.engineCode ≠ 0 then c.engineCode
  else if c.ownerKey.isSome then cOwnerKeyPresent
  else pointCode p384 x y

/-- Run an installation. -/
def State.installOwner (s : State) : State :=
  let c := s.sec
  let code := c.installCode
  let s := s.modSec (fun z => { z with
    heldInstall := false, done := true, errCode := code
    ownerKey := if code = 0 then some (ofBytesBE (memBytes c.ownerBuf 0 48), ofBytesBE (memBytes c.ownerBuf 48 48)) else z.ownerKey })
  if code = 0 then s else s.report code { block := 10 }

/-- A waiting installation runs once no scrub sequence is under way and the engine is free: requests run one at a time, in arrival
order (R356). -/
def State.heldInstalls (s : State) : State :=
  if s.sec.heldInstall ∧ ¬ s.scrubbing ∧ s.sec.running.isNone then s.installOwner else s

/-- INSTALL_OWNER: one that arrives during a scrub sequence, or while the engine runs an operation, waits for its end. Its own two
evaluations agree (assumption log 26). -/
def execInstallOwner (s : State) : Out :=
  guarded true (s.pf0 (fun s => (s.modSec (fun c => { c with heldInstall := true })).heldInstalls))

/-! ### The end of an operation -/

/-- The end of an operation: the result bytes, or zeros with a code; GEN fills its slot. -/
def State.pkFinish (s : State) (z : PkOp) (mismatch : Bool) : State :=
  let op := s.sec.pkOp
  let k := curveOf z.curve
  let d := if op = 2 ∨ op = 4 then s.secNumber k.len else (0, s)
  let s := d.2
  let c := s.sec
  let r := c.compute z d.1
  let code := if mismatch then cPkMismatch else r.1
  let out := if code = 0 then r.2 else List.replicate (c.resultLen z) 0#8
  let scalar := d.1 % (k.n - 1) + 1
  let p := ecPublic k scalar
  let s := s.modSec (fun x => { x with
    pkBuf := memWrite x.pkBuf 0 out
    users := if code = 0 ∧ op = 4 then
        smSet {} x.users c.pkSlot { full := true, ecdh := c.pkEcdh, curve := z.curve, d := scalar, x := p.1, y := p.2 }
      else x.users })
  let s := if mismatch then s.engineMismatch else s
  let s := if code = 0 then s.modSec (fun x => { x with pkDone := true, pkErr := 0, pkBusy := false, running := none }) else s.pkEnd code
  s.heldInstalls

/-- PK_OPERATION_DONE (R360, R361): after its fixed time. -/
def execPkOperationDone (mismatch : Bool) (s : State) : Out :=
  guarded true <|
    match s.sec.running with
    | none => s
    | some z => if s.now - z.since < pkTicks z.cycles then s else s.pkFinish z mismatch

/-- MICROCODE_CHECK (R357): a byte that differs disables the engine. -/
def execMicrocodeCheck (matches_ : Bool) (s : State) : Out :=
  guarded true <|
    if matches_ then s
    else (s.modSec (fun c => { c with microcodeBad := true, pkReady := false })).record cPkMicrocode { block := 10 }

/-! ### Entropy (R363) -/

/-- A sample under the continuous tests: the repetition count test, cutoff 6, and the adaptive proportion test, window 512, cutoff
62. A failure discards the samples of its window. -/
def SecState.sample (c : SecState) (x : Nat) : SecState × Bool :=
  let rep := if c.repeats ≠ 0 ∧ c.lastSample = x then c.repeats + 1 else 1
  let anew := c.aptLength = 0 ∨ c.aptLength = 512
  let first := if anew then x else c.aptFirst
  let same := if anew then 1 else c.aptSame + b2n (x == c.aptFirst)
  if 6 ≤ rep ∨ 62 ≤ same then ({ c with repeats := 0, aptLength := 0 }, true)
  else
    ({ c with lastSample := x, repeats := rep, aptFirst := first, aptSame := same
              aptLength := if anew then 1 else c.aptLength + 1 }, false)

/-- A health test failed: three within a second stop the source. -/
def State.entropyFail (s : State) : State :=
  let l := (s.now :: s.sec.failTimes).take 3
  let stop := l.length == 3 && decide (s.now - l.getD 2 0 < 100000000)
  let s := s.modSec (fun c => { c with testFails := satInc 16 c.testFails, failTimes := l, sourceOk := c.sourceOk && !stop })
  s.record cEntropyFail { block := 10 }

/-- ENTROPY_SAMPLE. -/
def execEntropySample (sample : Nat) (s : State) : Out :=
  guarded (decide (sample < 256)) <|
    if ¬ s.sec.sourceOk then s
    else
      let r := s.sec.sample sample
      let s := s.modSec (fun _ => r.1)
      if r.2 then s.entropyFail else s

/-- How many of a list of samples fail, with the tests' state after them. -/
def SecState.samples : List Nat → SecState → Nat → SecState × Nat
  | [], c, n => (c, n)
  | x :: l, c, n =>
    let r := c.sample x
    if r.2 then SecState.samples l r.1 (n + 1) else SecState.samples l r.1 n

/-- The start-up tests over their samples; the source runs unless they stop it. -/
def State.startSource (s : State) (l : List Nat) : State :=
  let r := SecState.samples l { s.sec with sourceOk := true, repeats := 0, aptLength := 0, failTimes := [] } 0
  let s := s.modSec (fun _ => r.1)
  if r.2 = 0 then s else s.each (upTo r.2) (fun _ x => x.entropyFail)

/-- Instantiate both instances anew (R362): 384 bits of entropy, a 192-bit nonce and the serial each. `due`: each reseeds before its
first request, after a change of owner. An instance whose own health test fails stays stopped (R363). -/
def State.instantiate (s : State) (secFails noiseFails due : Bool) : State :=
  let serial := toBytes 8 s.pins.serial
  let a := s.entropy 48
  let b := a.2.entropy 24
  let c := b.2.entropy 48
  let d := c.2.entropy 24
  d.2.modSec (fun x => { x with
    secOk := x.sourceOk && !secFails, noiseOk := x.sourceOk && !noiseFails, secReqs := 0, noiseReqs := 0
    secDrbg := Drbg.start a.1 b.1 serial, noiseDrbg := Drbg.start c.1 d.1 serial, secDue := due, noiseDue := due })

/-! ### Function pages and TDIs (R328, R352, R353) -/

/-- A function page at its reset values; configuration space, TDI and IDE stream are not part of it. -/
def State.resetPage (s : State) (n : Nat) : State :=
  s.modFn n (fun x => { x with
    queues := [], winBase := 0, partChange := false, accessErr := false, errorRecord := false, adminDone := false, errCode := 0
    latch := [] })

/-- A TDI enters ERROR: its queues stop with TDI_LOCKED (Table 13-5). -/
def State.tdiToError (s : State) (n : Nat) : State :=
  s.modFn n (fun x => { x with tdi := 3, queues := x.queues.map (fun e =>
    (e.1, if e.2.enable then { e.2 with error := true, errCode := cTdiLocked } else e.2)) })

/-- Every TDI enters ERROR: those of the enabled VFs, in PCIe mode. -/
def State.allTdiError (s : State) : State :=
  if s.host.mode ≠ 0 then s else s.each (upTo s.host.numVf) (fun i x => x.tdiToError (i + 1))

/-- Every SPDM session closes and every IDE stream enters the Insecure state. -/
def State.closeSessions (s : State) : State :=
  let s := s.modSec (fun c => { c with sessions := [], ideKeys := [], ideUse := [] })
  { s with host := { s.host with cxlIde := false, fns := s.host.fns.map (fun e => (e.1, { e.2 with ideSecure := false })) } }

/-! ### The wipe (R364, R365) -/

/-- The microcode of the running bank is loaded (R357): the engine is enabled where it is accepted and the third mismatch has not
disabled it (R360). -/
def State.loadMicrocode (s : State) : State :=
  let ok := s.microcodeOk s.fw.bank
  let s := s.modSec (fun c => { c with microcodeBad := !ok, pkReady := ok && decide (c.mismatches < 3) })
  if ok then s else s.record cPkMicrocode { block := 10 }

/-- The security-complex wipe; a plain scrub runs step 3 only, which reloads the microcode and verifies it again. Step 3 zeroes the
engine's working memory, so an operation in it is abandoned (assumption log 26). WIPING reads 1 until the next tick. -/
def State.secWipe (s : State) (change : Bool) (samples : List Nat) : State :=
  let s := if change then s.closeSessions.allTdiError else s
  let s := s.modSec (fun c => { c with
    wiping := true, pkBuf := [], running := none, pkBusy := c.heldPk.isSome
    ownerKey := if change then none else c.ownerKey, users := if change then [] else c.users })
  let s := s.loadMicrocode
  if change then (s.startSource samples).instantiate false false true else s

/-- The wipe is complete: a host operation that waited is taken up. -/
def State.wipeEnd (s : State) : State :=
  if ¬ s.sec.wiping then s
  else
    let t := s.modSec (fun c => { c with wiping := false, heldPk := none })
    match s.sec.heldPk with
    | some w => (t.modSec (fun c => { c with pkBusy := false })).pkServe w.1 w.2
    | none => t

end Sys2Proof.Machine
end

