-- ==== Sys2Proof/Machine/Spdm.lean ====
section
/-! DEFINITION. The SPDM responder, IDE_KM and TDISP requests (R346 to R354; assumption log 27). Transport `m`: false MCTP,
true PCIe DOE. A session is named by its number among the four of its transport. -/

namespace Sys2Proof.Machine

/-- Send a response. -/
def State.respond (s : State) (kind : String) (code : Nat) (vals : List Nat) (data : List Byte) : State :=
  s.modSec (fun c => { c with out := c.out ++ [{ kind := kind, code := code, vals := vals, data := data }] })

/-- An SPDM error response. -/
def State.spdmError (s : State) (why : String) : State := s.respond ("ERROR " ++ why) 0 [] []

/-- A request that is answered Busy while a scrub sequence is under way (R354). -/
def State.unlessBusy (s : State) (f : State → State) : State := if s.scrubbing then s.spdmError "Busy" else f s

/-- A request that needs the public-key engine: with the engine disabled, its code is the answer (R357, R360). -/
def State.withEngine (s : State) (f : State → State) : State :=
  if s.sec.engineCode ≠ 0 then s.respond "ERROR" s.sec.engineCode [] [] else f s

/-- A request that takes random bytes from the security instance; a stopped instance answers DRBG_FAIL (R362, R363). -/
def State.withRandom (s : State) (n : Nat) (f : List Byte → State → State) : State :=
  let r := s.drbgRequest false n
  if r.2.sec.secOk then f r.1 r.2 else r.2.respond "ERROR" cDrbgFail [] []

/-- A P-384 signature by a private scalar over a string, r then s, with a nonce (R347). -/
def signBytes (key nonce : Nat) (m : List Byte) : List Byte :=
  let z := ecdsaSignWith p384 key (ofBytesBE (sha384 m)) (nonce % (p384.n - 1) + 1)
  toBytesBE 48 z.1 ++ toBytesBE 48 z.2

/-- Answer with the responder's nonce and a signature of the alias key over the transcript, of SPDM request code `req` (R347, R348):
made on the engine, which draws the nonces from the security instance. Where its two evaluations disagree the answer is PK_MISMATCH
(R360). -/
def State.signed (s : State) (m : SpdmIn) (req : Nat) (kind : String) (vals : List Nat) (data : List Byte) : State :=
  s.withEngine (fun s => s.withRandom 32 (fun nonce s => s.withRandom 48 (fun k s =>
    if m.mismatch then (s.engineMismatch.report cPkMismatch { block := 10 }).respond "ERROR" cPkMismatch [] []
    else
      let d := data ++ nonce
      s.respond kind 0 vals (d ++ signBytes s.sec.aliasKey (Config.scalarOf k) (Config.transcript req vals d)))))

/-! ### Measurements (R346 to R348) -/

/-- The identity record (Table 13-1). -/
def State.identityRecord (s : State) : List Byte :=
  let die := fun (d : Nat) =>
    let x := smGet 0 s.pins.diePos d
    toBytes 8 (smGet 0 s.pins.lots d) ++ toBytes 1 (smGet 0 s.pins.wafers d) ++ toBytes 3 x
      ++ toBytes 4 (if d = 2 then 0xA1 else 0xB0)
  toBytes 8 s.pins.serial ++ toBytes 1 s.pins.order ++ toBytes 1 s.pins.build ++ toBytes 6 0 ++ die 0 ++ die 1 ++ die 2

/-- MEM_CAPACITY.UNITS. -/
def State.capacityUnits (s : State) : Nat := ((upTo 12).map s.visibleUnits).sum

/-- KEY_ID of the owner image key, zero where none is installed. -/
def SecState.ownerKeyId (c : SecState) : List Byte :=
  match c.ownerKey with
  | some k => keyIdOf k.1 k.2
  | none => List.replicate 16 0#8

/-- Derive the device identity key and the alias key from the device secret (R347). -/
def State.deriveKeys (s : State) : State :=
  let secret := toBytesBE 32 s.pins.deviceSecret
  s.modSec (fun c => { c with
    identityKey := deriveScalar secret (Config.kdfInput 1 s.identityRecord)
    aliasKey := deriveScalar secret (Config.kdfInput 2 (s.identityRecord ++ s.fw.digests)) })

/-- The content of measurement block i (Table 13-3). -/
def State.measured (s : State) (i : Nat) : List Byte :=
  if i = 1 ∨ i = 2 ∨ i = 3 then s.fw.measured i
  else if i = 4 then toBytes 48 s.img.resultsDigest ++ toBytes 1 s.img.loadedFrom ++ (upTo 8).flatMap (fun p => toBytes 1 (s.part p).state)
  else if i = 5 then s.sec.ownerKeyId
  else if i = 6 then s.identityRecord
  else if i = 7 then toBytes 4 s.capacityUnits ++ toBytes 8 s.sec.epoch
  else if i = 8 then toBytes 1 Config.debugFuse ++ toBytes 4 s.fw.fwRollback ++ toBytes 4 s.fw.microRollback ++ toBytes 1 (b2n s.owner.pending)
  else toBytes 8 s.fw.version ++ toBytes 1 s.fw.rlMax

/-- Measurement block i in the DMTF measurement format: index, specification 1, size; value type with bit 7 set for a raw bit stream,
value size, value (R348; assumption log 27). -/
def State.measurement (s : State) (i : Nat) : List Byte :=
  let v := s.measured i
  toBytes 1 i ++ toBytes 1 1 ++ toBytes 2 (3 + v.length) ++ toBytes 1 (Config.measurementType i % 128 + (if i ≤ 3 then 0 else 128))
    ++ toBytes 2 v.length ++ v

/-! ### Requests without a session (R350) -/

/-- GET_VERSION: 1.2 and 1.3. -/
def execGetVersion (_m : Bool) (s : State) : Out :=
  guarded true ((s.modSec (fun c => { c with spdmVersion := 0 })).respond "VERSION" 0 [0x12, 0x13] [])

/-- GET_CAPABILITIES (Table 13-4): CERT, CHAL, MEAS with signature, KEY_EX, ENCRYPT, MAC, HBEAT, KEY_UPD, CHUNK; then PSK and
mutual authentication. -/
def execGetCapabilities (_m : Bool) (s : State) : Out :=
  guarded true (s.respond "CAPABILITIES" 0 [1, 1, 1, 1, 1, 1, 1, 1, 1, 0, 0] [])

/-- NEGOTIATE_ALGORITHMS: the highest version the requester offers among 1.2 and 1.3; then which of SHA-384, ECDSA P-384 and
AES-256-GCM are selected, and the key exchange, 2 secp384r1, 1 secp256r1; 0 where the requester does not offer it (Table 13-4). -/
def execNegotiateAlgorithms (_m : Bool) (o : AlgOffer) (s : State) : Out :=
  guarded (decide (o.version < 256)) <|
    if o.version < 0x12 then s.spdmError "VersionMismatch"
    else
      let v := if o.version = 0x12 then 0x12 else 0x13
      (s.modSec (fun c => { c with spdmVersion := v })).respond "ALGORITHMS" 0
        [v, b2n o.sha384, b2n o.ecdsa, b2n o.aesGcm, if o.p384 then 2 else b2n o.p256] []

/-- GET_CERTIFICATE: slot 0 only (R347). -/
def execGetCertificate (_m : Bool) (slot offset length : Nat) (s : State) : Out :=
  guarded (decide (slot < 256) && decide (offset < 2 ^ 16) && decide (length < 2 ^ 16)) <|
    s.unlessBusy (fun s =>
      if slot ≠ 0 then s.spdmError "InvalidRequest"
      else s.respond "CERTIFICATE" 0 [offset, length] (((Config.certificateChain s.sec.identityKey s.sec.aliasKey s.fw.digests).drop offset).take length))

/-- CHALLENGE: signed with the alias key. -/
def execChallenge (m : SpdmIn) (slot nonce : Nat) (s : State) : Out :=
  guarded (decide (slot < 256) && decide (nonce < 2 ^ 256)) <|
    s.unlessBusy (fun s =>
      if slot ≠ 0 then s.spdmError "InvalidRequest" else s.signed m 0x83 "CHALLENGE_AUTH" [nonce] [])

/-- GET_MEASUREMENTS: one block, or all of them (0xFF), with the nonce and the signature. Index 0 asks for their number. -/
def execGetMeasurements (m : SpdmIn) (index nonce : Nat) (s : State) : Out :=
  guarded (decide (index < 256) && decide (nonce < 2 ^ 256)) <|
    if 9 < index ∧ index ≠ 255 then s.spdmError "InvalidRequest"
    else
      let blocks := if index = 255 then (upTo 9).flatMap (fun i => s.measurement (i + 1))
        else if index = 0 then [] else s.measurement index
      s.signed m 0xE0 "MEASUREMENTS" [9, index, nonce] blocks

/-! ### Sessions (R350) -/

/-- The session of a transport with a number. -/
def SecState.session (c : SecState) (m : Bool) (sid : Nat) : Option Session := c.sessions.find? (fun x => x.doe == m && x.sid == sid)

/-- Change a session. -/
def SecState.modSession (c : SecState) (m : Bool) (sid : Nat) (f : Session → Session) : SecState :=
  { c with sessions := c.sessions.map (fun x => if x.doe = m ∧ x.sid = sid then f x else x) }

/-- Close a session: its secret's slot is free again. -/
def State.closeSession (s : State) (m : Bool) (sid : Nat) : State :=
  s.modSec (fun c => { c with sessions := c.sessions.filter (fun x => !(x.doe == m && x.sid == sid)) })

/-- Handle a request of an open session. -/
def State.inSession (s : State) (m : Bool) (sid : Nat) (f : Session → State) : State :=
  match s.sec.session m sid with
  | some x => if x.established then f x else s.spdmError "UnexpectedRequest"
  | none => s.spdmError "InvalidSession"

/-- KEY_EXCHANGE: ECDHE on secp256r1 (1) or secp384r1 (2); at most four sessions a transport. -/
def execKeyExchange (m : SpdmIn) (curve : Nat) (s : State) : Out :=
  guarded (decide (curve < 256)) <|
    s.unlessBusy (fun s =>
      if curve ≠ 1 ∧ curve ≠ 2 then s.spdmError "InvalidRequest"
      else s.withEngine (fun s =>
        match (upTo 4).find? (fun i => (s.sec.session m.doe i).isNone) with
        | none => s.spdmError "SessionLimitExceeded"
        | some i =>
          s.withRandom 48 (fun k s =>
            if m.mismatch then (s.engineMismatch.report cPkMismatch { block := 10 }).respond "ERROR" cPkMismatch [] []
            else
              let t := s.modSec (fun c => { c with
                sessions := c.sessions ++ [{ sid := i, doe := m.doe, lastBeat := s.now, secret := Config.scalarOf k }] })
              t.signed m 0xE4 "KEY_EXCHANGE_RSP" [i] [])))

/-- FINISH: the session begun by KEY_EXCHANGE is established. -/
def execFinish (m : Bool) (sid : Nat) (s : State) : Out :=
  guarded (decide (sid < 4)) <|
    s.unlessBusy (fun s =>
      match s.sec.session m sid with
      | none => s.spdmError "InvalidSession"
      | some x =>
        if x.established then s.spdmError "UnexpectedRequest"
        else
          (s.modSec (fun c => c.modSession m sid (fun x => { x with established := true, lastBeat := s.now }))).respond
            "FINISH_RSP" 0 [sid] [])

/-- END_SESSION. -/
def execEndSession (m : Bool) (sid : Nat) (s : State) : Out :=
  guarded (decide (sid < 4)) <|
    s.unlessBusy (fun s => s.inSession m sid (fun _ => (s.closeSession m sid).respond "END_SESSION_ACK" 0 [sid] []))

/-- HEARTBEAT. -/
def execHeartbeat (m : Bool) (sid : Nat) (s : State) : Out :=
  guarded (decide (sid < 4)) <|
    s.unlessBusy (fun s => s.inSession m sid (fun _ =>
      (s.modSec (fun c => c.modSession m sid (fun x => { x with lastBeat := s.now }))).respond "HEARTBEAT_ACK" 0 [sid] []))

/-- HEARTBEAT_TIMEOUT: three periods of 10 s without a heartbeat close the session. -/
def execHeartbeatTimeout (m : Bool) (sid : Nat) (s : State) : Out :=
  guarded (decide (sid < 4)) <|
    match s.sec.session m sid with
    | some x => if x.established ∧ 3000000000 ≤ s.now - x.lastBeat then s.closeSession m sid else s
    | none => s

/-- KEY_UPDATE: fresh session keys. -/
def execKeyUpdate (m : Bool) (sid : Nat) (s : State) : Out :=
  guarded (decide (sid < 4)) <|
    s.unlessBusy (fun s => s.inSession m sid (fun _ => s.withRandom 48 (fun k s =>
      (s.modSec (fun c => c.modSession m sid (fun x => { x with secret := Config.scalarOf k }))).respond "KEY_UPDATE_ACK" 0 [sid] [])))

/-! ### IDE and TDISP (R351 to R353) -/

/-- The stream of PF0 or a VF, or the CXL IDE stream, becomes Secure or leaves that state; a running TDI then is in ERROR (R353). -/
def State.setStream (s : State) (fn : Nat) (cxl secure : Bool) : State :=
  if cxl then { s with host := { s.host with cxlIde := secure } }
  else
    let s := s.modFn fn (fun x => { x with ideSecure := secure })
    if secure ∨ fn = 0 then s else s.tdiError fn

/-- IDE_KM, inside a session on DOE: the key of a key set of a stream is programmed, a programmed set is the one in use from then on,
which is how a key is refreshed, or the stream stops (R351). CXL IDE exists in CXL 3.1 mode only. -/
def execIdeKm (sid fn : Nat) (k : IdeKeyIn) (s : State) : Out :=
  guarded (decide (sid < 4) && decide (fn < 9) && decide (k.key < 2 ^ 256)) <|
    s.unlessBusy (fun s => s.inSession true sid (fun _ =>
      let i := 2 * (if k.cxl then 9 else fn) + b2n k.kset
      let ack := fun (s : State) => s.respond "IDE_KM_ACK" 0 [fn] []
      if if k.cxl then s.host.mode ≠ 2 else fn ≠ 0 ∧ ¬ s.vfOn fn then s.spdmError "InvalidRequest"
      else
        match k.op with
        | .program => s.withRandom 48 (fun _ s => ack (s.modSec (fun c => { c with ideKeys := smSet 0 c.ideKeys i (k.key + 1) })))
        | .go =>
          if smGet 0 s.sec.ideKeys i = 0 then s.spdmError "InvalidRequest"
          else ack ((s.modSec (fun c => { c with ideUse := smSet 0 c.ideUse (i / 2) (1 + b2n k.kset) })).setStream fn k.cxl true)
        | .stop =>
          ack ((s.modSec (fun c => { c with ideKeys := smSet 0 c.ideKeys i 0, ideUse := smSet 0 c.ideUse (i / 2) 0 })).setStream fn k.cxl false)))

/-- A TDISP request inside a session, for an enabled VF, in PCIe mode. -/
def State.tdisp (s : State) (sid n : Nat) (f : State → State) : State :=
  s.unlessBusy (fun s => s.inSession true sid (fun _ => if s.host.mode ≠ 0 ∨ ¬ s.vfOn n then s.respond "TDISP_ERROR" 0 [n] [] else f s))

/-- LOCK_INTERFACE_REQUEST (R352). -/
def execLockInterfaceRequest (sid n : Nat) (s : State) : Out :=
  guarded (decide (sid < 4) && decide (n < 9)) <|
    s.tdisp sid n (fun s =>
      if (s.fn n).tdi = 0 ∧ (s.fn n).ideSecure ∧ s.isUp (n - 1) then
        (s.modFn n (fun x => { x with tdi := 1 })).respond "LOCK_INTERFACE_RESPONSE" 0 [n] []
      else s.respond "TDISP_ERROR" 0 [n] [])

/-- START_INTERFACE_REQUEST (R352). -/
def execStartInterfaceRequest (sid n : Nat) (s : State) : Out :=
  guarded (decide (sid < 4) && decide (n < 9)) <|
    s.tdisp sid n (fun s =>
      if (s.fn n).tdi = 1 then (s.modFn n (fun x => { x with tdi := 2 })).respond "START_INTERFACE_RESPONSE" 0 [n] []
      else s.respond "TDISP_ERROR" 0 [n] [])

/-- STOP_INTERFACE_REQUEST (Table 13-5): the function page is zeroed and the partition's kernel stops with STOPPED. -/
def execStopInterfaceRequest (sid n : Nat) (s : State) : Out :=
  guarded (decide (sid < 4) && decide (n < 9)) <|
    s.tdisp sid n (fun s =>
      let t := if (s.fn n).tdi = 0 then s
        else
          let s := if s.isUp (n - 1) then s.stopChecked (s.part (n - 1)).seq else s
          ((s.resetPage n).modFn n (fun x => { x with tdi := 0 })).ltr
      t.respond "STOP_INTERFACE_RESPONSE" 0 [n] [])

end Sys2Proof.Machine
end

