-- ==== Sys2Proof/Machine/Translate.lean ====
section
/-! DEFINITION. Glahus packages and their translation (R120 to R122, R132 to R138; assumption log 29). -/

namespace Sys2Proof.Machine

/-- Translation rejects a SEND or RECV (R133, R236). -/
def State.messageBad (s : State) (p o : Nat) (g : GInstr) : Bool :=
  decide (15 < g.f0) ||
    if o = 0x0500 then unusedBad { f0 := true, ry := true } g || s.byteRegionBad p g.ry 128
    else unusedBad { f0 := true, rx := true } g || s.byteRegionBad p g.rx 128 || s.zeroStrideDst p g.rx

/-- Translation rejects an instruction of some opcode (R133, Table 5-4); a reserved opcode always. -/
def State.instrBad (s : State) (p o : Nat) (g : GInstr) : Bool :=
  if o = 0x0000 then nopBad g
  else if o = 0x0001 then waittBad g
  else if o = 0x0002 then emittBad g
  else if o = 0x0100 then s.ldctBad p g
  else if o = 0x0101 then s.stctBad p g
  else if o = 0x0102 then s.bindBad p g
  else if o = 0x0103 then s.ldlBad p g
  else if o = 0x0104 then s.stlBad p g
  else if o = 0x0105 then s.ldtBad p g
  else if o = 0x0106 then s.sttBad p g
  else if o = 0x0200 ∨ o = 0x0201 ∨ o = 0x0203 then s.limbInvalid p g limbUses3 1 [g.ry, g.imm64]
  else if o = 0x0202 ∨ o = 0x0206 ∨ o = 0x0207 then s.limbInvalid p g limbUses 1 [g.ry]
  else if o = 0x0204 then s.limbInvalid p g limbUses3 1 [g.ry, g.imm64, g.rx]
  else if o = 0x0205 then g.param == 0 || s.limbInvalid p g { limbUses with param := true } 1 [g.ry]
  else if o = 0x0208 then autOperandBad g g.imm64 || s.limbInvalid p g { limbUses3 with conj := true } 3 [g.ry]
  else if 0x0300 ≤ o ∧ o ≤ 0x0314 then s.ctInvalid p o g
  else if o = 0x0400 then s.mmulBad p g
  else if o = 0x0401 then s.vpassInvalid p g
  else if o = 0x0402 then rseedBad g
  else if o = 0x0500 ∨ o = 0x0501 then s.messageBad p o g
  else if o = 0x0502 then s.allredBad p g
  else if o = 0x0503 then s.bcastBad p g
  else if o = 0x0504 then s.gatherBad p g
  else true

/-- Index of the first instruction translation rejects in a kernel, counted from i; bindings follow program order (R126). -/
def State.firstInvalid (s : State) (p : Nat) : Nat → List (BitVec 256) → Option Nat
  | _, [] => none
  | i, w :: r =>
    let v := w.toNat
    let g := gInstrOf v
    let o := bits v 15 0
    if bits v 23 18 ≠ 0 ∨ s.instrBad p o g = true then some i
    else (if o = 0x0100 ∨ o = 0x0102 then s.bindEntry p g.f0 g.rx else s).firstInvalid p (i + 1) r

/-! ### Packages (R120, R121) -/

/-- A kernel of a variant: offset and count of its instructions, its defaults. -/
structure KernelRec where
  off : Nat := 0
  count : Nat := 0
  defaults : List Nat := []
  bad : Bool := false

/-- A variant's directory entry and kernel directory. -/
structure VariantRec where
  need : Nat := 0
  minTiles : Nat := 0
  dir : Nat := 0
  reserved : Nat := 0
  kernels : List KernelRec := []

/-- Bytes of the package header. -/
abbrev pkgHeader : Nat := 128
/-- The longest package. -/
abbrev pkgMax : Nat := 0x1000000

/-- TOTAL_BYTES. -/
def pkgTotal (b : List Byte) : Nat := leAt b 16 8
/-- The package identifier (R120). -/
def pkgId (b : List Byte) : Nat := leAt b 24 8
/-- RESULTS_LEVEL. -/
def pkgLevel (b : List Byte) : Nat := leAt b 5 1
/-- VARIANTS. -/
def pkgVariants (b : List Byte) : Nat := leAt b 6 1
/-- KERNELS. -/
def pkgKernels (b : List Byte) : Nat := leAt b 7 1

/-- ASCII padded with zero bytes. -/
def nameOk (l : List Byte) : Bool :=
  l.all (fun c => decide (c.toNat < 128)) && (l.dropWhile (· != 0#8)).all (· == 0#8)

/-- A kernel directory record. -/
def kernelRec (b : List Byte) (at_ : Nat) : KernelRec :=
  let r := (b.drop at_).take 128
  { off := leAt r 0 8, count := leAt r 8 2, defaults := (upTo 12).map (fun i => leAt r (32 + 8 * i) 8)
    bad := leAt r 10 6 != 0 || !nameOk ((r.drop 16).take 16) }

/-- The variants of a package. -/
def variantsOf (b : List Byte) : List VariantRec :=
  (upTo (pkgVariants b)).map (fun v =>
    let o := 128 + 16 * v
    let dir := leAt b (o + 8) 8
    { need := leAt b o 4, minTiles := leAt b (o + 4) 1, dir := dir, reserved := leAt b (o + 5) 3
      kernels := (upTo (pkgKernels b)).map (fun k => kernelRec b (dir + 128 * k)) })

/-- Every pair of a list passes a test, the earlier element first. -/
def allPairs {α : Type} (f : α → α → Bool) : List α → Bool
  | [] => true
  | x :: r => r.all (f x) && allPairs f r

/-- The parts of a package lie as R121 asks. -/
def partsOk (b : List Byte) (vs : List VariantRec) : Bool :=
  let first := 128 + 16 * pkgVariants b
  let total := pkgTotal b
  let dirs := vs.map (fun v => (v.dir, 128 * pkgKernels b))
  let rngs := (vs.flatMap (fun v => v.kernels.map (fun k => (k.off, 32 * k.count)))).filter (fun r => r.2 != 0)
  let apart := fun (x y : Nat × Nat) => !rangesMeet x.1 x.2 y.1 y.2
  vs.all (fun v => [8, 16, 32, 64].contains v.minTiles && v.reserved == 0 && decide (first ≤ v.dir)
      && decide (v.dir + 128 * pkgKernels b ≤ total)
      && v.kernels.all (fun k => !k.bad && decide (k.count ≤ 2048) && k.off % 32 == 0 && decide (first ≤ k.off)
        && decide (k.off + 32 * k.count ≤ total)))
    && allPairs apart dirs && dirs.all (fun d => rngs.all (apart d)) && allPairs (fun x y => x == y || apart x y) rngs

/-- Step 1 of Table 5-9. -/
def formatOk (b : List Byte) : Bool :=
  leAt b 0 4 == 0x50475A4B && leAt b 4 1 == 1 && decide (1 ≤ pkgVariants b) && decide (pkgVariants b ≤ 4)
    && decide (1 ≤ pkgKernels b) && decide (pkgKernels b ≤ 64) && decide (pkgTotal b ≤ pkgMax)
    && decide (128 + 16 * pkgVariants b ≤ pkgTotal b) && decide (pkgTotal b ≤ b.length)
    && ((b.drop 72).take 56).all (· == 0#8)
    && (b.drop 24).take 48 == sha384 ((b.take (pkgTotal b)).drop 128)
    && partsOk b (variantsOf b)

/-- FEATURES bits of GL_FEATURES (Table 5-7). -/
abbrev glFeatures : Nat := 0x7FF

/-- The variant step 4 chooses for a partition of some tiles: the largest SPAD_NEED_KIB, then the lowest index. -/
def chooseVariant (vs : List VariantRec) (tiles : Nat) : Option Nat :=
  let fit := (upTo vs.length).filter (fun i =>
    let v := vs.getD i {}
    decide (v.minTiles ≤ tiles) && decide (v.need ≤ 5120 * tiles))
  let best := fit.foldl (fun m i => max m (vs.getD i {}).need) 0
  fit.find? (fun i => (vs.getD i {}).need == best)

/-- The instructions of a kernel. -/
def instrsOf (b : List Byte) (k : KernelRec) : List (BitVec 256) :=
  (upTo k.count).map (fun i => BitVec.ofNat 256 (leAt b (k.off + 32 * i) 32))

/-- Step 5: the first invalid instruction, as the RESULT of the load (Table 12-12): variant, kernel, instruction. -/
def State.invalidAt (s : State) (p v : Nat) : Nat → List (List (BitVec 256)) → Option Nat
  | _, [] => none
  | k, l :: r =>
    match (s.modPart p (fun x => { x with binds := [] })).firstInvalid p 0 l with
    | some i => some (pack [(0, v), (8, k), (16, i)])
    | none => s.invalidAt p v (k + 1) r

/-! ### Emission and fit (R134, R135) -/

/-- The operation-table entry of instruction i of a kernel (Table 5-5; R129, R130). -/
def State.opEntry (s : State) (p i : Nat) (w : BitVec 256) : BitVec 256 :=
  let v := w.toNat
  let g := gInstrOf v
  let o := bits v 15 0
  let ct := o / 256 == 3
  let d := s.regionRows p (s.dstRegion p o g)
  let k := s.regionRows p (s.workRegion p o g)
  BitVec.ofNat 256 (pack [(0, o), (16, b2n g.canon), (24, if hasHeaderDst o then g.f0 else 0)
    , (32, if ct then g.f1 else if o = 0x101 then g.f0 else 0), (40, if ct ∧ isBinary o then g.f2 else 0), (48, g.pset)
    , (56, g.imm8), (64, i), (128, d.1), (144, d.2), (160, k.1), (176, k.2)])

/-- Operation-table entries from instruction i on; bindings follow program order (R126). -/
def State.opEntriesFrom (p : Nat) : Nat → State → List (BitVec 256) → List (BitVec 256)
  | _, _, [] => []
  | i, s, w :: r =>
    let o := bits w.toNat 15 0
    let g := gInstrOf w.toNat
    let s := if o = 0x0100 ∨ o = 0x0102 then s.bindEntry p g.f0 g.rx else s
    s.opEntry p i w :: State.opEntriesFrom p (i + 1) s r

/-- Operation-table entries of a kernel with its parameters' defaults; an empty kernel has one NOP entry (R122). -/
def State.opEntries (s : State) (p : Nat) (l : List (BitVec 256)) (defaults : List Nat) : List (BitVec 256) :=
  if l.isEmpty then [0]
  else
    let s := s.modSeq (s.part p).seq (fun x => { x with
      params := (upTo 12).foldl (fun m k => smSet 0 m (k + 4) (BitVec.ofNat 64 (defaults.getD k 0))) x.params })
    State.opEntriesFrom p 0 (s.modPart p (fun x => { x with binds := [] })) l

/-! ### AGE of translated words (R98) -/

/-- The source generators of a control word, with the rows each reads in a beat. -/
def wordSrcs (tiles : Nat) (w : BitVec 512) : List (Nat × Nat) :=
  if wKind w = 0 then []
  else (ringSrcs (wRing w)).map (fun g => (g, 18))
    ++ (if wMode w = 0 then [] else [(gMatA, matRows (wMode w) (wMat w 15 8)), (gMatB, matRows (wMode w) (wMat w 23 16))])
    ++ (if wVop w = 0 then [] else (src2Gen (wVec w 7 6)).map (fun g => (g, vecRows w)))
    ++ (if wExch w = 0 then [] else [(gExchS, exchRows tiles w)])

/-- The destination generators of a control word, with the rows each writes in a beat. -/
def wordDsts (tiles : Nat) (w : BitVec 512) : List (Nat × Nat) :=
  if wKind w = 0 then []
  else (ringDsts (wRing w)).map (fun g => (g, 18))
    ++ (if drainsToSpad w then [(gMatD, if wMode w = 1 then 36 else 128)] else [])
    ++ (if wVop w = 0 ∨ wVop w = 20 then [] else [(gVecD, vopBits (wVop w) / 2)])
    ++ (if wExch w = 0 then [] else [(gExchD, exchRows tiles w)])

/-- The base register of a generator and the rows it covers over a word's beats, counted from that base. -/
def genCover (w : BitVec 512) (z : Nat × Nat) : Nat × Int × Int :=
  let g := cwGen w z.1
  let a := genRow {} g 0
  let b := genRow {} g (wRepeat w)
  (bits g 27 24, min a b, max a b + z.2)

/-- A translated word with its first beat's schedule cycle and the number of REPEAT_SRC words before it. -/
structure PlacedWord where
  cycle : Nat := 0
  part : Nat := 0
  word : BitVec 512 := 0

/-- A word y writes rows that generator z of a word w reads. -/
def feeds (tiles : Nat) (y w : BitVec 512) (z : Nat × Nat) : Bool :=
  let c := genCover w z
  (wordDsts tiles y).any (fun d => let e := genCover y d; e.1 == c.1 && spansMeet e.2 c.2)

/-- The AGE of a source generator (R98): the distance modulo 16 to the word that last wrote its rows, among the earlier words of
the kernel, latest first; 0 where that lies over 256 cycles back, is a multiple of 16, or has a REPEAT_SRC word from the
producer on. -/
def ageOf (tiles : Nat) (before : List PlacedWord) (x : PlacedWord) (z : Nat × Nat) : Nat :=
  match before.find? (fun y => feeds tiles y.word x.word z) with
  | some y => if y.part = x.part ∧ x.cycle - y.cycle ≤ 256 then (x.cycle - y.cycle) % 16 else 0
  | none => 0

/-- Set the AGE of a generator. -/
def setAge (w : BitVec 512) (g age : Nat) : BitVec 512 :=
  (w &&& ~~~(15#512 <<< (g + 28))) ||| (BitVec.ofNat 512 (age % 16) <<< (g + 28))

/-- Words with the AGE of every source set as R98 has it. -/
def agedWords (tiles : Nat) : List PlacedWord → Nat → Nat → List (BitVec 512) → List (BitVec 512)
  | _, _, _, [] => []
  | before, c, n, w :: r =>
    let x : PlacedWord := { cycle := c, part := n, word := w }
    (wordSrcs tiles w).foldl (fun v z => setAge v z.1 (ageOf tiles before x z)) w
      :: agedWords tiles (x :: before) (c + wRepeat w + 1) (if wRepeatSrc w = 0 then n else n + 1) r

/-- Control words of a kernel, their AGE fields as R98 has them after the boundary cycle; an empty kernel is one NOP word. -/
def kernelWords (rel level tiles opBase : Nat) (l : List (BitVec 256)) : List (BitVec 512) :=
  let w := if l.isEmpty then [] else agedWords tiles [] 1 0 (Config.translate rel level tiles opBase l)
  if w.isEmpty then [0] else w

/-- First fit of n items among used ranges below a limit. -/
def firstFit (used : List (Nat × Nat)) (n limit : Nat) : Option Nat :=
  ((0 :: used.map (fun r => r.1 + r.2)).filter (fun a =>
    decide (a + n ≤ limit) && used.all (fun r => !rangesMeet a n r.1 r.2))).foldl
      (fun o a => match o with
        | some b => some (min a b)
        | none => some a) none

/-- What a sequencer's packages and running kernel occupy: words, entries, kernel-table entries. -/
structure Occupied where
  words : List (Nat × Nat) := []
  ops : List (Nat × Nat) := []
  ktab : List Nat := []

/-- Add a kernel. -/
def Occupied.add (o : Occupied) (k : PkgKernel) : Occupied :=
  { words := (k.base, k.words) :: o.words, ops := (k.opBase, k.ops) :: o.ops, ktab := k.ktab :: o.ktab }

/-- Occupied ranges of partition p's sequencer. -/
def State.occupied (s : State) (p : Nat) : Occupied :=
  let o := (s.part p).pkgs.foldl (fun (o : Occupied) g => g.kernels.foldl Occupied.add o) {}
  match (s.pseq p).kern with
  | none => o
  | some k =>
    let e := (s.pseq p).kt k.kernel
    o.add { ktab := k.kernel, base := ktBase e, words := ktLength e, opBase := ktOpBase e, ops := ktOpCount e }

/-- Emitted kernels: where each lies, its words and entries. -/
structure Emitted where
  kernel : PkgKernel := {}
  words : List (BitVec 512) := []
  entries : List (BitVec 256) := []

/-- Step 6: place the kernels one by one; none where they do not fit. -/
def emitKernels (s : State) (p rel level tiles : Nat) : Occupied → List (List (BitVec 256) × List Nat) → Option (List Emitted)
  | _, [] => some []
  | o, (l, d) :: r =>
    let es := s.opEntries p l d
    match firstFit o.ops es.length 2048, (upTo 64).find? (fun i => !o.ktab.contains i) with
    | some ob, some kt =>
      let ws := kernelWords rel level tiles ob l
      match firstFit o.words ws.length 32768 with
      | some wb =>
        let k : PkgKernel :=
          { ktab := kt, base := wb, words := ws.length, opBase := ob, ops := es.length, instrs := l, defaults := d }
        (emitKernels s p rel level tiles (o.add k) r).map (fun x => { kernel := k, words := ws, entries := es } :: x)
      | none => none
    | _, _ => none

/-- Message operations of a kernel, at most 256 (R238). -/
def messageOps (l : List (BitVec 256)) : Nat := (l.filter (fun w => bits w.toNat 15 0 == 0x500 || bits w.toNat 15 0 == 0x501)).length

/-! ### Loading (step 7) -/

/-- Write items at consecutive keys. -/
def smPutAll {α : Type} [DecidableEq α] (d : α) (m : SMap α) : Nat → List α → SMap α
  | _, [] => m
  | k, v :: r => smPutAll d (smSet d m k v) (k + 1) r

/-- Load a placed kernel: its words, entries, and kernel-table entry; entries it overlaps lose VALID (R106). -/
def Seq.put (x : Seq) (e : Emitted) : Seq :=
  let k := e.kernel
  let kt := (upTo 64).foldl (fun m i =>
    let v := smGet 0 m i
    if ktValid v ∧ (ktMeets v false k.base k.words ∨ ktMeets v true k.opBase k.ops) then smSet 0 m i (v &&& ~~~(1#64 <<< 31)) else m) x.ktab
  { x with
    cmem := smPutAll 0 x.cmem k.base e.words
    cmemBad := (upTo e.words.length).foldl (fun m i => smSet false m (k.base + i) false) x.cmemBad
    optab := smPutAll 0 x.optab k.opBase e.entries
    ktab := smSet 0 kt k.ktab k.value }

/-- The load registers after a package load: the firmware's own values, so free (log 29). -/
def Seq.stirLoad (x : Seq) (d : Nat) : Seq :=
  { x with loadSrc := d % 2 ^ 58 * 64, ldDest := d / 2 ^ 58 % 2 ^ 15, ldCount := d / 2 ^ 73 % 2 ^ 16, ldTable := bit d 89 }

/-- Steps 2 to 7 of Table 5-9 for a well-formed package: the code, and RESULT. -/
def State.translatePackage (s : State) (p : Nat) (b : List Byte) : State × Nat × Nat :=
  let x := s.part p
  let vs := variantsOf b
  let level := pkgLevel b
  let rel := s.fw.version
  if level = 0 ∨ s.fw.rlMax < level ∨ (x.rlActive ≠ 0 ∧ level ≠ x.rlActive) then (s, cPackageResultsLevel, 0)
  else if leAt b 8 8 &&& glFeatures ≠ leAt b 8 8 then (s, cPackageFeature, 0)
  else
    match chooseVariant vs x.tiles with
    | none => (s, cTranslateSpace, 0)
    | some v =>
      let ks := (vs.getD v {}).kernels
      let src := ks.map (instrsOf b)
      match s.invalidAt p v 0 src with
      | some r => (s, cGlahusInvalid, r)
      | none =>
        if src.any (fun l => decide (256 < messageOps l)) then (s, cTranslateLimit, 0)
        else
          match emitKernels s p rel level x.tiles (s.occupied p) (src.zip (ks.map (fun k => k.defaults))) with
          | none => (s, cTranslateLimit, 0)
          | some es =>
            if es.any (fun e => e.words.any (wordBad x.tiles)) then (s, cWordInvalid, 0)
            else
              let d := s.draw
              let s := d.2.modSeq x.seq (fun z => (es.foldl Seq.put z).stirLoad d.1)
              let g : Package := { id := pkgId b, level := level, variant := v, kernels := es.map (fun e => e.kernel) }
              let s := s.modPart p (fun z => { z with pkgs := z.pkgs ++ [g], rlActive := level })
              (if s.fab.cfg.jobPart = p then s.joinJob else s, 0, g.id)

/-- Load a package from device memory (R132, R136): the code, and RESULT. -/
def State.loadPackage (s : State) (p a : Nat) : State × Nat × Nat :=
  let h := s.load a pkgHeader
  let c := s.rangeCode a pkgHeader
  let total := pkgTotal h
  let n := if pkgHeader ≤ total ∧ total ≤ pkgMax then total else pkgHeader
  if c ≠ 0 then ((s.memFault p hostBlock (linesOf a pkgHeader) c).touch a pkgHeader, c, 0)
  else if ¬ s.inStacks p a n then (s, cHostBounds, 0)
  else if s.rangeCode a n ≠ 0 then ((s.memFault p hostBlock (linesOf a n) (s.rangeCode a n)).touch a n, s.rangeCode a n, 0)
  else
    let b := s.load a n
    let s := s.touch a n
    if ¬ formatOk b then (s, cPackageFormat, 0)
    else if (s.part p).pkgs.any (fun g => g.id == pkgId b) then (s, 0, pkgId b)
    else s.translatePackage p b

/-- Unload a package (R136): PACKAGE_BUSY while one of its kernels runs; the last one takes RL_ACTIVE to 0 and the partition
out of its job (R318). -/
def State.unloadPackage (s : State) (p : Nat) (g : Package) : State × Nat :=
  let busy := match (s.pseq p).kern with
    | some k => g.kernels.any (fun e => e.ktab == k.kernel)
    | none => false
  if busy then (s, cPackageBusy)
  else
    let s := (s.dropPackage p g).modPart p (fun x => { x with pkgs := x.pkgs.filter (fun e => e.id != g.id) })
    if (s.part p).pkgs.isEmpty then
      let s := s.modPart p (fun x => { x with rlActive := 0 })
      (if s.fab.cfg.jobPart = p then s.leaveJob else s, 0)
    else (s, 0)

end Sys2Proof.Machine
end

