-- ==== Sys2Proof/Machine/Context.lean ====
section
/-! DEFINITION. Context images (R140 to R143; assumption log 30). -/

namespace Sys2Proof.Machine

/-- The sequencer is idle, the token and receive queues are empty and no stream descriptor is outstanding (R141). -/
def State.contextIdle (s : State) (p : Nat) : Bool :=
  (s.pseq p).state == 0
    && (s.partTiles p).all (fun t =>
      let x := s.tile t
      x.tokq.all (fun e => e.2.isEmpty) && x.tokHeld.all (fun e => e.2.isEmpty) && x.slots.all (fun e => decide (e.2.state < 2)))
    && (s.msg p).queues.all (fun e => e.2.ring.isEmpty && e.2.spill.isEmpty && e.2.waiting.isEmpty)

/-- A region saved or restored (R140): kind 0 limb, 1 byte; the operand with COUNT_SRC 0; its block size. -/
structure SavedRegion where
  kind : Nat := 0
  bad : Bool := false
  logN : Nat := 0
  operand : Nat := 0
  offset : Nat := 0
  block : Nat := 0
  /-- the record's COUNT and reserved byte -/
  count : Nat := 0
  reserved : Nat := 0
  deriving DecidableEq, Repr

/-- COUNT of an operand with COUNT_SRC 0. -/
def opCount (v : Nat) : Nat := bits v 59 48

/-- Logical address of block c of a saved region. -/
def SavedRegion.at_ (r : SavedRegion) (c : Nat) : Int :=
  (bits r.operand 31 0 : Int) + c * toSigned 16 (bits r.operand 47 32) * (if r.kind = 0 then 2048 else 128)

/-- Data bytes of a saved region. -/
def SavedRegion.bytes (r : SavedRegion) : Nat := opCount r.operand * r.block

/-- Round up to a multiple of 2,048. -/
def up2048 (n : Nat) : Nat := ceilDiv n 2048 * 2048

/-- Place regions one after the other from an offset; the end of the last one's data. -/
def placeRegions : Nat → List SavedRegion → List SavedRegion × Nat
  | e, [] => ([], e)
  | e, r :: l =>
    let o := up2048 e
    let t := placeRegions (o + r.bytes) l
    ({ r with offset := o } :: t.1, t.2)

/-- A region record (32 bytes). -/
def SavedRegion.record (r : SavedRegion) : List Byte :=
  toBytes 1 r.kind ++ toBytes 1 (b2n r.bad) ++ toBytes 1 r.logN ++ toBytes 1 0 ++ toBytes 4 (opCount r.operand)
    ++ toBytes 8 r.operand ++ toBytes 8 r.offset ++ toBytes 8 r.block

/-- The operand of a region with the COUNT in force and COUNT_SRC 0. -/
def State.fixedOperand (s : State) (p v : Nat) : Nat := v % 2 ^ 48 + (s.region p v).count * 2 ^ 48

/-- The regions bound to valid entries, each once, with the largest log N of the entries bound to it: its limbs hold the data of
each of them. -/
def State.boundRegions (s : State) (p : Nat) : List SavedRegion :=
  (s.pseq p).hdrs.foldl (fun l e =>
    let v := smGet 0 (s.part p).binds e.1
    if ¬ e.2.valid ∨ v = 0 then l
    else
      let o := s.fixedOperand p (v - 1)
      if l.any (fun r => r.operand == o) then
        l.map (fun r => if r.operand == o && decide (r.logN < e.2.logN) then
          { r with logN := e.2.logN, block := limbBytes e.2.logN false } else r)
      else l ++ [{ kind := 0, logN := e.2.logN, operand := o, block := limbBytes e.2.logN false }]) []

/-- A region holds an invalid row. -/
def State.regionInvalid (s : State) (p : Nat) (r : SavedRegion) : Bool :=
  (upTo (opCount r.operand)).any (fun c => !s.lgFits p (r.at_ c) r.block || !s.lgValid p (r.at_ c).toNat r.block)

/-- A header record (80 bytes). -/
def headerRecord (e : Nat) (h : Header) (region : Nat) : List Byte :=
  toBytes 64 (headerBits h) ++ toBytes 2 e ++ toBytes 2 1 ++ toBytes 4 region ++ toBytes 8 0

/-- The package a context image names: the one of the last kernel started, else the first loaded; free where none is. -/
def State.contextPackage (s : State) (p : Nat) : (Nat × Nat) × State :=
  let l := (s.part p).pkgs
  let last := (s.pseq p).kernel
  match (l.find? (fun g => g.kernels.any (fun k => k.ktab == last))).or l.head? with
  | some g => ((g.id, g.variant), s)
  | none =>
    let d := s.draw
    ((d.1 % 2 ^ 64, d.1 / 2 ^ 64 % 256), d.2)

/-- A region's data as saved: its blocks in order; free bytes where a row is invalid. -/
def State.regionData (s : State) (p : Nat) (r : SavedRegion) : List Byte :=
  if r.bad then freeBytes s.free r.bytes
  else (upTo (opCount r.operand)).flatMap (fun c => s.lgRead p (r.at_ c).toNat r.block)

/-- CTX_SAVE (R141): the code, and IMAGE_BYTES. -/
def State.saveContext (s : State) (p dst list n : Nat) : State × Nat × Nat :=
  if ¬ s.contextIdle p then (s, cContextBusy, 0)
  else if s.rangeCode list (8 * n) ≠ 0 then
    let c := s.rangeCode list (8 * n)
    ((s.memFault p hostBlock (linesOf list (8 * n)) c).touch list (8 * n), c, 0)
  else
    let s := s.touch list (8 * n)
    let ops := (upTo n).map (fun i => s.loadLE (list + 8 * i) 8)
    if ops.any (fun v => bits v 63 60 != 0) then (s, cContextInvalid, 0)
    else
      -- the block size of a listed byte region is open: free, one to 128 rows
      let byteRegions := (upTo n).map (fun i =>
        ({ kind := 1, operand := ops.getD i 0, block := 128 * (1 + Config.freeAt s.free i % 128) } : SavedRegion))
      let s := { s with free := s.free + 1 }
      let regions := (s.boundRegions p ++ byteRegions).map (fun r => { r with bad := s.regionInvalid p r })
      let entries := (s.pseq p).hdrs.filter (fun e => e.2.valid)
      let recs := 128 + 96 + 80 * entries.length + 32 * regions.length
      let placed := placeRegions recs regions
      let total := placed.2
      let regionOf := fun (e : Nat) =>
        let v := smGet 0 (s.part p).binds e
        if v = 0 then 0xFFFFFFFF else (regions.findIdx (fun r => r.kind == 0 && r.operand == s.fixedOperand p (v - 1)))
      let k := s.contextPackage p
      let s := k.2
      let front := ((upTo 12).flatMap (fun i => toBytes 8 (s.kparam p i)))
        ++ entries.flatMap (fun e => headerRecord e.1 e.2 (regionOf e.1)) ++ placed.1.flatMap (fun r => r.record)
      -- section by section, each region's data at its offset
      let body := placed.1.foldl (fun (b : List Byte) r =>
        b ++ List.replicate (r.offset - (128 + b.length)) 0#8 ++ s.regionData p r) front
      let s := { s with free := s.free + 1 }
      let hdr := toBytes 4 0x58435A4B ++ toBytes 1 1 ++ toBytes 1 (s.part p).rlActive ++ toBytes 1 (s.part p).tiles
        ++ toBytes 1 k.1.2 ++ toBytes 2 entries.length ++ toBytes 2 0 ++ toBytes 4 regions.length ++ toBytes 8 total
        ++ toBytes 8 k.1.1 ++ sha384 body ++ toBytes 48 0
      if ¬ s.inStacks p dst total then (s, cHostBounds, 0)
      else
        let w := s.storeP p dst (hdr ++ body)
        if w.2 ≠ 0 then (w.1.memFault p hostBlock (linesOf dst total) w.2, w.2, 0) else (w.1, 0, total)

/-! ### Restore (R142, R143) -/

/-- Region record i of an image. -/
def savedRegionAt (b : List Byte) (o : Nat) : SavedRegion :=
  { kind := leAt b o 1, bad := leAt b (o + 1) 1 == 1, logN := leAt b (o + 2) 1, reserved := leAt b (o + 3) 1 + leAt b (o + 1) 1 / 2
    count := leAt b (o + 4) 4, operand := leAt b (o + 8) 8, offset := leAt b (o + 16) 8, block := leAt b (o + 24) 8 }

/-- A region record is valid in an image of some bytes and a scratchpad of some bytes. -/
def SavedRegion.ok (r : SavedRegion) (recs total size : Nat) : Bool :=
  decide (r.kind ≤ 1) && r.reserved == 0 && bits r.operand 63 60 == 0 && r.count == opCount r.operand
    && decide (recs ≤ r.offset) && r.offset % 2048 == 0 && decide (r.offset + r.bytes ≤ total)
    && (r.kind == 1 || (decide (12 ≤ r.logN) && decide (r.logN ≤ 17) && r.block == limbBytes r.logN false
      && bits r.operand 31 0 % 2048 == 0))
    && (upTo (opCount r.operand)).all (fun c => decide (0 ≤ r.at_ c) && decide (r.at_ c + r.block ≤ (size : Int)))

/-- Some prime set of the structure in force has an identifier. -/
def State.hasPset (s : State) (id : Nat) : Bool :=
  match s.img.image with
  | some x => x.psets.any (fun z => z.id == id)
  | none => false

/-- A header record's entry, flags, region and reserved bytes. -/
def headerRecOk (s : State) (b : List Byte) (o regions : Nat) : Bool :=
  decide (leAt b (o + 64) 2 < 256) && decide (leAt b (o + 66) 2 < 2) && leAt b (o + 72) 8 == 0
    && (leAt b (o + 68) 4 == 0xFFFFFFFF || decide (leAt b (o + 68) 4 < regions)) && s.hasPset (headerOf (leAt b o 64)).psetId

/-- The image checks of R142 after its length is known. -/
def State.contextOk (s : State) (p : Nat) (b : List Byte) : Bool :=
  let nh := leAt b 8 2
  let nr := leAt b 12 4
  let total := leAt b 16 8
  let recs := 224 + 80 * nh + 32 * nr
  leAt b 0 4 == 0x58435A4B && leAt b 4 1 == 1 && leAt b 10 2 == 0 && leAt b 80 48 == 0 && decide (nh ≤ 256)
    && decide (recs ≤ total) && (b.drop 32).take 48 == sha384 (b.drop 128)
    && (s.part p).pkgs.any (fun g => g.id == leAt b 24 8 && g.variant == leAt b 7 1)
    && (upTo nh).all (fun i => headerRecOk s b (224 + 80 * i) nr)
    && (upTo nr).all (fun i => (savedRegionAt b (224 + 80 * nh + 32 * i)).ok recs total (s.lgSize p))

/-- Write a restored context (R143): rows, headers with their bindings, parameters. -/
def State.putContext (s : State) (p a : Nat) (b : List Byte) : State :=
  let nh := leAt b 8 2
  let regions := (upTo (leAt b 12 4)).map (fun i => savedRegionAt b (224 + 80 * nh + 32 * i))
  let code := fun (r : SavedRegion) => s.rangeCode (a + r.offset) r.bytes
  let q := (s.part p).seq
  let codes := regions.map code
  let s := regions.foldl (fun x r => x.memFault p hostBlock (linesOf (a + r.offset) r.bytes) (code r)) s
  let s := s.each (s.partTiles p) (fun t x => x.modTile t (fun y => { y with
    tags := (y.tags.map (fun e => (e.1, { e.2 with valid := false }))).filter (fun e => e.2 != {}) }))
  let s := regions.foldl (fun x r =>
    if r.bad then x
    else (upTo (opCount r.operand)).foldl (fun y c =>
      y.lgWrite p (r.at_ c).toNat ((b.drop (r.offset + c * r.block)).take r.block) 0) x) s
  let s := s.modSeq q (fun x => { x with
    hdrs := []
    params := (upTo 12).foldl (fun m i => smSet 0 m (i + 4) (BitVec.ofNat 64 (leAt b (128 + 8 * i) 8))) x.params })
  s.each (upTo nh) (fun i x =>
    let o := 224 + 80 * i
    let e := leAt b (o + 64) 2
    let g := leAt b (o + 68) 4
    let m := codes.getD g 0
    let h := headerOf (leAt b o 64)
    let h := if m = 0 then h else { h with poison := true, poisonCause := m }
    let x := x.modSeq q (fun y => { y with hdrs := smSet {} y.hdrs e { h with valid := leAt b (o + 66) 2 == 1 } })
    x.modPart p (fun y => { y with binds := smSet 0 y.binds e (if g = 0xFFFFFFFF then 0 else (regions.getD g {}).operand + 1) }))

/-- CTX_RESTORE (R142, R143): the code. -/
def State.restoreContext (s : State) (p a : Nat) : State × Nat :=
  if ¬ s.contextIdle p then (s, cContextBusy)
  else
    let h := s.load a 128
    let total := leAt h 16 8
    let front := 224 + 80 * leAt h 8 2 + 32 * leAt h 12 4
    if ¬ s.inStacks p a 128 then (s, cHostBounds)
    else if s.rangeCode a 128 ≠ 0 ∨ total < 224 then (s, cContextInvalid)
    else if ¬ s.inStacks p a total then (s, cHostBounds)
    else if s.rangeCode a (min front total) ≠ 0 then (s, cContextInvalid)
    else
      let b := s.load a total
      if ¬ s.contextOk p b then (s, cContextInvalid)
      else if leAt b 5 1 ≠ (s.part p).rlActive then (s, cContextLevel)
      else ((s.putContext p a b).touch a total, 0)

end Sys2Proof.Machine
end

