-- ==== Sys2Proof/Machine/ImageCheck.lean ====
section
/-! DEFINITION. Reading and validating a Ferant image (R262 to R270, R426, R30, R52, R66, R238, R305, R384; assumption log 25). -/

namespace Sys2Proof.Machine

/-- Why an image is rejected, as IMG_REJECT holds it; `open_`: the manual names no INDEX and ITEM. -/
structure Rejection where
  reason : Nat := 0
  sect : Nat := 0
  index : Nat := 0
  item : Nat := 0
  open_ : Bool := false
  deriving DecidableEq, Repr

/-- A check: none, or the rejection. -/
abbrev Check := Option Rejection

/-- Reject unless a condition holds. -/
def need (ok : Bool) (r : Rejection) : Check := if ok then none else some r

/-- The first check of a list that fails. -/
def firstBad (l : List Check) : Check := l.foldr (fun c r => match c with
  | some x => some x
  | none => r) none

/-- Byte i of an image. -/
def u8 (b : List Byte) (i : Nat) : Nat := leAt b i 1
/-- Sixteen bits at a byte offset. -/
def u16 (b : List Byte) (i : Nat) : Nat := leAt b i 2
/-- 32 bits at a byte offset. -/
def u32 (b : List Byte) (i : Nat) : Nat := leAt b i 4
/-- 64 bits at a byte offset. -/
def u64 (b : List Byte) (i : Nat) : Nat := leAt b i 8
/-- n bytes from an offset. -/
def slice (b : List Byte) (off n : Nat) : List Byte := (b.drop off).take n
/-- A value in a range. -/
def within (lo v hi : Nat) : Bool := decide (lo ≤ v) && decide (v ≤ hi)

/-! ### Header, signature, directory (orders 1 to 4) -/

/-- TOTAL_BYTES (Table 10-1). -/
def imgTotal (b : List Byte) : Nat := u32 b 8

/-- TOTAL_BYTES under R262. -/
def totalOk (b : List Byte) : Bool := imgTotal b % 64 == 0 && decide (imgTotal b ≤ 4194304) && decide (384 ≤ imgTotal b)

/-- Order 1. -/
def checkHeader (b : List Byte) : Check :=
  need (u32 b 0 == 0x49465A4B && u8 b 4 == 1 && totalOk b && within 1 (u8 b 5) 6 && u8 b 7 == 0 && u32 b 12 == 0
    && leAt b 48 208 == 0) { reason := 19 }

/-- The public key an image names: the Kazfel image key or the installed owner key (R269). -/
def State.imageKey (s : State) (signer : Nat) : Option (Nat × Nat) :=
  if signer = 1 then some (Config.kazfelKeyX, Config.kazfelKeyY) else if signer = 2 then s.sec.ownerKey else none

/-- An ECDSA P-384 signature with SHA-384 over a message. -/
def signedBy (k : Nat × Nat) (msg : List Byte) (r s : Nat) : Bool :=
  within 1 r (p384.n - 1) && within 1 s (p384.n - 1) && ecdsaValid p384 k.1 k.2 (ofBytesBE (sha384 msg)) r s

/-- KEY_ID names a key the signer has (R269). -/
def State.keyIdOk (s : State) (b : List Byte) : Bool :=
  match s.imageKey (u8 b 6) with
  | none => false
  | some k => slice b 32 16 == keyIdOf k.1 k.2

/-- Order 3: KEY_ID, then the signature block and the signature (R262, R269). -/
def State.signatureOk (s : State) (b : List Byte) : Bool :=
  let n := imgTotal b - 128
  let g := slice b n 128
  match s.imageKey (u8 b 6) with
  | none => false
  | some k =>
    s.keyIdOk b && u8 g 0 == 1 && leAt g 1 15 == 0 && leAt g 112 16 == 0
      && signedBy k (b.take n) (ofBytesBE (slice g 16 48)) (ofBytesBE (slice g 64 48))

/-- A directory entry (Table 10-2). -/
structure DirEntry where
  type : Nat := 0
  offset : Nat := 0
  length : Nat := 0
  count : Nat := 0
  reserved : Bool := false
  deriving DecidableEq, Repr

/-- Directory entry i. -/
def dirEntry (b : List Byte) (i : Nat) : DirEntry :=
  let o := 256 + 32 * i
  { type := u8 b o, offset := u32 b (o + 4), length := u32 b (o + 8), count := u16 b (o + 12)
    reserved := leAt b (o + 1) 3 != 0 || leAt b (o + 14) 18 != 0 }

/-- Every directory entry. -/
def directory (b : List Byte) : List DirEntry := (upTo (u8 b 5)).map (dirEntry b)

/-- Bytes an item of a section takes from a position, from the counts as written; none where its header lies beyond the
end (R426). -/
def itemBytes (type : Nat) (d : List Byte) (pos : Nat) : Option Nat :=
  let hdr := fun (n v : Nat) => if d.length < pos + n then none else some v
  if type = 1 then some 320
  else if type = 2 then hdr 16 (16 + 24 * (u8 d (pos + 5) + u8 d (pos + 6) + u8 d (pos + 7)))
  else if type = 3 then some 272
  else if type = 4 then hdr 16 (16 + 32 * u16 d (pos + 2) + 16 * u16 d (pos + 4) + 8 * u16 d (pos + 6))
  else if type = 5 then some 64
  else hdr 8 (128 + 8 * u16 d (pos + 6) + 64 * u8 d (pos + 5))

/-- LENGTH against COUNT (R426): the item that does not fit, or COUNT where bytes are left over. -/
def lengthBad (type : Nat) (d : List Byte) : Nat → Nat → Nat → Option Nat
  | 0, k, pos => if pos = d.length then none else some k
  | n + 1, k, pos =>
    match itemBytes type d pos with
    | none => some k
    | some z => if d.length < pos + z then some k else lengthBad type d n (k + 1) (pos + z)

/-- COUNT of a section (Table 10-3). -/
def countOk (type count : Nat) : Bool :=
  if type = 2 then decide (count ≤ 16) else if type = 3 then decide (count ≤ 48) else if type = 4 then within 1 count 8 else count == 1

/-- Two sections share a byte. -/
def DirEntry.meets (a b : DirEntry) : Bool :=
  a.length != 0 && b.length != 0 && decide (a.offset < b.offset + b.length) && decide (b.offset < a.offset + a.length)

/-- Order 4 for entry i. -/
def checkEntry (b : List Byte) (i : Nat) : Check :=
  let l := directory b
  let e := l.getD i {}
  let before := l.take i
  firstBad
    [need (!e.reserved && within 1 e.type 6 && before.all (fun x => x.type != e.type) && e.offset % 64 == 0
        && decide (256 + 32 * u8 b 5 ≤ e.offset) && decide (e.offset + e.length ≤ imgTotal b - 128)
        && before.all (fun x => !x.meets e)) { reason := 22, index := i },
     (lengthBad e.type (slice b e.offset e.length) e.count 0 0).map (fun k => { reason := 22, index := i, item := k }),
     need (countOk e.type e.count) { reason := 22, index := i }]

/-- Order 4. -/
def checkDirectory (b : List Byte) : Check :=
  firstBad (need (decide (256 + 32 * u8 b 5 ≤ imgTotal b - 128)) { reason := 22 }
    :: (upTo (u8 b 5)).map (checkEntry b)
    ++ [need ((directory b).any (fun e => e.type == 1)) { reason := 22 }])

/-- The bytes and COUNT of a section; empty where it is absent. -/
def sectionOf (b : List Byte) (type : Nat) : List Byte × Nat :=
  match (directory b).find? (fun e => e.type == type) with
  | some e => (slice b e.offset e.length, e.count)
  | none => ([], 0)

/-! ### Partitions (orders 5 to 7) -/

/-- Partition entry p of the section. -/
def partEntry (d : List Byte) (p : Nat) : PartEntry :=
  let w := u64 d (64 + 32 * p)
  { stks := bits w 11 0, auto := bit w 12, placeAuto := bit w 13, spillPages := bits w 47 16
    noiseBase := u64 d (72 + 32 * p), spillBase := u64 d (80 + 32 * p) }

/-- Ranges of partition entry p. -/
def partEntryOk (d : List Byte) (p : Nat) : Bool :=
  let w := u64 d (64 + 32 * p)
  let e := partEntry d p
  bits w 15 14 == 0 && bits w 63 48 == 0 && u64 d (88 + 32 * p) == 0 && within 1 e.spillPages 65536
    && (!e.auto || e.stks == 0) && (!e.placeAuto || (e.noiseBase == 0 && e.spillBase == 0))

/-- Order 5. -/
def checkParts (d : List Byte) : Check :=
  let m := u8 d 0
  firstBad (need ((m == 1 || m == 2 || m == 4 || m == 8) && decide (u8 d 1 % 16 ≤ 8) && decide (u8 d 1 / 16 ≤ 8)
      && leAt d 2 62 == 0) { reason := 23, sect := 1 }
    :: (upTo 8).map (fun p => need (if p < m then partEntryOk d p else leAt d (64 + 32 * p) 32 == 0)
        { reason := 23, sect := 1, index := p }))

/-- Stacks AUTO assigns (Table 10-6), before failed ones are left out. -/
def autoStacks (m p : Nat) : Nat :=
  if m = 1 then 0xFFF
  else if m = 2 then 0x3F <<< (6 * p)
  else if m = 4 then 7 <<< (3 * p)
  else (if p % 2 = 0 then 3 else 1) <<< (3 * (p / 2) + 2 * (p % 2))

/-- Set bits among twelve, less those a test rejects. -/
def maskOf (keep : Nat → Bool) : Nat := ((upTo 12).map (fun k => if keep k then 2 ^ k else 0)).sum

/-- The stacks a partition entry gets. -/
def State.stacksFor (s : State) (m p : Nat) (e : PartEntry) : Nat :=
  if e.auto then maskOf (fun k => bit (autoStacks m p) k && !(s.stk k).failed) else e.stks

/-- R266 for partition p, given the stacks of all. -/
def State.assignOk (s : State) (m p : Nat) (all : List Nat) : Bool :=
  let x := all.getD p 0
  x != 0 && (upTo 12).all (fun k => !bit x k || (!(s.stk k).failed && (m == 1 || k / 6 == p * 2 / m)))
    && (all.take p).all (fun y => (x &&& y) == 0)

/-- Every unit of a range of a stack's units is visible. -/
def State.unitsVisible (s : State) (k u n : Nat) : Bool :=
  (upTo n).all (fun i => !s.isWithdrawn (k * Config.unitsPerStack + u + i))

/-- A region under R267: aligned, inside one stack of the partition, in visible units. -/
def State.regionOk (s : State) (stks base n : Nat) : Bool :=
  base % Config.unitBytes == 0 && n != 0 && decide (base < Config.stackTop) && bit stks (stackNo base)
    && decide (stackOff base + n ≤ Config.stackBytes)
    && s.unitsVisible (stackNo base) (stackOff base / Config.unitBytes) (ceilDiv n Config.unitBytes)

/-- Lowest start of a visible run of `size` units of stack k: `run` of them end before unit u. -/
def State.findRun (s : State) (k size : Nat) : Nat → Nat → Nat → Option Nat
  | 0, _, _ => none
  | n + 1, u, run =>
    let r := if s.isWithdrawn (k * Config.unitsPerStack + u) then 0 else run + 1
    if r = size then some (u + 1 - size) else State.findRun s k size n (u + 1) r

/-- Units of a spill region. -/
def spillUnits (pages : Nat) : Nat := ceilDiv (pages * 16384) Config.unitBytes

/-- The placement of PLACE_AUTO (R267): the noise base, if some stack has room. -/
def State.placeAuto (s : State) (stks pages : Nat) : Option Nat :=
  let size := 32 + spillUnits pages
  ((upTo 12).filter (bit stks)).findSome? (fun k =>
    (s.findRun k size Config.unitsPerStack 0 0).map (fun u => k * Config.stackStride + u * Config.unitBytes))

/-- The regions of a partition entry, as far as they are settled. -/
def State.placeOf (s : State) (m p : Nat) (e : PartEntry) : Option Place :=
  let st := s.stacksFor m p e
  if e.placeAuto then
    (s.placeAuto st e.spillPages).map (fun a =>
      { stks := st, noiseBase := a, spillBase := a + noiseBytes, spillPages := e.spillPages })
  else some { stks := st, noiseBase := e.noiseBase, spillBase := e.spillBase, spillPages := e.spillPages }

/-- Two byte ranges meet. -/
def bytesMeet (a n b m : Nat) : Bool := decide (a < b + m) && decide (b < a + n)

/-- R267 for a partition. -/
def State.placeOk (s : State) (o : Option Place) : Bool :=
  match o with
  | none => false
  | some x =>
    s.regionOk x.stks x.noiseBase noiseBytes && s.regionOk x.stks x.spillBase (x.spillPages * 16384)
      && !bytesMeet x.noiseBase noiseBytes x.spillBase (x.spillPages * 16384)

/-- The partitions of a section: what each entry gives. -/
def State.places (s : State) (d : List Byte) : List (Option Place) :=
  (upTo (u8 d 0)).map (fun p => s.placeOf (u8 d 0) p (partEntry d p))

/-- Orders 6 and 7 (R266, R267). -/
def State.checkPlaces (s : State) (d : List Byte) : Check :=
  let m := u8 d 0
  let all := (upTo m).map (fun p => s.stacksFor m p (partEntry d p))
  firstBad ((upTo m).map (fun p => need (s.assignOk m p all) { reason := 24, sect := 1, index := p })
    ++ (upTo m).map (fun p => need (s.placeOk ((s.places d).getD p none)) { reason := 25, sect := 1, index := p }))

/-! ### Prime sets and noise tables (orders 8 and 9) -/

/-- The positions of a section's items. -/
def itemStarts (type : Nat) (d : List Byte) : Nat → Nat → List Nat
  | 0, _ => []
  | n + 1, pos => pos :: itemStarts type d n (pos + (itemBytes type d pos).getD 0)

/-- A prime set from its bytes (R51). -/
def psetAt (d : List Byte) (o : Nat) : PrimeSet :=
  { id := u32 d o, logNMax := u8 d (o + 4), qcount := u8 d (o + 5), pcount := u8 d (o + 6), acount := u8 d (o + 7)
    width := u8 d (o + 8), dnum := u8 d (o + 9)
    primes := (upTo (u8 d (o + 5) + u8 d (o + 6) + u8 d (o + 7))).map (fun j =>
      { q := u64 d (o + 16 + 24 * j), mu := u64 d (o + 24 + 24 * j), psi := u64 d (o + 32 + 24 * j) }) }

/-- Conditions 1 to 6 of Table 2-1 for a prime, given the primes before it: 0 or the reason. -/
def primeReason (l : Nat) (before : List Prime) (x : Prime) : Nat :=
  if ¬ (2 ^ 31 < x.q ∧ x.q < 2 ^ 36) then 1
  else if x.q % 2 ^ (l + 1) ≠ 1 then 2
  else if ¬ passesBases x.q then 3
  else if before.any (fun y => y.q == x.q) then 4
  else if x.mu ≠ muOf x.q then 5
  else if ¬ (1 < x.psi ∧ x.psi < x.q ∧ powM x.q x.psi (2 ^ l) = x.q - 1) then 6
  else 0

/-- PRIME_SET_ID (R53). -/
def primeSetId (hdr : List Byte) (x : PrimeSet) : Nat :=
  ofBytes (shake128 (ascii [0x4B, 0x5A, 0x50, 0x53] ++ slice hdr 4 12
    ++ (x.primes.map (fun p => toBytes 8 p.q ++ toBytes 8 p.psi)).flatten) 4)

/-- Orders 1 to 5 of Table 3-2 for set i. -/
def checkSet (d : List Byte) (i o : Nat) : Check :=
  let x := psetAt d o
  let r := fun (n : Nat) => ({ reason := n, sect := 2, index := i } : Rejection)
  firstBad ([need (within 12 x.logNMax 17 && within 1 x.qcount 64 && decide (x.pcount ≤ 16) && decide (x.acount ≤ 80)
        && within 1 x.width 2 && within 1 x.dnum 8 && leAt d (o + 10) 6 == 0 && decide (x.qcount + x.pcount + x.acount ≤ 96)) (r 7),
      need (x.qcount % x.width == 0) (r 8),
      need (x.pcount == 0 || decide (ceilDiv x.qcount x.dnum ≤ x.pcount)) (r 9)]
    ++ (upTo x.primes.length).map (fun j =>
        let c := primeReason x.logNMax (x.primes.take j) (x.primes.getD j {})
        need (c == 0) { reason := c, sect := 2, index := i, item := j })
    ++ [need (x.id == primeSetId (slice d o 16) x) (r 10)])

/-- The prime sets of a section. -/
def psetsOf (d : List Byte) (n : Nat) : List PrimeSet := (itemStarts 2 d n 0).map (psetAt d)

/-- Order 8: every set in index order, then the identifiers (R52). -/
def checkSets (d : List Byte) (n : Nat) : Check :=
  let starts := itemStarts 2 d n 0
  let sets := psetsOf d n
  firstBad ((upTo n).map (fun i => checkSet d i (starts.getD i 0))
    ++ (upTo n).map (fun i => need ((sets.take i).all (fun y => y.id != (sets.getD i {}).id)) { reason := 11, sect := 2, index := i }))

/-- Noise table t of a section (Table 3-6). -/
def noiseAt (d : List Byte) (t : Nat) : NoiseTable :=
  let o := 272 * t
  { setIndex := u8 d o, scheme := u8 d (o + 1), msgBits := u16 d (o + 2), precFloor := u16 d (o + 4), margin := u16 d (o + 6)
    fresh := u16 d (o + 8), rescale := u16 d (o + 10), bfvMul := u16 d (o + 12), floodMargin := u16 d (o + 14)
    ks := (upTo 64).map (fun i => u16 d (o + 16 + 2 * i)), bootOut := (upTo 64).map (fun i => u16 d (o + 144 + 2 * i)) }

/-- Order 9 (R66). -/
def checkNoise (d : List Byte) (n sets : Nat) : Check :=
  let l := (upTo n).map (noiseAt d)
  firstBad ((upTo n).map (fun t =>
    let x := l.getD t {}
    need (decide (x.setIndex < sets) && within 1 x.scheme 3
      && (l.take t).all (fun y => !(y.setIndex == x.setIndex && y.scheme == x.scheme))) { reason := 12, sect := 3, index := t }))

/-! ### Messages (order 10) -/

/-- A route (Table 9-1) and whether its reserved bits are zero. -/
def routeAt (d : List Byte) (o : Nat) : Route × Bool :=
  let w := leAt d o 32
  ({ srcEp := bits w 7 0, srcPort := bits w 11 8, dstEp := bits w 23 16, dstQueue := bits w 27 24, credits := bits w 47 32
     maxLen := bits w 61 48, depends := bits w 79 64 },
   bits w 15 12 == 0 && bits w 31 28 == 0 && bits w 63 62 == 0 && bits w 255 80 == 0)

/-- A queue (Table 9-2) and whether its reserved bits are zero. -/
def queueAt (d : List Byte) (o : Nat) : QueueCfg × Bool :=
  let w := leAt d o 16
  ({ ep := bits w 7 0, queue := bits w 11 8, mode := bits w 13 12, gateEn := bit w 14, gateFlag := bits w 20 16
     ringRow := bits w 47 32, ringRows := bits w 63 48 },
   !bit w 15 && bits w 31 21 == 0 && bits w 127 64 == 0)

/-- A flag (Table 9-3) and whether its reserved bits are zero. -/
def flagAt (d : List Byte) (o : Nat) : FlagCfg × Bool :=
  let w := u64 d o
  ({ flag := bits w 4 0, dynamic := bit w 5, setEp := bits w 15 8, setQueue := bits w 19 16 },
   bits w 7 6 == 0 && bits w 63 20 == 0)

/-- A subsection as read, with its reserved bits. -/
structure SubIn where
  sub : MsgSub := {}
  hdrOk : Bool := true
  routesOk : List Bool := []
  queuesOk : List Bool := []
  flagsOk : List Bool := []
  deriving DecidableEq, Repr

/-- The subsection at an offset. -/
def subAt (d : List Byte) (o : Nat) : SubIn :=
  let nr := u16 d (o + 2)
  let nq := u16 d (o + 4)
  let nf := u16 d (o + 6)
  let rs := (upTo nr).map (fun i => routeAt d (o + 16 + 32 * i))
  let qs := (upTo nq).map (fun i => queueAt d (o + 16 + 32 * nr + 16 * i))
  let fs := (upTo nf).map (fun i => flagAt d (o + 16 + 32 * nr + 16 * nq + 8 * i))
  { sub := { part := u8 d o, routes := rs.map Prod.fst, queues := qs.map Prod.fst, flags := fs.map Prod.fst }
    hdrOk := u8 d (o + 1) == 0 && u64 d (o + 8) == 0
    routesOk := rs.map Prod.snd, queuesOk := qs.map Prod.snd, flagsOk := fs.map Prod.snd }

/-- An endpoint number (R236). -/
def epOk (tiles ep : Nat) : Bool := decide (ep < tiles) || within 64 ep 67

/-- A route reaches a queue. -/
def Route.to (r : Route) (q : QueueCfg) : Bool := r.dstEp == q.ep && r.dstQueue == q.queue

/-- Order 1 of Table 9-4. -/
def msgOrder1 (p tiles : Nat) (x : SubIn) : Check :=
  let bad := fun (i : Nat) => ({ reason := 13, sect := 4, index := p, item := i } : Rejection)
  let m := x.sub
  firstBad ([need (decide (m.routes.length ≤ 1088)) (bad 1088)]
    ++ (upTo m.routes.length).map (fun i =>
        let r := m.routes.getD i {}
        need (x.routesOk.getD i true && epOk tiles r.srcEp && epOk tiles r.dstEp && within 1 r.credits 1024
          && decide (r.maxLen ≤ 16368)) (bad i))
    ++ (upTo m.queues.length).map (fun i =>
        let q := m.queues.getD i {}
        need (x.queuesOk.getD i true && epOk tiles q.ep && within 1 q.mode 2 && within 1 q.ringRows 2048
          && (decide (64 ≤ q.ep) || within 47104 q.ringRow 49151)) (bad i))
    ++ (upTo m.flags.length).map (fun i =>
        let f := m.flags.getD i {}
        need (x.flagsOk.getD i true && epOk tiles f.setEp && (m.flags.take i).all (fun g => g.flag != f.flag)) (bad i)))

/-- Order 2 of Table 9-4, with the owners of service-core ports and queues (R236); `others` are the subsections before. -/
def msgOrder2 (p : Nat) (m : MsgSub) (others : List MsgSub) : Check :=
  let bad := fun (i : Nat) => ({ reason := 14, sect := 4, index := p, item := i } : Rejection)
  firstBad ((upTo m.queues.length).map (fun i =>
        let q := m.queues.getD i {}
        need ((m.queues.take i).all (fun z => !(z.ep == q.ep && z.queue == q.queue))
          && (decide (q.ep < 64) || others.all (fun o => o.queues.all (fun z => !(z.ep == q.ep && z.queue == q.queue))))) (bad i))
    ++ (upTo m.routes.length).map (fun i =>
        let r := m.routes.getD i {}
        need (m.queues.any (fun q => r.to q) && (m.routes.take i).all (fun z => !(z.srcEp == r.srcEp && z.srcPort == r.srcPort))
          && (decide (r.srcEp < 64)
            || others.all (fun o => o.routes.all (fun z => !(z.srcEp == r.srcEp && z.srcPort == r.srcPort))))) (bad i)))

/-- Order 3 of Table 9-4. -/
def msgOrder3 (p : Nat) (m : MsgSub) : Check :=
  firstBad ((upTo m.queues.length).map (fun i =>
    let q := m.queues.getD i {}
    let n := (m.routes.filter (fun r => r.to q)).length
    need (if q.mode = 1 then n == 1 else within 1 n 16) { reason := 15, sect := 4, index := p, item := i }))

/-- Two rings of one endpoint share a row. -/
def ringsMeet (a b : QueueCfg) : Bool := a.ep == b.ep && bytesMeet a.ringRow a.ringRows b.ringRow b.ringRows

/-- Order 4 of Table 9-4. -/
def msgOrder4 (p : Nat) (m : MsgSub) (others : List MsgSub) : Check :=
  let bad := fun (i : Nat) => ({ reason := 16, sect := 4, index := p, item := i } : Rejection)
  firstBad ((upTo m.queues.length).map (fun i =>
        let q := m.queues.getD i {}
        need ((if q.ep < 64 then decide (47104 ≤ q.ringRow) && decide (q.ringRow + q.ringRows ≤ 49152)
            else decide (q.ringRow + q.ringRows ≤ 4096))
          && (m.queues.take i).all (fun z => !ringsMeet z q)
          && (decide (q.ep < 64) || others.all (fun o => o.queues.all (fun z => !ringsMeet z q)))) (bad i))
    ++ (upTo m.routes.length).map (fun i =>
        let r := m.routes.getD i {}
        need (decide (recBytes r.maxLen ≤ ((m.queues.find? (fun q => r.to q)).getD {}).size)) (bad i)))

/-- A node of the graph of R253: a send port or a receive queue. -/
def gNode (queue : Bool) (ep n : Nat) : Nat := 2 * (16 * ep + n) + b2n queue

/-- The edges of the graph. -/
def MsgSub.edges (m : MsgSub) : List (Nat × Nat) :=
  m.routes.map (fun r => (gNode false r.srcEp r.srcPort, gNode true r.dstEp r.dstQueue))
    ++ m.routes.flatMap (fun r => ((upTo 16).filter (bit r.depends)).map (fun q =>
        (gNode true r.srcEp q, gNode false r.srcEp r.srcPort)))
    ++ m.flags.flatMap (fun f => if f.dynamic then [] else
        (m.queues.filter (fun q => q.gateEn && q.gateFlag == f.flag)).map (fun q =>
          (gNode true f.setEp f.setQueue, gNode true q.ep q.queue)))

/-- Keep the edges whose start some edge still enters; what is left after enough rounds lies behind a cycle. -/
def pruneEdges : Nat → List (Nat × Nat) → List (Nat × Nat)
  | 0, l => l
  | n + 1, l =>
    let k := l.filter (fun e => l.any (fun f => f.2 == e.1))
    if k.length = l.length then l else pruneEdges n k

/-- The graph has a directed cycle. -/
def MsgSub.cyclic (m : MsgSub) : Bool := !(pruneEdges (m.edges.length + 1) m.edges).isEmpty

/-- Orders 1 to 6 of Table 9-4 for a subsection. -/
def checkSub (m tiles pages : Nat) (x : SubIn) (others : List MsgSub) : Check :=
  let p := x.sub.part
  firstBad [need (x.hdrOk && decide (p < m) && others.all (fun o => o.part != p)) { reason := 13, sect := 4, index := p },
    msgOrder1 p tiles x, msgOrder2 p x.sub others, msgOrder3 p x.sub, msgOrder4 p x.sub others,
    need (decide (x.sub.credits ≤ pages)) { reason := 17, sect := 4, index := p },
    need (!x.sub.cyclic) { reason := 18, sect := 4, index := p }]

/-- Insert a subsection in ascending partition order, after its equals. -/
def insSub (x : SubIn) : List SubIn → List SubIn
  | [] => [x]
  | y :: l => if x.sub.part < y.sub.part then x :: y :: l else y :: insSub x l

/-- The subsections in ascending partition order. -/
def subsOf (d : List Byte) (n : Nat) : List SubIn := ((itemStarts 4 d n 0).map (subAt d)).foldl (fun l x => insSub x l) []

/-- Order 10. -/
def checkMsgs (d : List Byte) (n m : Nat) (pages : Nat → Nat) : Check :=
  let l := subsOf d n
  firstBad ((upTo l.length).map (fun i =>
    let x := l.getD i {}
    checkSub m (64 / m) (pages x.sub.part) x ((l.take i).map (fun y => y.sub))))

/-! ### POWER and FABRIC (orders 11 and 12) -/

/-- The POWER section (Table 14-4). -/
def powerOf (d : List Byte) : PowerPolicy :=
  let w := u64 d 0
  { capW := bits w 15 0, freqMax := bits w 23 16, dieThrottle := bits w 31 24, stackThrottle := bits w 39 32
    lizardEn := bit w 40, deepEn := bit w 41, lizardDwellUs := u32 d 8, deepDwellMs := u32 d 12, maxExitUs := u32 d 16
    fabricTolUs := u32 d 20 }

/-- Order 11 (R384). -/
def checkPower (d : List Byte) : Check :=
  let x := powerOf d
  need (within 300 x.capW 1500 && within 32 x.freqMax 64 && within 80 x.dieThrottle 110 && within 75 x.stackThrottle 100
    && (!x.deepEn || x.lizardEn) && bits (u64 d 0) 63 42 == 0 && decide (x.lizardDwellUs ≤ 1000000)
    && decide (x.deepDwellMs ≤ 100000) && leAt d 24 40 == 0) { reason := 26, sect := 5 }

/-- A fabric route. -/
def fabRouteAt (w : Nat) : FabRoute :=
  { first := bits w 15 0, last := bits w 31 16, primary := bits w 34 32, altEn := bit w 35, alternate := bits w 38 36 }

/-- A collective entry. -/
def collAt (w : Nat) : CollCfg :=
  { kind := bits w 3 0, members := bits w 31 16, rank := bits w 47 32, parent := bits w 63 48
    children := (upTo (bits w 67 64)).map (fun i => bits w (143 + 16 * i) (128 + 16 * i))
    bufAddr := bits w 319 256, bufMib := bits w 335 320 }

/-- The FABRIC section (Table 11-8). -/
def fabricOf (d : List Byte) : FabricCfg :=
  let nr := u16 d 6
  { moduleAddr := u16 d 0, portEn := u8 d 2, express := u8 d 3, maxLevel := u8 d 4
    routes := (upTo nr).map (fun i => fabRouteAt (u64 d (128 + 8 * i)))
    colls := (upTo (u8 d 5)).map (fun i => collAt (leAt d (128 + 8 * nr + 64 * i) 64))
    jobId := u64 d 8, jobLevel := u8 d 16, jobPart := u8 d 17 % 8, epochUs := u16 d 18, jobParent := u16 d 20
    jobChildren := (upTo (u16 d 22 % 16)).map (fun i => u16 d (28 + 2 * i)), jobMembers := u16 d 24 }

/-- A module address, or 0xFFFF for none. -/
def addrOk (none_ : Bool) (a : Nat) : Bool := decide (a ≤ 32767) || (none_ && a == 0xFFFF)

/-- The header of a FABRIC section for M partitions. -/
def fabHeaderOk (d : List Byte) (m : Nat) : Bool :=
  let f := fabricOf d
  let kids := u16 d 22 % 16
  addrOk false f.moduleAddr && within 1 f.maxLevel 2 && decide (f.colls.length ≤ 64) && decide (f.routes.length ≤ 4096)
    && u8 d 17 / 8 == 0 && u16 d 22 / 16 == 0 && u16 d 26 == 0 && leAt d 44 84 == 0
    && (if f.jobId = 0 then leAt d 16 28 == 0
      else within 1 f.jobLevel 255 && decide (f.jobPart < m) && (f.epochUs == 0 || within 10 f.epochUs 40)
        && addrOk true f.jobParent && decide (kids ≤ 8) && within 1 f.jobMembers 32768 && f.jobChildren.all (addrOk false)
        && (upTo (8 - kids)).all (fun i => u16 d (28 + 2 * (kids + i)) == 0))

/-- Route i of a FABRIC section. -/
def fabRouteOk (d : List Byte) (i : Nat) : Bool :=
  let f := fabricOf d
  let r := f.routes.getD i {}
  bits (u64 d (128 + 8 * i)) 63 39 == 0 && decide (r.first ≤ r.last) && addrOk false r.last
    && !(decide (r.first ≤ f.moduleAddr) && decide (f.moduleAddr ≤ r.last)) && (!r.altEn || r.alternate != r.primary)
    && (f.routes.take i).all (fun z => decide (r.last < z.first) || decide (z.last < r.first))

/-- Collective i of a FABRIC section, with the regions its buffer must not meet. -/
def State.collOk (s : State) (d : List Byte) (i : Nat) (places : List (Option Place)) : Bool :=
  let f := fabricOf d
  let w := leAt d (128 + 8 * f.routes.length + 64 * i) 64
  let c := f.colls.getD i {}
  let n := c.bufMib * 1048576
  bits w 15 4 == 0 && bits w 127 68 == 0 && bits w 511 336 == 0 && within 1 c.kind 3
    && within 1 c.members (if c.kind = 3 then 64 else 32768) && decide (c.rank < c.members) && addrOk true c.parent
    && decide (c.children.length ≤ if c.kind = 3 then 0 else 8) && c.children.all (addrOk false)
    && c.bufMib % 2 == 0 && within 2 c.bufMib 1024
    && (match places.getD f.jobPart none with
      | none => false
      | some x => s.regionOk x.stks c.bufAddr n)
    && places.all (fun o => match o with
      | none => true
      | some x => !bytesMeet c.bufAddr n x.noiseBase noiseBytes && !bytesMeet c.bufAddr n x.spillBase (x.spillPages * 16384))
    && (f.colls.take i).all (fun z => !bytesMeet c.bufAddr n z.bufAddr (z.bufMib * 1048576))

/-- Order 12 (R305). -/
def State.checkFabric (s : State) (d : List Byte) (m : Nat) (places : List (Option Place)) : Check :=
  let f := fabricOf d
  firstBad (need (fabHeaderOk d m) { reason := 27, sect := 6 }
    :: (upTo f.routes.length).map (fun i => need (fabRouteOk d i) { reason := 27, sect := 6, item := i })
    ++ (upTo f.colls.length).map (fun i => need (s.collOk d i places) { reason := 27, sect := 6, open_ := true }))

/-! ### The whole image -/

/-- The order of Table 10-8; `nv`: orders 6 and 7 are left out (R281). -/
def State.validate (s : State) (b : List Byte) (nv : Bool) : Check :=
  let pd := (sectionOf b 1).1
  let m := u8 pd 0
  let ps := sectionOf b 2
  let ns := sectionOf b 3
  let ms := sectionOf b 4
  let pw := sectionOf b 5
  let fb := sectionOf b 6
  firstBad [checkHeader b,
    need (u64 b 24 == 0 || u64 b 24 == s.pins.serial) { reason := 20 },
    need (s.signatureOk b) { reason := 21 },
    checkDirectory b,
    checkParts pd,
    if nv then none else s.checkPlaces pd,
    checkSets ps.1 ps.2,
    checkNoise ns.1 ns.2 ps.2,
    checkMsgs ms.1 ms.2 m (fun p => (partEntry pd p).spillPages),
    if pw.2 = 0 then none else checkPower pw.1,
    if fb.2 = 0 then none else s.checkFabric fb.1 m (s.places pd)]

/-- The image a valid byte string holds. -/
def parseImage (b : List Byte) : Image :=
  let pd := (sectionOf b 1).1
  let ps := sectionOf b 2
  let ns := sectionOf b 3
  let ms := sectionOf b 4
  let pw := sectionOf b 5
  let fb := sectionOf b 6
  { serial := u64 b 16, signer := u8 b 6, m := u8 pd 0, ways0 := u8 pd 1 % 16, ways1 := u8 pd 1 / 16
    parts := (upTo (u8 pd 0)).map (partEntry pd), psets := psetsOf ps.1 ps.2, noises := (upTo ns.2).map (noiseAt ns.1)
    msgs := (subsOf ms.1 ms.2).map (fun x => x.sub)
    power := if pw.2 = 0 then {} else powerOf pw.1
    fabric := if fb.2 = 0 then none else some (fabricOf fb.1)
    psetBytes := ps.1, noiseBytes := ns.1, msgBytes := ms.1, fabricBytes := fb.1 }

/-- The factory default image (R279). -/
def factoryImage : Image :=
  { m := 1, ways0 := 8, ways1 := 8, parts := [{ auto := true, placeAuto := true, spillPages := 1024 }] }

/-- The results digest (R264), as the number of its little-endian bytes. -/
def Image.resultsDigest (x : Image) : Nat :=
  ofBytes (sha384 (ascii [0x4B, 0x5A, 0x52, 0x44] ++ toBytes 1 x.m ++ x.psetBytes ++ x.noiseBytes ++ x.msgBytes))

end Sys2Proof.Machine
end

