-- ==== Sys2Proof/Machine/Images.lean ====
section
/-! DEFINITION. Loading a structure, teardown, flash slots, and change of owner (R272 to R287; assumption logs 25 and 28). -/

namespace Sys2Proof.Machine

/-- Change the image registers. -/
def State.modImg (s : State) (f : ImageState → ImageState) : State := { s with img := f s.img }
/-- Change the owner registers. -/
def State.modOwner (s : State) (f : OwnerState → OwnerState) : State := { s with owner := f s.owner }

/-! ### Kept partitions (R274) -/

/-- A partition's message subsection; an absent one gives no routes. -/
def Image.sub (x : Image) (p : Nat) : MsgSub := (x.msgs.find? (fun m => m.part == p)).getD { part := p }

/-- The FABRIC sections of two images are the same bytes; absent differs from present. -/
def Image.sameFabric (a b : Image) : Bool := a.fabric.isSome == b.fabric.isSome && a.fabricBytes == b.fabricBytes

/-- A running partition is kept. -/
def State.keeps (s : State) (x : Image) (p : Nat) : Bool :=
  match s.img.image with
  | none => false
  | some o =>
    s.isUp p && o.m == x.m && o.parts.getD p {} == x.parts.getD p {} && o.sub p == x.sub p && o.psetBytes == x.psetBytes
      && o.noiseBytes == x.noiseBytes && o.sameFabric x

/-! ### Installing (R273) -/

/-- Step 3: tear down every running partition that is not kept. -/
def State.tearOthers (s : State) (keep : Nat → Bool) : State :=
  s.each (upTo 8) (fun p y => if y.isUp p ∧ ¬ keep p then y.tear p 3 none else y)

/-- The stream slots of n tiles from tile t on are FREE: a structure that is brought up finds none armed (R160, R276). -/
def State.freeSlots (s : State) (t n : Nat) : State :=
  s.each (upTo n) (fun i x => x.modTile (t + i) (fun y => { y with
    slots := y.slots.map (fun e => (e.1, { e.2 with state := 0, run := none })) }))

/-- A partition brought up with an image's shape and a fresh ledger (R257). Core 1 + (p mod 3) serves it. -/
def State.bringUp (s : State) (x : Image) (p : Nat) (pl : Place) : State :=
  let sub := x.sub p
  let tiles := 64 / x.m
  (s.modPart p (fun y => { y with
      tiles := tiles, seq := p * (8 / x.m), rlActive := 0, core := 1 + p % 3, stks := pl.stks, noiseBase := pl.noiseBase
      spillBase := pl.spillBase, spillPages := pl.spillPages, pkgs := [], binds := [], runtimeQ := [], mmulQ := none, masks := [], held := [], poisonSeen := false, gCode := 0
      noiseBusy := false, noiseRanges := [], msg := { sub := sub }
      ledger := freshLedger sub.credits sub.ringBytes pl.spillPages tiles })).freeSlots (p * tiles) tiles |>.setPartState p 1

/-- A partition the image does not have. -/
def State.dropPart (s : State) (p : Nat) : State :=
  (s.modPart p (fun y => { y with
      tiles := 0, seq := 0, rlActive := 0, core := 0, stks := 0, noiseBase := 0, spillBase := 0, spillPages := 0, pkgs := []
      binds := [], runtimeQ := [], mmulQ := none, masks := [], held := [], poisonSeen := false, gCode := 0
      noiseBusy := false, noiseRanges := [], msg := {}, ledger := {} })).setPartState p 0

/-- Zero the landing area of every collective (R309). -/
def State.zeroLandings (s : State) : State := s.fab.cfg.colls.foldl (fun y c => y.zeroRange c.bufAddr c.half) s

/-- The FABRIC section in force; a new one starts its job afresh. -/
def State.setFabric (s : State) (x : Image) : State :=
  let c := x.fabric.getD {}
  ({ s with fab := { s.fab with
      cfg := c, jobState := if c.jobId = 0 then 0 else 1, jobFreq := 0, lockLost := false, childCeil := [], childJoin := []
      sentCeil := 0, joining := false, aborts := [], colls := [] } }).zeroLandings.each (upTo 8) (fun n y =>
    if bit c.portEn n then y else y.portDown n)

/-- Staging ways of a die; where they change, its cache writes back (R231). -/
def State.setWays (s : State) (d w : Nat) : State :=
  if (s.cache d).ways = w then s
  else
    let s := s.modCache d (fun y => { y with ways := w })
    s.writeBack (fun a => homeDie a == d)

/-- The power policy of an image (R384). -/
def State.setPolicy (s : State) (x : PowerPolicy) : State :=
  let before := s.offered
  ((s.modPwr (fun y => { y with policy := x, cmax := x.freqMax })).newLimits).advertise before

/-- Steps 4 to 6 of R273. -/
def State.install (s : State) (x : Image) (places : List Place) (keep : Nat → Bool) (source : Nat) : State :=
  let same := match s.img.image with
    | some o => o.sameFabric x
    | none => false
  let s := s.modImg (fun y => { y with
    image := some x, resultsDigest := x.resultsDigest, loadedFrom := source, loads := (y.loads + 1) % 2 ^ 32
    done := true })
  let s := (s.setWays 0 x.ways0).setWays 1 x.ways1
  let s := s.each (upTo 8) (fun p y =>
    if keep p then y else if p < x.m then y.bringUp x p (places.getD p {}) else y.dropPart p)
  let s := if same then s else s.setFabric x
  s.setPolicy x.power

/-- Steps 3 to 6 for a valid image: 0, or the code that ended the load. A load that is still under way past step 3 waits in
`loading`. -/
def State.bring (s : State) (x : Image) (places : List Place) (source : Nat) (how : LoadEnd) : State × Nat :=
  if s.haltCode ≠ 0 then (s, s.haltCode)
  else
    let keep := fun (p : Nat) => s.keeps x p
    let t := s.tearOthers keep
    if t.haltCode ≠ 0 then (t, t.haltCode)
    else if how = .bufferBad then (t, cImageBuffer)
    else if how = .beforeInstall ∨ how = .installing then
      (t.modImg (fun y => { y with loading := some { image := x, places := places, source := source, installing := how == .installing } }), 0)
    else (t.install x places keep source, 0)

/-! ### Loading (R272) -/

/-- IMG_REJECT as read. -/
def ImageState.rejectWord (x : ImageState) : Nat :=
  pack [(0, x.rejReason), (8, x.rejSection), (16, x.rejIndex), (24, x.rejItem)]

/-- Record a rejection in IMG_REJECT. -/
def State.rejected (s : State) (r : Rejection) : State :=
  let d := if r.open_ then s.draw else (0, s)
  d.2.modImg (fun y => { y with
    rejReason := r.reason, rejSection := r.sect, rejIndex := if r.open_ then d.1 % 256 else r.index
    rejItem := if r.open_ then d.1 / 256 % 65536 else r.item })

/-- A slot. -/
def ImageState.slot (x : ImageState) (b : Bool) : FlashSlot := if b then x.slotB else x.slotA
/-- MAGIC of a slot, "KZNS" (Table 10-10). -/
abbrev slotMagic : Nat := 0x534E5A4B
/-- The commit value, "KZCOMMIT". -/
abbrev slotCommit : Nat := 0x54494D4D4F435A4B
/-- A slot is valid (R280): committed, MAGIC, and the SHA-384 of its IMAGE_BYTES image bytes. -/
def FlashSlot.valid (f : FlashSlot) : Bool :=
  f.commit == slotCommit && f.magic == slotMagic && sha384 (f.bytes.take f.imageBytes) == f.digest

/-- The image bytes a source gives: the bytes, or the code that ends the copy. -/
def State.copySource (s : State) (source : Nat) (host : List Byte) : List Byte × Nat :=
  let b := if source = 0 then host else (s.img.slot (source == 2)).bytes
  if source ≠ 0 ∧ ¬ (s.img.slot (source == 2)).valid then ([], cImageSource)
  else if b.length < 256 then ([], cImageSource)
  else if ¬ totalOk b then (b, cImageRejected)
  else if b.length < imgTotal b then ([], cImageSource)
  else if source ≠ 0 ∧ (s.img.slot (source == 2)).imageBytes ≠ imgTotal b then ([], cImageSource)
  else (b.take (imgTotal b), 0)

/-- The factory default's checks of orders 6 and 7; its other contents are fixed (R279). -/
def State.factoryCheck (s : State) : Check :=
  let e := factoryImage.parts.getD 0 {}
  firstBad [need (s.assignOk 1 0 [s.stacksFor 1 0 e]) { reason := 24, sect := 1 },
    need (s.placeOk (s.placeOf 1 0 e)) { reason := 25, sect := 1 }]

/-- The checks of Table 10-8 with the engine that verifies the signature (R269, R357, R360): an engine that is disabled ends
them at order 3 with its code, and one whose two evaluations disagree with PK_MISMATCH, once KEY_ID has matched. -/
def State.checked (s : State) (b : List Byte) (nv mismatch : Bool) : Option Rejection × Nat :=
  let v := s.validate b nv
  let early := match v with
    | some r => r.reason == 19 || r.reason == 20 || (r.reason == 21 && !s.keyIdOk b)
    | none => false
  if early then (v, 0)
  else if s.sec.engineCode ≠ 0 then (none, s.sec.engineCode)
  else if mismatch then (none, cPkMismatch)
  else (v, 0)

/-- The engine served a check that ended with a code: a mismatch is counted and recorded (R360). -/
def State.engineServed (s : State) (code : Nat) : State :=
  if code = cPkMismatch then s.engineMismatch.report cPkMismatch { block := 10 } else s

/-- Check an image and bring it up: 0, or the code that ended the load. -/
def State.tryLoad (s : State) (source : Nat) (host : List Byte) (how : LoadEnd) : State × Nat :=
  if source = 3 ∧ s.sec.engineCode ≠ 0 then (s, s.sec.engineCode)
  else if source = 3 ∧ how = .mismatch then (s.engineServed cPkMismatch, cPkMismatch)
  else if source = 3 then
    match s.factoryCheck with
    | some r => (s.rejected r, cImageRejected)
    | none => s.bring factoryImage [(s.placeOf 1 0 (factoryImage.parts.getD 0 {})).getD {}] 4 how
  else
    let c := s.copySource source host
    if c.2 = cImageRejected then (s.rejected { reason := 19 }, cImageRejected)
    else if c.2 ≠ 0 then (s, c.2)
    else
      match s.checked c.1 false (how == .mismatch) with
      | (some r, _) => (s.rejected r, cImageRejected)
      | (none, code) =>
        if code ≠ 0 then (s.engineServed code, code)
        else s.bring (parseImage c.1) ((s.places (sectionOf c.1 1).1).map (fun o => o.getD {})) (source + 1) how

/-- A load ends: IMG_CTRL shows how (R287). -/
def State.loadEnded (s : State) (code : Nat) : State :=
  s.modImg (fun y => { y with done := true, error := code != 0, errCode := if code = 0 then y.errCode else code })

/-- A load that LOAD began is over. -/
def State.loadOver (s : State) (code : Nat) : State :=
  ((s.loadEnded code).modImg (fun y => { y with busy := false, held := none, loading := none })).evAdmin

/-- Run a load (R273), to its end or until it is under way. -/
def State.runLoad (s : State) (source : Nat) (host : List Byte) (how : LoadEnd) : State :=
  let r := (s.stir.modImg (fun y => { y with busy := true, held := none, loading := none })).tryLoad source host how
  if r.1.img.loading.isSome then r.1 else r.1.loadOver r.2

/-- Finish a load under way: steps 4 to 6. A fatal state or a trip meanwhile ends it with its code. -/
def State.finishLoad (s : State) : State :=
  match s.img.loading with
  | none => s
  | some l =>
    if s.haltCode ≠ 0 then s.loadOver s.haltCode
    else (s.install l.image l.places (fun p => s.keeps l.image p) l.source).loadOver 0

/-- LOAD (R272): discarded while BUSY, held while a scrub sequence is under way. -/
def execLoad (source : Nat) (host : List Byte) (how : LoadEnd) (s : State) : Out :=
  guarded (decide (source < 4)) <|
    s.pf0 (fun s =>
      if s.img.busy then s.modImg (fun y => { y with dropped := true })
      else
        let s := s.modImg (fun y => { y with source := source })
        if s.scrubbing then s.modImg (fun y => { y with busy := true, held := some source }) else s.runLoad source host how)

/-- HELD_LOAD_START (R272): once the flag has cleared and step 8 of R285 has run. -/
def execHeldLoadStart (host : List Byte) (how : LoadEnd) (s : State) : Out :=
  guarded true <|
    match s.img.held with
    | none => s
    | some source => if s.scrubbing then s else s.runLoad source host how

/-- TEARDOWN (R276, R353): of a partition that is up, by PF0 or the management interface; PF0 is shut out of a
locked one. One that arrives while a load runs waits for its end (R275). -/
def execTeardown (w : TeardownIn) (s : State) : Out :=
  guarded (decide (w.part < 8)) <|
    let p := w.part
    let tear := fun (s : State) => let s := s.finishLoad; if s.isUp p then s.tear p 3 none else s
    if ¬ w.byPf0 then (if s.fw.running = 2 then s else tear s)
    else s.pf0 (fun s => if s.tdiClosed (p + 1) then s.record cTdiLocked { part := p, block := 2 } else tear s)

/-! ### Flash slots (R280, R281) -/

/-- Change a slot. -/
def State.modSlotB (s : State) (b : Bool) (f : FlashSlot → FlashSlot) : State :=
  s.modImg (fun y => if b then { y with slotB := f y.slotB } else { y with slotA := f y.slotA })

/-- The slot a SLOT value names for a write: false A, true B (R281). -/
def ImageState.target (x : ImageState) (slot : Nat) : Bool :=
  if slot = 1 then false
  else if slot = 2 then true
  else if x.slotA.valid ∧ x.slotB.valid then decide (x.slotB.gen ≤ x.slotA.gen)
  else x.slotA.valid

/-- The end of an NV operation. -/
def State.nvEnd (s : State) (code : Nat) : State :=
  (s.modImg (fun y => { y with
    nvBusy := false, nvDone := true, nvError := y.nvError || code != 0, nvErrCode := if code = 0 then y.nvErrCode else code })).evAdmin

/-- Steps 3 to 5 of R281: the image is programmed and committed. -/
def State.programSlot (s : State) (b : Bool) (img : List Byte) : State :=
  let o := s.img.slot (!b)
  let gen := if o.valid ∧ o.gen < 0xFFFFFFFE then o.gen + 1 else 1
  s.modSlotB b (fun _ =>
    { magic := slotMagic, gen := gen, imageBytes := imgTotal img, digest := sha384 (img.take (imgTotal img)), commit := slotCommit
      bytes := img })

/-- Step 6 has work: the other slot is valid with the last generation. -/
def State.lastGen (s : State) (b : Bool) : Bool := (s.img.slot (!b)).valid && (s.img.slot (!b)).gen == 0xFFFFFFFE

/-- Step 6. -/
def State.retireOther (s : State) (b : Bool) : State :=
  if s.lastGen b then s.modSlotB (!b) (fun f => { f with commit := 0 }) else s

/-- Steps 2 to 6 of R281. The target is erased first, so a write under way holds it invalid (Table 10-11). -/
def State.writeSlot (s : State) (b : Bool) (img : List Byte) (how : NvEnd) : State :=
  let wait := fun (s : State) (last : Bool) =>
    s.modImg (fun y => { y with nvBusy := true, writing := some { slot := b, image := img, lastStep := last } })
  if how = .failed then (s.modSlotB b (fun _ => {})).nvEnd cNvWriteFailed
  else if how = .running then wait (s.modSlotB b (fun _ => {})) false
  else if how = .lastStep ∧ s.lastGen b = true then wait (s.programSlot b img) true
  else ((s.programSlot b img).retireOther b).nvEnd 0

/-- Finish a slot write under way. -/
def State.finishNv (s : State) : State :=
  match s.img.writing with
  | none => s
  | some w =>
    let s := s.modImg (fun y => { y with writing := none })
    ((if w.lastStep then s else s.programSlot w.slot w.image).retireOther w.slot).nvEnd 0

/-- A slot write under way is stopped where it is (Table 10-11). -/
def State.stopNv (s : State) (code : Nat) : State :=
  if s.img.writing.isSome then (s.modImg (fun y => { y with writing := none })).nvEnd code else s

/-- No new flash operation starts: a request is recorded (Table 10-14), or PWR_GOOD is deasserted (R420). -/
def State.flashClosed (s : State) : Bool := s.requestRecorded || !s.pins.pwrGood

/-- NV_WRITE (R281), after a load that runs (R275). SLOT 3 names no slot: the write is discarded. -/
def execNvWrite (slot : Nat) (host : List Byte) (how : NvEnd) (s : State) : Out :=
  guarded (decide (slot < 4)) <|
    s.pf0 (fun s =>
      if s.img.nvBusy then s
      else
        let s := (s.stir.finishLoad).modImg (fun y => { y with nvSlot := slot })
        if slot = 3 then s
        else if s.flashClosed then s.nvEnd cNvWriteFailed
        else
          let c := s.copySource 0 host
          if c.2 = cImageRejected then (s.rejected { reason := 19 }).nvEnd cImageRejected
          else if c.2 ≠ 0 then s.nvEnd c.2
          else
            match s.checked c.1 true (how == .mismatch) with
            | (some r, _) => (s.rejected r).nvEnd cImageRejected
            | (none, code) => if code ≠ 0 then (s.engineServed code).nvEnd code else s.writeSlot (s.img.target slot) c.1 how)

/-- INVALIDATE (R281), after a load that runs: SLOT 0 is discarded. -/
def execInvalidate (slot : Nat) (s : State) : Out :=
  guarded (decide (slot < 4)) <|
    s.pf0 (fun s =>
      if s.img.nvBusy then s
      else
        let s := (s.stir.finishLoad).modImg (fun y => { y with nvSlot := slot })
        if slot = 0 ∨ slot = 3 then s
        else if s.flashClosed then s.nvEnd cNvWriteFailed
        else (s.modSlotB (slot == 2) (fun f => { f with commit := 0 })).nvEnd 0)

/-! ### Start-up selection (R282) -/

/-- Slots in the order of R282. -/
def ImageState.candidates (x : ImageState) : List Bool :=
  if x.slotA.valid ∧ x.slotB.valid then (if x.slotA.gen < x.slotB.gen then [true, false] else [false, true])
  else (if x.slotA.valid then [false] else []) ++ (if x.slotB.valid then [true] else [])

/-- Record a candidate that failed with a code: IMG_REJECT where it was rejected, and the candidate's IMG_STATUS.SOURCE. -/
def State.candidateFailed (s : State) (source code : Nat) : State :=
  s.record code { block := 2, loc0 := if code = cImageRejected then s.img.rejectWord else 0, loc1 := source }

/-- Try the candidates in order. `mismatch`: the evaluations of the first one's check disagree (R360). -/
def State.trySlots (s : State) : List Bool → Bool → State × Bool
  | [], _ => (s, false)
  | b :: r, mismatch =>
    let t := s.tryLoad (if b then 2 else 1) [] (if mismatch then .mismatch else .whole)
    let u := t.1.loadEnded t.2
    if t.2 = 0 then (u, true) else (u.candidateFailed (if b then 3 else 2) t.2).trySlots r false

/-- Select and load an image; with none, FACTORY_INVALID is fatal. -/
def State.selectImage (s : State) (i : SelectIn) : State :=
  let l := s.img.candidates
  let t := s.trySlots l i.mismatch
  if s.haltCode ≠ 0 then s
  else if t.2 then t.1
  else
    let f := if i.imageOk then t.1.tryLoad 3 [] (if i.mismatch ∧ l = [] then .mismatch else .whole)
      else (t.1.rejected { reason := 21 }, cImageRejected)
    let u := f.1.loadEnded f.2
    if f.2 = 0 then u
    else
      let loc := { block := 2, loc0 := if f.2 = cImageRejected then u.img.rejectWord else 0, loc1 := 4 : ErrLoc }
      ((u.candidateFailed 4 f.2).record cFactoryInvalid loc).fatalStop cFactoryInvalid

/-! ### Change of owner and plain scrub (R283 to R286) -/

/-- The plain-scrub value of REQ. -/
abbrev plainReq : Nat := 0x00000000FFFFFFFF
/-- An unused field of the owner record. -/
abbrev unusedReq : Nat := 2 ^ 64 - 1

/-- Some recorded request is a change of owner. -/
def OwnerState.isChange (o : OwnerState) : Bool := o.record.any (fun e => e.1 != unusedReq && e.2 == unusedReq && e.1 != plainReq)

/-- The structure is removed. Its FABRIC section stays in force until the scrub ends, so that packets for this module are refused
with an ABORT that reaches its neighbours (R313; assumption log 28). -/
def State.removeStructure (s : State) : State :=
  let s := s.each (upTo 8) (fun p y => y.dropPart p)
  s.modImg (fun y => { y with image := none, resultsDigest := 0, loadedFrom := 0 })

/-- Steps 3 to 5 of R285 as they start. -/
def State.scrubStart (s : State) (change : Bool) (samples : List Nat) : State :=
  let s := (s.stir.tearOthers (fun _ => false)).removeStructure
  let s := if change then
      ((s.stopNv cNvWriteFailed).modSlotB false (fun f => { f with commit := 0 })).modSlotB true (fun f => { f with commit := 0 })
    else s
  let s := s.secWipe change samples
  let s := s.modOwner (fun o => { o with unitsDone := 0, unitsTotal := s.capacityUnits })
  s.dropLines (fun _ => true)

/-- Request a change of owner or a plain scrub (R284, R285), after a load that runs (R275). -/
def State.ownerRequest (s : State) (change : Bool) (i : OwnerIn) : State :=
  if s.scrubbing then s
  else
    let s := s.finishLoad
    if ¬ i.flashOk ∨ ¬ s.pins.pwrGood then s.modOwner (fun o => { o with error := true, errCode := cNvWriteFailed })
    else
      let s := s.modOwner (fun o =>
        let l := if o.record.length = 4096 then [] else o.record
        { o with record := l ++ [(if change then 0 else plainReq, unusedReq)], change := change, pending := true, restarts := 0 })
      s.scrubStart change i.samples

/-- CHANGE (R283). -/
def execChange (i : OwnerIn) (s : State) : Out := guarded (samplesOk i.samples) (s.pf0 (fun s => s.ownerRequest true i))
/-- SCRUB (R283). -/
def execScrub (i : OwnerIn) (s : State) : Out := guarded (samplesOk i.samples) (s.pf0 (fun s => s.ownerRequest false i))

/-- Every line of every visible unit zero and unpoisoned; failing units withdrawn (R221, R226, R286), which are never written. -/
def State.scrubMemory (s : State) (failUnits : List Nat) : State :=
  let s := failUnits.foldl (fun x u => x.withdrawUnit (u / Config.unitsPerStack) (u % Config.unitsPerStack)) s
  { s with mem := s.mem.filter (fun e => s.isWithdrawn (unitKey e.1))
           poison := s.poison.filter (fun e => s.isWithdrawn (unitKey e.1))
           memc := { s.memc with fixups := [] } }.dropLines (fun _ => true)

/-- Scratchpads, control memories, tables, headers, queues and buffers zero (R285, step 5). -/
def State.scrubDies (s : State) : State :=
  { s with
    tiles := s.tiles.map (fun e => (e.1, { e.2 with
      spad := [], tags := [], tokq := [], tokHeld := [], acc0 := [], acc1 := [], finq := [], finPart := 0, gen := [] }))
    seqs := s.seqs.map (fun e => (e.1, { e.2 with params := [], ktab := [], cmem := [], cmemBad := [], optab := [], hdrs := [] }))
    epMem := [] }

/-- OWNER_CHANGE_SCRUB_DONE: the rest of step 5, then steps 6 to 8 of R285; a held installation of an owner key follows. -/
def execOwnerChangeScrubDone (failUnits : List Nat) (image : SelectIn) (s : State) : Out :=
  guarded (failUnits.all (fun u => decide (u < 12 * Config.unitsPerStack))) <|
    if ¬ s.scrubbing then s
    else
      let change := s.owner.change
      let s := (s.scrubMemory failUnits).scrubDies
      let s := s.modOwner (fun o => { o with
        unitsDone := o.unitsTotal, pending := false
        record := o.record.map (fun e => if e.1 ≠ unusedReq ∧ e.2 = unusedReq then (e.1, 0) else e) })
      let s := s.wipeEnd.modSec (fun c => { c with epoch := if change then (c.epoch + 1) % 2 ^ 64 else c.epoch })
      let s := ((s.setFabric { fabric := none }).selectImage image).heldInstalls
      let s := { s with pins := { s.pins with ready := true } }.ltr
      (s.modOwner (fun o => { o with done := true })).evAdmin

end Sys2Proof.Machine
end

