-- ==== Sys2Proof/Machine/Queues.lean ====
section
/-! DEFINITION. Host queues and work descriptors (R333 to R341; assumption log 31). -/

namespace Sys2Proof.Machine

/-- The partition a function serves, 255 for PF0. -/
def fnPart (n : Nat) : Nat := if n = 0 then 255 else n - 1

/-- A request on an IDE stream that fails its integrity check: discarded, the stream Insecure, the TDI in ERROR (R351, R353). -/
def State.ideFail (s : State) (n : Nat) : State :=
  let s := s.modFn n (fun x => { x with ideSecure := false })
  let s := if n = 0 then s else s.tdiError n
  s.record cIdeViolation { part := fnPart n, block := 10 }

/-- A request of a function reaches the module: it exists, its IDE check holds, and a running TDI came over its stream
(R325, R351, R352). Otherwise the request is discarded, as with no running firmware (R398), in D3hot, and over CXL.mem, which
reaches no register. It wakes the module (R342). -/
def State.request (s : State) (n : Nat) (t : Tlp) (f : State → State) : State :=
  if ¬ s.fnOn n ∨ s.fw.running = 2 ∨ (s.fn n).d3 = true ∨ t = .cxlMem ∨ t = .badCxlMem then s
  else
    let s := s.wake
    if t = .badIde then s.ideFail n
    else if (s.fn n).tdi = 2 ∧ t ≠ .ide then s.record cIdeViolation { part := fnPart n, block := 10 }
    else f s

/-- Stop a queue (R338). -/
def State.stopQueue (s : State) (n q code : Nat) : State :=
  ((s.modQp n q (fun x => { x with error := true, errCode := code })).report code { part := fnPart n, block := hostBlock }).ltr

/-! ### Doorbells and queue configuration -/

/-- Write SQ_TAIL (R338). A stopped queue takes the doorbell and fetches nothing. -/
def State.writeTail (s : State) (n q tail : Nat) : State :=
  let x := s.qp n q
  if ¬ x.enable then s
  else if 2 ^ x.sqLog ≤ tail then (if x.error then s else s.stopQueue n q cDoorbellInvalid)
  else (s.modQp n q (fun y => { y with tail := tail })).ltr

/-- Completions a ring holds (R337). -/
def QPair.held (x : QPair) : Nat := (x.cqTail + 2 ^ x.cqLog - x.head) % 2 ^ x.cqLog

/-- Write CQ_HEAD (R338). -/
def State.writeHead (s : State) (n q head : Nat) : State :=
  let x := s.qp n q
  if ¬ x.enable then s
  else if 2 ^ x.cqLog ≤ head ∨ x.held < (head + 2 ^ x.cqLog - x.head) % 2 ^ x.cqLog then
    (if x.error then s else s.stopQueue n q cDoorbellInvalid)
  else s.modQp n q (fun y => { y with head := head })

/-- Bits of QCFG that hold a field, without ENABLE (Table 12-10). -/
abbrev qcfgFields : Nat := pack [(0, 0x1F), (8, 0x1F), (16, 0xF), (24, 0xFF), (32, 0xFFFF)]

/-- A QCFG value comes into force (R333). -/
def QPair.config (x : QPair) (v : Nat) : QPair :=
  { x with sqLog := bits v 4 0, cqLog := bits v 12 8, vec := bits v 19 16, intCount := bits v 31 24, intUs := bits v 47 32 }

/-- QCFG as read: the value last stored. -/
def QPair.qcfg (x : QPair) : Nat := x.cfg + pack [(20, b2n x.enable)]

/-- A QCFG value that cannot enable a queue (R333). -/
def qcfgBad (v : Nat) : Bool :=
  let n := bits v 4 0
  let m := bits v 12 8
  decide (n < 4) || decide (16 < n) || decide (m < 4) || decide (16 < m) || bits v 19 16 == 15

/-- Write QCFG (R333). In TDI ERROR an enabled queue stays stopped (Table 13-5). -/
def State.writeQcfg (s : State) (n q v : Nat) : State :=
  let x := s.qp n q
  if s.tdiClosed n then s
  else if bit v 20 ∧ (x.enable ∨ qcfgBad v = true) then s.regAccess n hostBlock
  else if bit v 20 then
    let dead := (s.fn n).tdi == 3
    (s.modQp n q (fun y => { y.config v with
      cfg := v &&& qcfgFields, enable := true, error := dead, errCode := if dead then cTdiLocked else 0, sqHead := 0, tail := 0, head := 0, cqTail := 0
      phase := true, unsignalled := 0 })).ltr
  else (s.modQp n q (fun y => { y with cfg := v &&& qcfgFields, enable := false })).ltr

/-- Write WIN_BASE (R327). -/
def State.writeWin (s : State) (n v : Nat) : State :=
  let x := s.fn n
  if s.tdiClosed n then s
  else if v % 2 ^ x.barLog ≠ 0 ∨ (x.barLog = 41 ∧ v ≠ 0) then s.regAccess n hostBlock
  else s.modFn n (fun y => { y with winBase := v })

/-- SQ_TAIL. -/
def execSqTail (n q tail : Nat) (t : Tlp) (s : State) : Out :=
  guarded (decide (n < 9) && decide (q < 8) && decide (tail < 2 ^ 16)) (s.request n t (fun s => s.writeTail n q tail))

/-- CQ_HEAD. -/
def execCqHead (n q head : Nat) (t : Tlp) (s : State) : Out :=
  guarded (decide (n < 9) && decide (q < 8) && decide (head < 2 ^ 16)) (s.request n t (fun s => s.writeHead n q head))

/-- QCFG_WRITE. -/
def execQcfgWrite (n q : Nat) (v : Word) (t : Tlp) (s : State) : Out :=
  guarded (decide (n < 9) && decide (q < 8)) (s.request n t (fun s => s.writeQcfg n q v.toNat))

/-- WIN_BASE_WRITE. -/
def execWinBaseWrite (n : Nat) (v : Word) (t : Tlp) (s : State) : Out :=
  guarded (decide (n < 9)) (s.request n t (fun s => s.writeWin n v.toNat))

/-! ### Fetch and the checks of R335 -/

/-- The fields of a submission entry (Table 12-11). -/
def subEntryOf (w : BitVec 512) : SubEntry :=
  let v := w.toNat
  { opcode := bits v 7 0, cid := bits v 31 16, part := bits v 34 32, a0 := bits v 127 64, a1 := bits v 191 128, a2 := bits v 255 192
    a3 := bits v 319 256, reserved := pack [(0, bits v 15 8), (8, bits v 63 35), (37, bits v 511 320)] }

/-- The target partition of an entry (R334). -/
def entryPart (n : Nat) (e : SubEntry) : Nat := if n = 0 then e.part else n - 1

/-- Order 1: DESC_INVALID. Arguments an opcode does not use are not reserved fields (log 31). -/
def entryInvalid (n : Nat) (e : SubEntry) : Bool :=
  decide (7 < e.opcode) || e.reserved != 0 || (n != 0 && e.part != 0)
    || (e.opcode == 1 && (e.a2 % 16 != 0 || bits e.a1 7 6 != 0 || bits e.a1 63 33 != 0))
    || ((e.opcode == 4 || e.opcode == 5) && decide (2 ^ 40 ≤ e.a2))
    || (e.opcode == 6 && (e.a0 % 2048 != 0 || decide (4096 < e.a2)))

/-- Order 3: the device ranges known before the descriptor acts. -/
def entryRanges (e : SubEntry) : List (Nat × Nat) :=
  if e.opcode = 1 then (if bit e.a1 32 ∨ bits e.a1 31 8 = 0 then [] else [(e.a2, 16)])
  else if e.opcode = 2 ∨ e.opcode = 7 then [(e.a0, 128)]
  else if e.opcode = 4 then [(e.a1, e.a2)]
  else if e.opcode = 5 then [(e.a0, e.a2)]
  else if e.opcode = 6 then [(e.a0, 128), (e.a1, 8 * e.a2)]
  else []

/-- The loaded package an entry names. -/
def State.entryPackage (s : State) (p : Nat) (e : SubEntry) : Option Package := (s.part p).pkgs.find? (fun g => g.id == e.a0)

/-- Order 4: PACKAGE_UNKNOWN. -/
def State.entryUnknown (s : State) (p : Nat) (e : SubEntry) : Bool :=
  (e.opcode == 1 || e.opcode == 3) &&
    match s.entryPackage p e with
    | some g => e.opcode == 1 && decide (g.kernels.length ≤ bits e.a1 5 0)
    | none => true

/-- The checks of R335 in order, after the module-wide states of R382 and R404; 0 or a code. -/
def State.entryCode (s : State) (n : Nat) (e : SubEntry) : Nat :=
  let p := entryPart n e
  if s.haltCode ≠ 0 then s.haltCode
  else if entryInvalid n e then cDescInvalid
  else if n = 0 ∧ s.tdiClosed (p + 1) then cTdiLocked
  else if ¬ s.isUp p then cPartitionDown
  else if (entryRanges e).any (fun r => !s.inStacks p r.1 r.2) then cHostBounds
  else if (e.opcode = 4 ∨ e.opcode = 5) ∧ (entryRanges e).any (fun r => r.2 != 0 && s.meetsNoise p r.1 r.2) then cHostBounds
  else if s.entryUnknown p e then cPackageUnknown
  else 0

/-- A queue may fetch (R333, R336 to R338): one descriptor at a time, with a completion slot to reserve. -/
def QPair.fetches (x : QPair) : Bool :=
  x.enable && !x.error && x.desc.isNone && x.tail != x.sqHead && decide (x.held < 2 ^ x.cqLog - 1)

/-- Take the next entry of a queue and check it (R335). The service core of its partition fetches it (R406). -/
def State.fetchEntry (s : State) (n q : Nat) (e : SubEntry) : State :=
  let x := s.qp n q
  let p := entryPart n e
  if (s.core (s.part p).core).state ≠ 0 then s
  else
    let h := (x.sqHead + 1) % 2 ^ x.sqLog
    let d : Desc := { entry := e, part := p, sqHead := h, order := s.host.fetches }
    let s := { s with host := { s.host with fetches := s.host.fetches + 1 } }
    let s := s.modQp n q (fun y => { y with sqHead := h, desc := some d })
    let c := s.entryCode n e
    if c ≠ 0 then s.post n q c (s.failResult p e.opcode) else s.ltr

/-- DESCRIPTOR_FETCH by a function that exists and is in D0; none: host memory did not answer (R338). -/
def execDescriptorFetch (n q : Nat) (entry : Option (BitVec 512)) (s : State) : Out :=
  guarded (decide (n < 9) && decide (q < 8)) <|
    if ¬ s.fnOn n ∨ (s.fn n).d3 = true ∨ ¬ (s.qp n q).fetches then s
    else
      match entry with
      | none => s.stopQueue n q cHostDma
      | some w => s.fetchEntry n q (subEntryOf w)

/-- Run the fetched descriptor of a queue when it has an opcode and its service core runs. -/
def State.withDesc (s : State) (n q op : Nat) (f : Desc → State) : State :=
  match (s.qp n q).desc with
  | some d => if d.entry.opcode = op ∧ ¬ d.running ∧ (s.core (s.part d.part).core).state = 0 then f d else s
  | none => s

/-- A fetched descriptor whose core had begun it is cut off (R396, R406): the destination bytes of a copy or of a context save are
undefined, so free. A package load or a context restore leaves nothing that outlives it. -/
def State.spoil (s : State) (d : Desc) : State :=
  let e := d.entry
  let free := fun (n : Nat) => freeBytes s.free n
  let s := { s with free := s.free + 1 }
  if e.opcode = 4 then (s.storeP d.part e.a1 (free e.a2)).1
  else if e.opcode = 5 then { s with host := { s.host with mem := memWrite s.host.mem e.a1 (free e.a2) } }
  else if e.opcode = 6 then (s.storeP d.part e.a0 (free (s.saveContext d.part e.a0 e.a1 e.a2).2.2)).1
  else s

/-- Complete a descriptor with a state, a code and its RESULT. -/
def State.finish (n q : Nat) (r : State × Nat × Nat) : State := r.1.post n q r.2.1 r.2.2

/-! ### The descriptors (Table 12-12) -/

/-- NOP: RESULT 0. -/
def execNopDescriptor (n q : Nat) (s : State) : Out :=
  guarded (descOk n q) (s.withDesc n q 0 (fun _ => s.post n q 0 0))

/-- No RUN of the partition was fetched before and waits (R336). -/
def State.firstRun (s : State) (d : Desc) : Bool :=
  (upTo 9).all (fun n => (upTo 8).all (fun q =>
    match (s.qp n q).desc with
    | some e => !(e.entry.opcode == 1 && !e.running && e.part == d.part && decide (e.order < d.order))
    | none => true))

/-- Start a RUN's kernel (R107, R125): its list or its defaults; P0 to P3 are the translator's, so free. -/
def State.startRun (s : State) (n q : Nat) (d : Desc) (k : PkgKernel) : State :=
  let e := d.entry
  let z := (s.part d.part).seq
  let noList := bit e.a1 32
  let s := s.modQp n q (fun x => { x with desc := some { d with running := true } })
  let v := s.draw
  let own := fun (m : SMap Word) => (upTo 4).foldl (fun m i => smSet 0 m i (BitVec.ofNat 64 (Config.freeAt s.free i))) m
  let s := v.2.modSeq z (fun x => { x with
    replayBase := if noList then x.replayBase else e.a2
    params := own (if noList then (upTo 12).foldl (fun m i => smSet 0 m (i + 4) (BitVec.ofNat 64 (k.defaults.getD i 0))) x.params
      else x.params) })
  s.startKernel z k.ktab (bits e.a1 31 8) noList (some { fn := n, qp := q, cid := e.cid, pkg := e.a0 })

/-- RUN (R336): in fetch order, when the sequencer is idle. -/
def execRun (n q : Nat) (s : State) : Out :=
  guarded (descOk n q) <|
    s.withDesc n q 1 (fun d =>
      if (s.pseq d.part).state ≠ 0 ∨ ¬ s.firstRun d then s
      else
        match (s.entryPackage d.part d.entry).bind (fun g => g.kernels[bits d.entry.a1 5 0]?) with
        | some k => s.startRun n q d k
        | none => s.post n q cPackageUnknown (s.failResult d.part 1))

/-- LOAD_PKG (R132, R136). -/
def execLoadPkg (n q : Nat) (s : State) : Out :=
  guarded (descOk n q) (s.withDesc n q 2 (fun d => State.finish n q (s.loadPackage d.part d.entry.a0)))

/-- UNLOAD_PKG (R136). -/
def execUnloadPkg (n q : Nat) (s : State) : Out :=
  guarded (descOk n q) <|
    s.withDesc n q 3 (fun d =>
      match s.entryPackage d.part d.entry with
      | some g =>
        let r := s.unloadPackage d.part g
        State.finish n q (r.1, r.2, 0)
      | none => s.post n q cPackageUnknown 0)

/-! ### Copies (R340) -/

/-- Pieces of a device range within its lines, with their offsets. -/
def piecesOf (a n : Nat) : List (Nat × Nat) :=
  (linesOf a n).map (fun l =>
    let b := max l a
    (b - a, min (l + 128) (a + n) - b))

/-- Report HOST_DMA of a copy. -/
def State.copyDma (s : State) (p : Nat) : State := s.report cHostDma { part := p, block := hostBlock }

/-- Copy pieces in; the code of the first that fails. `host` holds the bytes read before the host failed. -/
def State.copyInPieces (p a : Nat) (host : List Byte) : List (Nat × Nat) → State → State × Nat
  | [], s => (s, 0)
  | (o, m) :: r, s =>
    if host.length < o + m then (s.copyDma p, cHostDma)
    else
      let w := s.storeP p (a + o) ((host.drop o).take m)
      if w.2 ≠ 0 then (w.1.report w.2 (memLoc (lineOf (a + o)) hostBlock), w.2) else State.copyInPieces p a host r w.1

/-- COPY_IN: `host` is what the host read answered, shorter than the count where it failed. -/
def execCopyIn (n q : Nat) (host : List Byte) (s : State) : Out :=
  guarded (descOk n q) <|
    s.withDesc n q 4 (fun d =>
      let r := State.copyInPieces d.part d.entry.a1 host (piecesOf d.entry.a1 d.entry.a2) s
      State.finish n q (r.1, r.2, if r.2 = 0 then d.entry.a2 else 0))

/-- What a copy out reads (R340): the bytes, zeros for a bad line, and the first bad line's code and offset. -/
def State.copyOutRead (s : State) (a : Nat) (ps : List (Nat × Nat)) : List Byte × Nat × Nat :=
  let bad := ps.find? (fun x => s.lineCode (a + x.1) != 0)
  (ps.flatMap (fun x => if s.lineCode (a + x.1) = 0 then s.load (a + x.1) x.2 else List.replicate x.2 0#8),
    match bad with
    | some x => (s.partialCode (a + x.1), x.1)
    | none => (0, 0))

/-- COPY_OUT: the host took the first `hostOkBytes` bytes. -/
def execCopyOut (n q : Nat) (hostOkBytes : Nat) (s : State) : Out :=
  guarded (descOk n q) <|
    s.withDesc n q 5 (fun d =>
      let a := d.entry.a0
      let ps := piecesOf a d.entry.a2
      let good := ps.filter (fun x => decide (x.1 + x.2 ≤ hostOkBytes))
      let x := s.copyOutRead a good
      let s := (good.filter (fun y => s.lineCode (a + y.1) != 0)).foldl (fun (z : State) y =>
        z.report (z.partialCode (a + y.1)) (memLoc (lineOf (a + y.1)) hostBlock)) s
      let s := s.delivered (good.map (fun y => a + y.1)) true
      let s := { s with host := { s.host with mem := memWrite s.host.mem d.entry.a1 x.1 } }
      if good.length ≠ ps.length then State.finish n q (s.copyDma d.part, cHostDma, 0)
      else if x.2.1 ≠ 0 then State.finish n q (s, x.2.1, x.2.2)
      else State.finish n q (s, 0, d.entry.a2))

/-- CTX_SAVE (R141). -/
def execCtxSave (n q : Nat) (s : State) : Out :=
  guarded (descOk n q) (s.withDesc n q 6 (fun d => State.finish n q (s.saveContext d.part d.entry.a0 d.entry.a1 d.entry.a2)))

/-- CTX_RESTORE (R142, R143). -/
def execCtxRestore (n q : Nat) (s : State) : Out :=
  guarded (descOk n q) <|
    s.withDesc n q 7 (fun d =>
      let r := s.restoreContext d.part d.entry.a0
      State.finish n q (r.1, r.2, 0))

/-- INTERRUPT_TIMER (R339): INT_US after the first unsignalled completion; 0 disables the timer. -/
def execInterruptTimer (n q : Nat) (s : State) : Out :=
  guarded (descOk n q) <|
    let x := s.qp n q
    if x.unsignalled = 0 ∨ x.intUs = 0 ∨ s.now - x.firstTime < x.intUs * Config.ticksPerUs then s
    else (s.modQp n q (fun y => { y with unsignalled := 0 })).msi n x.vec

end Sys2Proof.Machine
end

