-- ==== Sys2Proof/Machine/HostLink.lean ====
section
/-! DEFINITION. The BAR2 window, the link, function-level resets and configuration accesses (R323 to R328, R394;
assumption log 32). -/

namespace Sys2Proof.Machine

/-! ### BAR2 (Table 12-4) -/

/-- Order 2: outside the partition of a VF, or in the stacks of an isolated one for PF0 (R353). -/
def State.windowClosed (s : State) (n a : Nat) : Bool :=
  let k := stackNo a
  if n = 0 then (upTo 8).any (fun p => s.tdiClosed (p + 1) && bit (s.part p).stks k)
  else decide (Config.stackTop ≤ a) || !bit (s.part (n - 1)).stks k

/-- Every stack is closed to the host: TRIPPED, a module-fatal state, or a scrub (R286, R382, R404). -/
def State.windowShut (s : State) : Bool := s.haltCode != 0 || s.scrubbing

/-- The outcome of one piece within a line: 2 bounds, 3 noise region, else 0 with the memory code. -/
def State.windowCode (s : State) (n a : Nat) : Nat × Nat :=
  if s.windowClosed n a then (2, 0) else if s.inNoise a then (3, 0) else (0, s.lineCode a)

/-- The pieces of a window access at a device address, as addresses and lengths. -/
def windowPieces (a len : Nat) : List (Nat × Nat) := (piecesOf a len).map (fun y => (a + y.1, y.2))

/-- The bytes of one piece of a BAR2 read. -/
def State.windowBytes (s : State) (n : Nat) (y : Nat × Nat) : List Byte :=
  if (s.windowCode n y.1).1 = 0 then s.load y.1 y.2 else List.replicate y.2 0#8

/-- A window read of a function at a device address: EP and the data (Table 12-4). -/
def State.windowRead (s : State) (n a len : Nat) : State × Bool × List Byte :=
  let ps := windowPieces a len
  if (s.fn n).tdi = 3 ∨ s.windowShut = true then (s, false, List.replicate len 0#8)
  else
    let out := ps.any (fun y => (s.windowCode n y.1).1 == 2)
    let bad := ps.filter (fun y => (s.windowCode n y.1).2 != 0)
    let t := if out then s.evAccess n cHostBounds else s
    let t := bad.foldl (fun (z : State) y => z.report (s.windowCode n y.1).2 (memLoc (lineOf y.1) hostBlock)) t
    (t.delivered ((ps.filter (fun y => (s.windowCode n y.1).1 == 0)).map Prod.fst) true, !bad.isEmpty,
      if bad.isEmpty then ps.flatMap (s.windowBytes n) else List.replicate len 255#8)

/-- The CXL IDE stream meets a failed integrity check: the flit is discarded, the stream Insecure (R351). -/
def State.cxlIdeFail (s : State) : State :=
  { s with host := { s.host with cxlIde := false } }.record cIdeViolation { block := 10 }

/-- A window access reaches a device address: offset x of the function's BAR2 (R327), or over CXL.mem address x of the HDM range
with PF0 as the requester (R322, R323). One outside the BAR or the range reaches nothing. -/
def State.window (s : State) (n x len : Nat) (t : Tlp) (f : State → Nat → State) : State :=
  if t = .cxlMem ∨ t = .badCxlMem then
    if n ≠ 0 ∨ s.host.mode = 0 ∨ s.host.hdm = none ∨ s.fw.running = 2 ∨ Config.stackTop < x + len then s
    else if t = .badCxlMem then (if s.host.mode = 2 then s.wake.cxlIdeFail else s)
    else f s.wake.stir x
  else s.request n t (fun s => if 2 ^ (s.fn n).barLog < x + len then s else f s.stir ((s.fn n).winBase + x))

/-- BAR2_READ: the completion's EP bit and its data as a number. -/
def execBar2Read (n x len : Nat) (t : Tlp) (s : State) : Out :=
  guarded (decide (n < 9) && decide (x < 2 ^ 41) && decide (len ≤ 4096)) <|
    s.window n x len t (fun s a =>
      let r := s.windowRead n a len
      r.1.deliver [b2n r.2.1, ofBytes r.2.2])

/-- One piece of a BAR2 write: the state, and the code recorded. -/
def State.windowPut (s : State) (n a : Nat) (d : List Byte) : State × Nat :=
  let c := s.windowCode n a
  if c.1 = 2 then (s, cHostBounds)
  else if c.1 = 3 then (s, 0)
  else
    let w := s.storeH a d
    (if w.2 = 0 then w.1 else w.1.report w.2 (memLoc (lineOf a) hostBlock), w.2)

/-- Pieces of a BAR2 write, the first recorded code first. -/
def State.windowWrite (n a : Nat) (d : List Byte) : List (Nat × Nat) → State × Nat → State × Nat
  | [], r => r
  | y :: l, r =>
    let w := r.1.windowPut n y.1 ((d.drop (y.1 - a)).take y.2)
    State.windowWrite n a d l (w.1, if r.2 ≠ 0 then r.2 else w.2)

/-- BAR2_WRITE: performed, discarded, or its code recorded (Table 12-4). -/
def execBar2Write (n x : Nat) (data : List Byte) (t : Tlp) (s : State) : Out :=
  guarded (decide (n < 9) && decide (x < 2 ^ 41) && decide (data.length ≤ 4096)) <|
    s.window n x data.length t (fun s a =>
      if (s.fn n).tdi = 3 ∨ s.windowShut = true then s
      else
        let r := State.windowWrite n a data (windowPieces a data.length) (s, 0)
        if r.2 = 0 then r.1 else r.1.evAccess n r.2)

/-! ### The link (R321, R322, R324) -/

/-- A speed and width of the link that the mode supports. -/
def linkOk (mode speed width : Nat) : Bool :=
  decide (1 ≤ speed) && decide (speed ≤ if mode = 1 then 2 else 3) && [1, 2, 4, 8, 16].contains width

/-- LINK_RETRAIN: not without REFCLK (R419); a lower rate or a narrower width than before records LINK_DEGRADED. -/
def execLinkRetrain (speed width : Nat) (s : State) : Out :=
  guarded (decide (speed < 8) && decide (width < 32)) <|
    if ¬ linkOk s.host.mode speed width ∨ ¬ s.pins.refclk then s
    else
      let h := s.host
      let s := { s with host := { s.host with speed := speed, width := width } }
      if speed < h.speed ∨ width < h.width then s.record cLinkDegraded { block := hostBlock } else s

/-! ### Function-level resets (R328, R394) -/

/-- Abandon every fetched descriptor of a function. -/
def State.abandonFn (s : State) (n : Nat) : State := s.each (upTo 8) (fun q x => x.abandon n q)

/-- Stop the running kernel of a partition that exists. -/
def State.stopPart (s : State) (p : Nat) : State := if (s.part p).tiles = 0 then s else s.stopChecked (s.part p).seq

/-- A function-level reset of VF n (R328, R353). -/
def State.resetVf (s : State) (n : Nat) : State :=
  ((((s.abandonFn n).stopPart (n - 1)).tdiError n).resetPage n).ltr

/-- VF_FUNCTION_LEVEL_RESET. -/
def execVfFunctionLevelReset (n : Nat) (s : State) : Out :=
  guarded (decide (n < 9)) (if s.vfOn n then s.resetVf n else s)

/-- Configuration space and BARs of every function at reset (R395). -/
def State.resetBars (s : State) : State :=
  { s with host := { s.host with
      aspm := false, ptm := false, hdm := none
      fns := s.host.fns.map (fun e => (e.1, { e.2 with
        barLog := 41, winBase := 0, d3 := false, mps := 0, mrrs := 2, aerMask := 0, msixTab := [], msixMask := [], msixPend := [] })) } }

/-- PF0_FUNCTION_LEVEL_RESET (R394). -/
def execPf0FunctionLevelReset (s : State) : Out :=
  guarded true <|
    let s := (s.abandonFn 0).each (upTo s.host.numVf) (fun i x => x.resetVf (i + 1))
    let s := s.each (upTo 8) (fun p x => x.stopPart p)
    let s := (s.allTdiError.resetPage 0).resetBars
    let before := s.offered
    let s := { s with host := { s.host with numVf := 0, latTol := 0xFFFFFFFF }, ras := { s.ras with cause := 9 } }
    (s.advertise before).ltr

/-! ### Configuration accesses (R325, R326, R371) -/

/-- BAR2 of a function gets 2^z bytes; a change of the size returns WIN_BASE to 0 (R327). -/
def State.resizeBar (s : State) (n z : Nat) : State :=
  s.modFn n (fun x => if x.barLog = z then x else { x with barLog := z, winBase := 0 })

/-- A Resizable BAR change (R326): the VFs share one size, and none changes while a TDI closes the BAR configuration of one of them
(Table 13-5). -/
def State.resizeBars (s : State) (n z : Nat) : State :=
  if z < 32 ∨ 41 < z then s
  else if n = 0 then s.resizeBar 0 z
  else if (upTo 8).any (fun i => s.tdiClosed (i + 1)) then s
  else s.each (upTo 8) (fun i x => x.resizeBar (i + 1) z)

/-- NumVFs (R325): a VF that goes is reset as by a function-level reset. -/
def State.setNumVfs (s : State) (k : Nat) : State :=
  let s := s.each ((upTo s.host.numVf).filter (fun i => decide (k ≤ i))) (fun i x => x.resetVf (i + 1))
  { s with host := { s.host with numVf := k } }

/-- Write an entry of the MSI-X table; a vector that was pending is sent once it is not masked. -/
def State.writeVector (s : State) (n v a d : Nat) (masked : Bool) : State :=
  let was := smGet false (s.fn n).msixPend v
  let s := s.modFn n (fun x => { x with msixTab := smSet (0, 0) x.msixTab v (a, d), msixMask := smSet false x.msixMask v masked })
  if was ∧ ¬ masked then (s.modFn n (fun x => { x with msixPend := smSet false x.msixPend v false })).msi n v else s

/-- The effect of a configuration access to functions that exist (assumption log 32). -/
def State.configure (s : State) (a : CfgAccess) : State :=
  match a with
  | .bar2Size n z => s.resizeBars n z
  | .numVfs k => s.setNumVfs k
  | .powerState n d3 => s.modFn n (fun x => { x with d3 := d3 })
  | .maxPayload n c => s.modFn n (fun x => { x with mps := c })
  | .maxRead n c => s.modFn n (fun x => { x with mrrs := c })
  | .msixVector n v a d masked => s.writeVector n v a d masked
  | .aspm on => { s with host := { s.host with aspm := on } }
  | .ptm on => { s with host := { s.host with ptm := on } }
  | .aerMask n m => s.modFn n (fun x => { x with aerMask := m })
  | .hdmDecoder b => if s.host.mode = 0 then s else { s with host := { s.host with hdm := b } }
  | .readId n => s.deliver [pack [(0, s.pins.vendor), (16, if n = 0 then 0x0C12 else 0x0C13)]]
  | .other => s

/-- CONFIGURATION_ACCESS: it wakes the module (R371); before the module is ready it is answered with Request Retry Status (R390). -/
def execConfigurationAccess (a : CfgAccess) (s : State) : Out :=
  guarded (cfgOk a) <|
    if ¬ s.pins.ready then { s with host := { s.host with retry := true } }
    else { s.wake with host := { s.wake.host with retry := false } }.configure a

end Sys2Proof.Machine
end

