-- ==== Sys2Proof/Machine/Issue.lean ====
section
/-! DEFINITION. Issue (R86 to R93, R101 to R104): the next control word of a kernel, or the next instruction of a package's
kernel, with its waits; Glahus commands that wait (assumption logs 15 and 29). -/

namespace Sys2Proof.Machine

/-- The effect of a Glahus instruction by its opcode (Table 5-4), but for SEND and RECV, which only a package's kernel has. -/
def State.glahus (s : State) (p o : Nat) (g : GInstr) : State :=
  match o with
  | 0x0001 => runWaitt p g s
  | 0x0002 => runEmitt p g s
  | 0x0100 => runLdct p g s
  | 0x0101 => runStct p g s
  | 0x0102 => runBind p g s
  | 0x0103 => runLdl p g s
  | 0x0104 => runStl p g s
  | 0x0105 => runLdt p g s
  | 0x0106 => runStt p g s
  | 0x0200 => runLadd p g s
  | 0x0201 => runLsub p g s
  | 0x0202 => runLneg p g s
  | 0x0203 => runLmul p g s
  | 0x0204 => runLmac p g s
  | 0x0205 => runLmulc p g s
  | 0x0206 => runLntt p g s
  | 0x0207 => runLintt p g s
  | 0x0208 => runLaut p g s
  | 0x0300 => runCadd p g s
  | 0x0301 => runCsub p g s
  | 0x0302 => runCneg p g s
  | 0x0303 => runCaddp p g s
  | 0x0304 => runCmulp p g s
  | 0x0305 => runCmul p g s
  | 0x0306 => runCmuli p g s
  | 0x0307 => runRelin p g s
  | 0x0308 => runRot p g s
  | 0x0309 => runKsw p g s
  | 0x030A => runModup p g s
  | 0x030B => runModdown p g s
  | 0x030C => runRescale p g s
  | 0x030D => runModsw p g s
  | 0x030E => runDrop p g s
  | 0x030F => runToeval p g s
  | 0x0310 => runTocoef p g s
  | 0x0311 => runEncpk p g s
  | 0x0312 => runModraise p g s
  | 0x0313 => runBootclose p g s
  | 0x0314 => runFlood p g s
  | 0x0400 => runMmul p g s
  | 0x0401 => runVpass p g s
  | 0x0402 => runRseed p g s
  | 0x0502 => runAllred p g s
  | 0x0503 => runBcast p g s
  | 0x0504 => runGather p g s
  | _ => runNop p {} s

/-! ### Glahus commands that wait -/

/-- Run commands that waited, in order, until one of them is a WAITT that waits again. -/
def State.runHeld (p : Nat) : List (Nat × GInstr) → State → State
  | [], s => s
  | (o, g) :: r, s =>
    let s := s.glahus p o g
    if (s.part p).held.isEmpty then State.runHeld p r s else s.modPart p (fun x => { x with held := x.held ++ r })

/-- The first command that waits, and those behind it. -/
def State.heldCmds (s : State) (p : Nat) : List (Nat × GInstr) := if s.gReady p then (s.part p).held else []

/-- Release a WAITT command whose tokens are there (R101), a token with an error discarding what waited behind it (R102), or a
collective whose earlier instance has ended. -/
def State.heldRelease (s : State) (p : Nat) : State :=
  match s.heldCmds p with
  | (o, g) :: r =>
    if o ≠ 0x0001 then
      if (s.coll g.f1).isOpen then s else State.runHeld p ((o, g) :: r) (s.modPart p (fun x => { x with held := [] }))
    else if s.tokensReady p g.f0 g.f1 then
      let s := (s.modPart p (fun x => { x with held := [] })).waittTake p g
      if (s.part p).gCode = 0 then State.runHeld p r s else s
    else s
  | [] => s

/-- End a WAITT command that waits with a fault, and discard what waited behind it (R104, R114). -/
def State.heldEnd (s : State) (p code : Nat) : State :=
  if (s.heldCmds p).isEmpty then s else (s.modPart p (fun x => { x with held := [] })).gFault p code

/-! ### The instructions of a package's kernel -/

/-- The next instruction of a package's kernel; none where the kernel's words run. -/
def State.nextInstr (s : State) (q : Nat) : Option (BitVec 256) :=
  let k := s.kern q
  k.prog.map (fun l => l.getD k.pos 0)

/-- A fault of an instruction: its operation's effects are its own. -/
def State.instrFault (s : State) (q stage code : Nat) (tokens : Bool) : State :=
  let (i, w, _) := s.nextWord q
  s.addFault q { cycle := (s.seq q).count, order := (s.kern q).nextOrder, stage := stage, code := code, opid := wOpid w
                 word := i, bare := true, keyAbort := tokens, replay := (s.kern q).replay }

/-- After an instruction: its schedule cycles pass (the translator's, so open: assumption log 29), and the next one follows. -/
def State.instrDone (s : State) (q : Nat) (v : BitVec 256) : State :=
  let n := Config.translatedCycles v (s.part (s.seqP q)).tiles
  let s := s.modKern q (fun k => { k with nextOrder := k.nextOrder + 1, waitSince := none, collWait := none, msgWait := none })
  (s.modSeq q (fun x => { x with state := 1, count := x.count + n })).stepOn q

/-- Start a wait of the kernel. -/
def State.beginWait (s : State) (q : Nat) : State :=
  (s.modSeq q (fun x => { x with state := 2 })).modKern q (fun k => { k with waitSince := some s.now })

/-- First row of the translator's own rows in every tile (R123). -/
abbrev stagingRow : Nat := 40960

/-- The endpoint command of a SEND or RECV of a package's kernel, in the tile that holds its region's first block, and whether it
works on staging rows: a region that is no run of whole rows of one tile is gathered there before a SEND, and scattered after
a RECV (R124, R239; what the instruction does not name is the translator's: assumption log 29). -/
def State.messageCmd (s : State) (p : Nat) (g : GInstr) (isSend : Bool) : Nat × EpCmd × Bool :=
  let r := s.region p (if isSend then g.ry else g.rx)
  let w := s.lgPlace p r.base
  let rows := decide (r.base % 128 = 0) && (decide (r.stride = 1) || decide (r.count ≤ 1))
    && decide (w.2 / 128 + r.count ≤ stagingRow)
  (w.1, { index := g.f0, row := if rows then w.2 / 128 else stagingRow, len := min (128 * r.count) (2 ^ 14 - 1),
                   doneQ := Config.messageQueue % 7 }, !rows)

/-- Gather the blocks of a SEND's region into staging rows; a block of which a row is invalid leaves its row invalid. -/
def State.stageSend (s : State) (p t : Nat) (r : Region) : State :=
  s.each (upTo r.count) (fun c x =>
    let a := (r.blockAt c).toNat
    if x.lgFits p (r.blockAt c) 128 ∧ x.lgValid p a 128 then x.writeRows t (stagingRow + c) (x.lgRead p a 128) 0
    else x.invalidRows t (stagingRow + c) 1)

/-- Scatter the staging rows that a RECV filled over its region's blocks. -/
def State.unstageRecv (s : State) (p t : Nat) (r : Region) : State :=
  s.each (upTo r.count) (fun c x =>
    if x.lgFits p (r.blockAt c) 128 ∧ x.rowsValid t (stagingRow + c) 1 then
      x.lgWrite p (r.blockAt c).toNat (x.rowBytes t (stagingRow + c) 128) 0 else x)

/-- A SEND or RECV of a package's kernel: the queue-7 token triggers the tile's command, and its completion is waited for
(R104, R240). -/
def State.issueMessage (s : State) (q : Nat) (g : GInstr) (isSend : Bool) : State :=
  let p := s.seqP q
  let c := s.messageCmd p g isSend
  let idx := (s.kern q).pos % 256
  let ep := c.1 - p * (s.part p).tiles
  let s := if ¬ c.2.2 then s
    else if isSend then s.stageSend p c.1 (s.region p g.ry) else s.invalidRows c.1 stagingRow (s.region p g.rx).count
  let s := s.emitTile c.1 7 { source := 2, tag := idx }
  let s := s.trigger p ep idx (epCmdBits (if isSend then 1 else 2) c.2.1)
  (s.beginWait q).modKern q (fun k => { k with msgWait := some (c.1, c.2.1.doneQ, idx) })

/-- Run the next instruction of a package's kernel (R122, R134): a WAITT waits, a message's or a collective's end is waited for,
a fault stops the kernel (R114). -/
def State.issueInstr (s : State) (q : Nat) (v : BitVec 256) : State :=
  let p := s.seqP q
  let o := bits v.toNat 15 0
  let g := gInstrOf v.toNat
  if o = 0x0001 then s.beginWait q
  else if 0x0502 ≤ o ∧ o ≤ 0x0504 ∧ (s.coll g.f1).isOpen then s
  else if o = 0x0500 ∨ o = 0x0501 then s.issueMessage q g (o == 0x0500)
  else
    let s := s.glahus p o g
    let c := (s.part p).gCode
    if c ≠ 0 then s.instrFault q stWrite c (s.part p).gTokens
    else if 0x0502 ≤ o ∧ o ≤ 0x0504 ∧ (s.coll g.f1).isOpen then
      (s.beginWait q).modKern q (fun k => { k with collWait := some g.f1 })
    else s.instrDone q v

/-- Release the wait for a message's completion: its token, with its status. -/
def State.messageRelease (s : State) (q : Nat) (v : BitVec 256) (t queue idx : Nat) : State :=
  match s.tokens t queue with
  | [] => s
  | k :: _ =>
    if k.source ≠ 3 ∨ k.tag ≠ idx then s
    else
      let s := s.takeToken t queue
      let p := s.seqP q
      let g := gInstrOf v.toNat
      if k.status ≠ 0 then s.waitFault q k.status t true false
      else if bits v.toNat 15 0 = 0x0501 ∧ (s.messageCmd p g false).2.2 then
        (s.unstageRecv p t (s.region p g.rx)).instrDone q v
      else s.instrDone q v

/-- Release a wait of a package's kernel: a message that has ended, a WAITT whose tokens are there, or a collective that has
ended, with its code. -/
def State.instrRelease (s : State) (q : Nat) (v : BitVec 256) : State :=
  let p := s.seqP q
  let g := gInstrOf v.toNat
  match (s.kern q).msgWait, (s.kern q).collWait with
  | some (t, queue, idx), _ => s.messageRelease q v t queue idx
  | none, some c =>
    if (s.coll c).isOpen then s
    else
      let code := (s.part p).gCode
      let s := if s.tokensReady p (Config.collQueue % 8) 1 then s.takeTokens p (Config.collQueue % 8) 1 else s
      if code ≠ 0 then s.waitFault q code 0 true false else s.instrDone q v
  | none, none =>
    if s.tokensReady p g.f0 g.f1 then
      let st := s.tokenStatus p g.f0 g.f1
      let s := s.takeTokens p g.f0 g.f1
      if st.1 ≠ 0 then s.waitFault q st.1 st.2 true false else s.instrDone q v
    else s

/-! ### Commands -/

/-- What a fetch or a broadcast meets is noted for the word's issue (R107, R112). -/
def State.noteFetch (s : State) (q : Nat) (e : FetchErr) : State :=
  match e with
  | .ok => s
  | .cmem => s.modSeq q (fun x => { x with cmemBad := smSet false x.cmemBad (s.nextWord q).1 true })
  | .bridge => s.modKern q (fun k => { k with bridgeBad := true })

/-- OPERATE and NOP_WORD: the next word, of the given KIND, issues; with WAIT_EN it starts to wait (R88, R101). A word whose
fetch failed raises its fault at once, whatever its other fields say (assumption log 37). -/
def State.operateWord (s : State) (q kind : Nat) (e : FetchErr) : State :=
  let x := s.seq q
  let k := s.kern q
  let (_, w, bad) := s.nextWord q
  if x.state ≠ 1 ∨ x.kern.isNone ∨ ¬ k.bounded ∨ (wKind w ≠ kind ∧ ¬ bad ∧ e ≠ .cmem) ∨ s.arrayFrozen q ∨ s.haltCode ≠ 0 then s
  else
    let s := (s.advance q x.count).settle q
    if (s.seq q).state ≠ 1 then s
    else
      let s := s.noteFetch q e
      if (s.nextWord q).2.2 then s.issueWord q
      else
        match s.nextInstr q with
        | some v => if (s.kern q).bridgeBad ∧ s.seqDies q then s.issueWord q else s.issueInstr q v
        | none => if wWaitEn w then s.beginWait q else s.issueWord q

/-- OPERATE (R89): a word of KIND 1, or an instruction of a package's kernel. -/
def execOperate (w : WordIn) (s : State) : Out := guarded (decide (w.seq < 8)) (s.operateWord w.seq 1 w.fetch)

/-- NOP_WORD (R87, R89): a word of KIND 0 advances the schedule counter. -/
def execNopWord (w : WordIn) (s : State) : Out := guarded (decide (w.seq < 8)) (s.operateWord w.seq 0 w.fetch)

/-- Release the wait of a word (R101, R102): the tokens leave every tile and the word issues; a token with an error stops the
kernel, an operation's failed key check with its tokens (R62). -/
def State.wordRelease (s : State) (q : Nat) : State :=
  let w := (s.nextWord q).2.1
  let p := s.seqP q
  if s.tokensReady p (wWaitQ w) (wWaitN w) then
    let st := s.tokenStatus p (wWaitQ w) (wWaitN w)
    let s := s.takeTokens p (wWaitQ w) (wWaitN w)
    let o := bits (smGet 0 (s.seq q).optab (wOpid w)).toNat 15 0
    if st.1 ≠ 0 then s.waitFault q st.1 st.2 true (wFirst w && keyKind o != 0) else s.issueWord q
  else s

/-- WAIT_RELEASE (R101, R102): what the sequencer waits for has come: a word's tokens, an instruction's, or those of a WAITT
command. -/
def execWaitRelease (q : Nat) (s : State) : Out :=
  guarded (decide (q < 8)) <|
    let x := s.seq q
    if x.state = 0 then s.heldRelease (s.seqP q)
    else if x.state ≠ 2 ∨ ¬ (s.kern q).bounded ∨ s.arrayFrozen q then s
    else
      match s.nextInstr q with
      | some v => s.instrRelease q v
      | none => s.wordRelease q

/-- WAIT_TIMEOUT (R104): a wait longer than SEQ_WAIT_LIMIT stops the kernel, or ends the WAITT command that waits. -/
def execWaitTimeout (q : Nat) (s : State) : Out :=
  guarded (decide (q < 8)) <|
    if (s.seq q).state = 0 then
      if s.waitOver q (s.part (s.seqP q)).heldSince then s.heldEnd (s.seqP q) cWaitTimeout else s
    else
      match (s.kern q).waitSince with
      | some t => if (s.seq q).state = 2 ∧ s.waitOver q t then s.waitFault q cWaitTimeout 0 false false else s
      | none => s

end Sys2Proof.Machine
end

