-- ==== Sys2Proof/Machine/SelfTest.lean ====
section
/-! DEFINITION. Self-test (R407 to R411; assumption log 36). -/

namespace Sys2Proof.Machine

/-- Every line of stack k's visible units zero and unpoisoned; withdrawn units are not touched (R409, Table 15-3). -/
def State.zeroStack (s : State) (k : Nat) : State :=
  let kept := fun (a : Nat) => stackNo a != k || s.isWithdrawn (unitKey a)
  { s with mem := s.mem.filter (fun e => kept e.1), poison := s.poison.filter (fun e => kept e.1) }.dropLines
    (fun a => stackNo a == k)

/-- Change the TEST block. -/
def State.modTest (s : State) (f : TestState → TestState) : State := { s with test := f s.test }

/-- A test ends or is refused with a code. -/
def State.testEnd (s : State) (code fails : Nat) : State :=
  let s := s.modTest (fun x => { x with busy := false, done := true, pass := code == 0, errCode := code, failCount := fails })
  if code = 0 then s else s.report code { block := 13 }

/-- A partition that is up has tiles on a die. -/
def State.upOnDie (s : State) (d : Nat) : Bool :=
  (upTo 8).any (fun p => s.isUp p && (s.partTiles p).any (fun t => t / 32 == d))

/-- The units a TARGET names: dies, or stacks for CMD 4. -/
def testTargets (cmd target : Nat) : List Nat := (upTo (if cmd = 4 then 12 else 2)).filter (fun i => bit target i)

/-- A target that is zero or reserved. -/
def targetBad (cmd target : Nat) : Bool := target == 0 || decide (2 ^ (if cmd = 4 then 12 else 2) ≤ target)

/-- The precondition of a command (Table 15-11). -/
def State.testAllowed (s : State) (cmd target : Nat) : Bool :=
  (testTargets cmd target).all (fun i =>
    if cmd = 4 then !(upTo 8).any (fun p => s.isUp p && bit (s.part p).stks i) else !s.upOnDie i)

/-- What refuses a command before its precondition (R407, R410): a reserved CMD or a TARGET out of place, a bad factory record, a scrub
or TRIPPED; 0 otherwise. -/
def State.testCode (s : State) (cmd : Nat) (bad : Bool) : Nat :=
  if cmd = 0 ∨ 5 < cmd ∨ bad = true then cBistInvalid
  else if s.fw.factoryBad then cFactoryRecord
  else if s.scrubbing ∨ s.pwr.state = 4 then cBistNotAllowed
  else 0

/-- Start a self-test (R407): the request is decoded first, then the factory record, then what the module's state allows. -/
def State.testGo (s : State) (cmd target : Nat) : State :=
  if s.test.busy then s.regAccess 0 13
  else
    let s := s.modTest (fun x => { x with cmd := cmd, target := target })
    let c := s.testCode cmd (targetBad cmd target)
    if c ≠ 0 then s.testEnd c 0
    else if ¬ s.testAllowed cmd target then s.testEnd cBistNotAllowed 0
    else
      let s := s.modTest (fun x => { x with
        busy := true, done := false, pass := false, errCode := 0, failCount := 0
        expect := if cmd = 4 then x.expect
          else (testTargets cmd target).foldl (fun m d => smSet 0 m d (Config.factoryMisr cmd d % 2 ^ 64)) x.expect })
      if cmd = 3 then
        s.writeBack (fun a => bit target (homeDie a))
      else s

/-- LOGIC_BIST (CMD 1). -/
def execLogicBist (target : Nat) (s : State) : Out := guarded (decide (target < 2 ^ 16)) (s.pf0 (fun s => s.testGo 1 target))
/-- ARRAY_MEMORY_BIST (CMD 2). -/
def execArrayMemoryBist (target : Nat) (s : State) : Out := guarded (decide (target < 2 ^ 16)) (s.pf0 (fun s => s.testGo 2 target))
/-- CACHE_MEMORY_BIST (CMD 3): dirty lines are written back first. -/
def execCacheMemoryBist (target : Nat) (s : State) : Out := guarded (decide (target < 2 ^ 16)) (s.pf0 (fun s => s.testGo 3 target))
/-- STACK_MEMORY_BIST (CMD 4). -/
def execStackMemoryBist (target : Nat) (s : State) : Out := guarded (decide (target < 2 ^ 16)) (s.pf0 (fun s => s.testGo 4 target))

/-- The die that holds sequencer Qq (Table 4-1). -/
def seqDie (q : Nat) : Nat := q / 4

/-- The memories of a tile zero (CMD 2). -/
def Tile.zeroed (x : Tile) : Tile := { x with spad := [], tags := [], tokq := [], tokHeld := [] }
/-- The memories of a sequencer zero (CMD 2). -/
def Seq.zeroed (x : Seq) : Seq := { x with ktab := [], cmem := [], cmemBad := [], optab := [], hdrs := [] }

/-- The shared cache of a die after a test: it holds no line, and what it held has been written back (R211). -/
def State.cacheTested (s : State) (d : Nat) : State := s.writeBack (fun a => homeDie a == d)

/-- A die after a test: tiles, sequencers and cache for CMD 1, the memories for CMD 2, the shared cache for CMD 3. -/
def State.dieTested (s : State) (cmd d : Nat) : State :=
  if cmd = 3 then s.cacheTested d
  else if cmd = 1 then
    let s := { s with tiles := s.tiles.filter (fun e => e.1 / 32 != d), seqs := s.seqs.filter (fun e => seqDie e.1 != d) }
    (s.modCache d (fun x => { ways := x.ways, chains := x.chains })).cacheTested d
  else
    let tiles := s.tiles.map (fun e => (e.1, if e.1 / 32 = d then e.2.zeroed else e.2))
    let seqs := s.seqs.map (fun e => (e.1, if seqDie e.1 = d then e.2.zeroed else e.2))
    { s with tiles := tiles, seqs := seqs }

/-- What was tested ends at its reset values (R408), or as zeros (R409). -/
def State.tested (s : State) : State :=
  let l := testTargets s.test.cmd s.test.target
  if s.test.cmd = 4 then s.each l (fun k x => x.zeroStack k) else s.each l (fun d x => x.dieTested s.test.cmd d)

/-- BIST_ABORT (CMD 5): with no test running there is nothing to abort. One that is refused while a test runs leaves the test running
and only reports its code. -/
def execBistAbort (target : Nat) (s : State) : Out :=
  guarded (decide (target < 2 ^ 16)) <|
    s.pf0 (fun s =>
      let c := s.testCode 5 (target != 0)
      if c ≠ 0 then (if s.test.busy then s.report c { block := 13 } else s.testEnd c 0)
      else if ¬ s.test.busy then s
      else s.tested.testEnd cBistAborted 0)

/-- A failing unit goes to R223 to R226, later while SPARE_HOLD is set; which of its row groups failed is free. -/
def State.spareUnit (s : State) (u : Nat) : State :=
  let k := u / Config.unitsPerStack
  let rg := u % Config.unitsPerStack
  let d := s.draw
  if s.memc.spareHold then
    let l := d.2.memc.deferred ++ [{ stack := k, pc := d.1 % 64, rg := rg }]
    { d.2 with memc := { d.2.memc with deferred := l } }
  else d.2.spareRow k (d.1 % 64) rg []

/-- A unit fails (R409): a line is uncorrectable, or its MISR is not the factory unit signature. -/
def unitBad (u : UnitResult) : Bool := u.uncorrectable || u.misr != Config.factoryUnitMisr % 2 ^ 64

/-- Units of the stacks under test that failed and are visible, each once. -/
def State.failedUnits (s : State) (l : List UnitResult) : List Nat :=
  ((l.filter (fun u => bit s.test.target (u.unit / Config.unitsPerStack) && !s.isWithdrawn u.unit && unitBad u)).map (fun u => u.unit)).foldl
    (fun acc u => if acc.contains u then acc else acc ++ [u]) []

/-- BIST_DONE: `misr` gives the dies' signatures, `units` what a stack test reads of the units it does not find good. -/
def execBistDone (misr : List (Nat × Nat)) (units : List UnitResult) (s : State) : Out :=
  guarded (misr.all (fun e => decide (e.1 < 2) && decide (e.2 < 2 ^ 64)) &&
      units.all (fun u => decide (u.unit < 12 * Config.unitsPerStack) && decide (u.misr < 2 ^ 64))) <|
    if ¬ s.test.busy then s
    else if s.test.cmd = 4 then
      let l := s.failedUnits units
      let t := s.tested
      let t := l.foldl (fun x u => x.spareUnit u) t
      t.testEnd (if l.isEmpty then 0 else cMbistMismatch) l.length
    else
      let s := misr.foldl (fun x e => if bit s.test.target e.1 then x.modTest (fun y => { y with misr := smSet 0 y.misr e.1 e.2 }) else x) s
      let bad := (testTargets s.test.cmd s.test.target).filter (fun d => smGet 0 s.test.misr d != smGet 0 s.test.expect d)
      s.tested.testEnd (if bad.isEmpty then 0 else if s.test.cmd = 1 then cLbistMismatch else cMbistMismatch) bad.length

end Sys2Proof.Machine
end

