-- ==== Sys2Proof/Machine/Registers.lean ====
section
/-! DEFINITION. BAR0: register reads and writes by block (R8 to R10, R329 to R332, R427; assumption log 33). Requesters: 0 PF0,
1 to 8 the VFs, 9 the firmware of the service cores, 10 the management interface. -/

namespace Sys2Proof.Machine

/-- The firmware as a requester. -/
abbrev byFirmware : Nat := 9
/-- The management interface as a requester. -/
abbrev byMgmt : Nat := 10

/-! ### What a register reads as -/

/-- IDENT (Tables 5-7, 5-8 and 12-8). -/
def State.identWord (s : State) (o : Nat) : Nat :=
  if o = 0x00 then pack [(0, s.pins.vendor), (16, 0x0C12)]
  else if o = 0x08 then pack [(0, s.pins.order), (8, s.pins.build)]
  else if o = 0x10 then s.pins.serial
  else if o = 0x18 then s.fw.version
  else if 0x40 ≤ o ∧ o < 0x70 then
    let d := (o - 0x40) / 16
    if o % 16 = 0 then smGet 0 s.pins.lots d
    else pack [(0, smGet 0 s.pins.wafers d), (8, smGet 0 s.pins.diePos d), (32, if d = 2 then 0xA1 else 0xB0)]
  else if o = 0x100 then pack [(0, 1), (16, Config.glahusMinor s.fw.version % 2 ^ 16), (32, s.fw.rlMax), (40, 1)]
  else if o = 0x108 then 2 ^ 11 - 1
  else if o = 0x110 then
    pack [(0, 64), (8, 512), (20, ((upTo 8).filter (fun p => (s.part p).tiles != 0)).length), (24, 12), (32, 17), (40, 64), (48, 16), (56, 96)]
  else if o = 0x118 then pack [(0, 32768), (16, 2048), (32, 256), (48, 8), (56, 12)]
  else if 0x120 ≤ o ∧ o < 0x160 then
    let x := s.part ((o - 0x120) / 8)
    pack [(0, x.tiles), (8, x.tiles * 5120), (32, x.seq), (40, x.rlActive), (48, x.core)]
  else 0

/-- A queue page's register (Tables 12-9 and 12-10). -/
def QPair.word (x : QPair) (o : Nat) : Nat :=
  if o = 0x00 then x.sqBase
  else if o = 0x08 then x.cqBase
  else if o = 0x10 then x.qcfg
  else if o = 0x18 then
    pack [(0, b2n (x.enable || x.desc.isSome)), (1, b2n x.error), (16, x.errCode), (32, x.sqHead), (48, x.cqTail)]
  else 0

/-- FN_EVENT. -/
def Fn.event (x : Fn) : Nat :=
  pack [(0, b2n x.partChange), (1, b2n x.accessErr), (2, b2n x.errorRecord), (3, b2n x.adminDone), (16, x.errCode)]

/-- A function page. -/
def State.pageWord (s : State) (n o : Nat) : Nat :=
  if o < 0x200 then (s.qp n (o / 0x40)).word (o % 0x40)
  else if o = 0x200 then (s.fn n).winBase
  else if o = 0x208 then (s.fn n).event
  else 0

/-- HOST (Table 12-10). -/
def State.hostWord (s : State) (o : Nat) : Nat :=
  let h := s.host
  if o = 0x00 then pack [(0, h.speed), (3, h.width), (8, h.mode), (10, h.numVf)]
  else if o = 0x08 then h.latTol
  else if o = 0x10 then pack [(0, h.ltrValue), (10, h.ltrScale), (15, b2n h.ltrReq)]
  else if o = 0x18 then pack [(0, h.errCode), (16, h.errFn)]
  else if 0x10000 ≤ o ∧ o < 0x19000 then
    let n := (o - 0x10000) / 0x1000
    if s.fnOn n then s.pageWord n (o % 0x1000) else 0
  else 0

/-- IMAGE (Table 10-14). -/
def State.imageWord (s : State) (o : Nat) : Nat :=
  let x := s.img
  let w := s.owner
  if o = 0x00 then
    pack [(1, x.source), (3, b2n x.busy), (4, b2n x.done), (5, b2n x.error), (6, b2n x.dropped), (16, x.errCode)]
  else if o = 0x08 then x.src
  else if o = 0x10 then pack [(0, x.loadedFrom), (32, x.loads)]
  else if o = 0x18 then x.rejectWord
  else if 0x20 ≤ o ∧ o < 0x50 then leAt (toBytes 48 x.resultsDigest) (o - 0x20) 8
  else if o = 0x60 then pack [(2, x.nvSlot), (4, b2n x.nvBusy), (5, b2n x.nvDone), (6, b2n x.nvError), (16, x.nvErrCode)]
  else if o = 0x68 then x.nvSrc
  else if o = 0x70 then
    pack [(0, b2n x.slotA.valid), (1, b2n x.slotB.valid), (32, x.slotA.gen % 2 ^ 16), (48, x.slotB.gen % 2 ^ 16)]
  else if o = 0x80 then
    pack [(2, b2n w.pending), (3, b2n w.change), (4, b2n w.done), (5, b2n w.error), (16, w.errCode)]
  else if o = 0x88 then pack [(0, w.unitsDone), (20, w.unitsTotal), (40, w.restarts)]
  else if 0x140 ≤ o ∧ o < 0x180 then
    let p := s.part ((o - 0x140) / 8)
    pack [(0, p.state), (16, p.stks)]
  else if 0x180 ≤ o ∧ o < 0x200 then
    let p := s.part ((o - 0x180) / 16)
    if o % 16 = 0 then p.noiseBase else p.spillBase
  else 0

/-- A sequencer's window (Tables 4-12 to 4-17). -/
def Seq.word (x : Seq) (o : Nat) : Nat :=
  if o = 0x00 then pack [(2, x.kernel), (8, x.replays), (32, b2n x.noList)]
  else if o = 0x08 then
    pack [(0, x.state), (2, b2n x.done), (3, b2n x.fault), (4, b2n x.dropped), (16, x.faultCode), (32, x.replayIndex)]
  else if o = 0x10 then seqFault x
  else if o = 0x18 then x.count
  else if o = 0x20 then x.replayBase
  else if o = 0x28 then x.waitLimit
  else if o = 0x30 then x.loadSrc
  else if o = 0x38 then
    pack [(0, x.ldDest), (15, x.ldCount), (31, b2n x.ldTable), (33, b2n x.ldBusy), (34, b2n x.ldError), (48, x.ldErrCode)]
  else if 0x40 ≤ o ∧ o < 0xC0 then (smGet 0 x.params ((o - 0x40) / 8)).toNat
  else if 0x100 ≤ o ∧ o < 0x300 then (x.kt ((o - 0x100) / 8)).toNat
  else 0

/-- STREAM_CTRL_i (Table 6-9). -/
def Slot.ctrl (x : Slot) : Nat :=
  pack [(3, x.state), (5, b2n x.error), (6, b2n x.dropped), (16, x.errCode), (32, x.blockIndex)]

/-- The bits of SLOT_i that are no reserved field (Table 6-2). -/
abbrev slotFields : Nat := lineMask % 2 ^ 512 - pack [(15, 1), (29, 7), (60, 15), (71, 1), (88, 2 ^ 40 - 1), (320, 2 ^ 192 - 1)]

/-- A tile window (Table 6-8); a reserved field reads as zero (R9). -/
def State.tileWord (s : State) (t o : Nat) : Nat :=
  if o < 0x600 then bits ((s.slot t (o / 0x40)).desc.toNat &&& slotFields) (8 * (o % 0x40) + 63) (8 * (o % 0x40))
  else if 0x800 ≤ o ∧ o < 0x8C0 then (s.slot t ((o - 0x800) / 8)).ctrl
  else if o = 0x900 then fetchStatus (s.tile t)
  else 0

/-- STACK_COUNT_k. -/
def Stack.counts (x : Stack) : Nat := pack [(0, x.corrected), (32, x.uncorrectable), (48, x.spared)]

/-- MEM (Table 8-6). -/
def State.memWord (s : State) (o : Nat) : Nat :=
  if o < 0x60 then
    let x := s.stk (o / 8)
    pack [(0, s.visibleUnits (o / 8)), (16, (x.retired.filter (fun e => e.2)).length), (23, b2n (x.migrations != [])), (24, s.pins.build)
          , (26, b2n x.failed), (32, x.sparesLeft)]
  else if o < 0xC0 then (s.stk ((o - 0x60) / 8)).counts
  else if o = 0xC0 then pack [(0, s.memc.patrolHours), (8, b2n s.memc.spareHold)]
  else if o = 0xC8 then s.capacityUnits
  else if 0x10000 ≤ o ∧ o < 0x28000 ∧ o % 0x2000 < 0x1800 then
    let u := (o - 0x10000) / 0x2000 * Config.unitsPerStack + 8 * (o % 0x2000)
    pack ((upTo 64).map (fun i => (i, b2n (s.isWithdrawn (u + i)))))
  else 0

/-- CACHE_STATUS_d. -/
def Cache.word (x : Cache) : Nat := pack [(0, x.corrected), (32, x.uncorrectable), (48, x.ways)]

/-- PORT_COUNT_n. -/
def Port.counts (x : Port) : Nat := pack [(0, x.fecCorrected), (32, x.replays), (48, x.uncorrectable)]

/-- FABRIC (Table 11-12). -/
def State.fabricWord (s : State) (o : Nat) : Nat :=
  let f := s.fab
  if o < 0x200 then
    let p := s.port (o / 0x40)
    if o % 0x40 = 0 then
      pack [(0, p.state), (3, b2n p.width4), (4, b2n p.upper), (5, p.level), (7, p.laneFailed), (16, p.peerAddr), (32, p.trainFails)]
    else if o % 0x40 = 8 then pack [(1, b2n p.disable)]
    else if o % 0x40 = 16 then p.counts
    else 0
  else if o = 0x200 then
    pack [(0, f.cfg.moduleAddr), (16, f.jobState), (32, f.jobFreq), (40, f.ownCeiling), (48, f.epochLow)]
  else if o = 0x208 then pack [(0, f.collLimit), (32, f.joinLimit)]
  else if o = 0x210 then f.dup
  else 0

/-- MSG (Table 9-12). -/
def State.msgWord (s : State) (o : Nat) : Nat :=
  if o < 0x40 then (s.part (o / 8)).qresetReg
  else if o < 0x80 then 0
  else if o < 0xC0 then (s.msg ((o - 0x80) / 8)).flags
  else if o = 0xC0 then s.progressLimit
  else if 0x100 ≤ o ∧ o < 0x180 ∧ o % 0x20 = 0x10 then
    let c := s.core ((o - 0x100) / 0x20)
    pack [(0, c.doneStatus), (16, c.doneIdx), (24, b2n c.done)]
  else 0

/-- The bits of NOISE_REQ_p that are no reserved field (Table 7-8). -/
abbrev noiseFields : Nat := 2 ^ 128 - 1 - pack [(29, 2 ^ 35 - 1)]

/-- RNG (Table 7-9); a reserved field reads as zero (R9). -/
def State.rngWord (s : State) (o : Nat) : Nat :=
  if o < 0x200 then
    let x := s.part (o / 0x40)
    if o % 0x40 < 0x20 then bits (x.noiseReq.toNat &&& noiseFields) (8 * (o % 0x40) + 63) (8 * (o % 0x40))
    else if o % 0x40 = 0x20 then pack [(1, b2n x.noiseBusy), (2, b2n x.noiseDone), (16, x.noiseErr)]
    else 0
  else 0

/-- SEC (Table 13-12); PK_BUF reads as zero while BUSY. -/
def State.secWord (s : State) (o : Nat) : Nat :=
  let c := s.sec
  if o = 0x00 then pack [(0, b2n c.pkReady), (1, b2n c.ownerKey.isSome), (2, b2n c.wiping), (3, c.mismatches)]
  else if o = 0x08 then pack [(1, b2n c.done), (16, c.errCode)]
  else if o = 0x10 then pack [(1, c.pkOp), (4, c.pkSlot), (10, c.pkCurve), (12, b2n c.pkEcdh), (13, c.pkRsaLen)]
  else if o = 0x18 then pack [(0, b2n c.pkBusy), (1, b2n c.pkDone), (16, c.pkErr)]
  else if o = 0x20 then pack [(0, b2n c.secOk), (1, b2n c.noiseOk), (2, b2n c.sourceOk), (16, c.testFails)]
  else if o = 0x28 then c.epoch
  else if 0x100 ≤ o ∧ o < 0x160 then memLE c.ownerBuf (o - 0x100) 8
  else if 0x1000 ≤ o ∧ o < 0x1800 then (if c.pkBusy then 0 else memLE c.pkBuf (o - 0x1000) 8)
  else 0

/-- PWR (Table 14-8). -/
def State.pwrWord (s : State) (o : Nat) : Nat :=
  let x := s.pwr
  if o = 0x00 then x.status
  else if o = 0x08 then pack [(0, x.capOvr), (16, b2n x.holdA0)]
  else if o = 0x10 then pack [(0, x.sampleW), (16, x.meanW), (32, x.inputW)]
  else if o = 0x18 then pack [(0, x.c0), (8, x.c1), (16, x.cmax)]
  else if 0x20 ≤ o ∧ o < 0x30 then tempBits (smGet 0 x.tempDie ((o - 0x20) / 8))
  else if 0x40 ≤ o ∧ o < 0xA0 then tempBits (smGet 0 x.tempStack ((o - 0x40) / 8))
  else if o = 0xA0 then pack [(0, x.half0 / 2), (8, x.half1 / 2), (16, b2n x.ageLimit)]
  else if o = 0xA8 then x.tripRecord
  else if 0x1000 ≤ o ∧ o < 0x1200 then (s.tile ((o - 0x1000) / 8)).sleep
  else if 0x1200 ≤ o ∧ o < 0x1400 then
    pack ((upTo 24).map (fun b => (2 * b, smGet 0 (s.tile ((o - 0x1200) / 8)).banks b)))
  else 0

/-- An error record as eight words (Table 15-6). -/
def ErrRec.word (e : ErrRec) (i : Nat) : Nat :=
  if e.code = 0 then 0
  else
    [pack [(0, e.code), (16, e.severity), (24, e.part), (32, e.block), (48, e.count)], e.sequence % 2 ^ 32, e.first, e.last
     , e.loc0, e.loc1, e.loc2, e.loc3].getD i 0

/-- A counter of Table 9-10 by its offset. -/
def Ledger.word (l : Ledger) (o : Nat) : Nat :=
  [l.crTotal, l.crHeld, l.crInUse, l.ringTotal, l.ringUsed, l.ringFree, l.spTotal, l.spFree, l.spUsed, l.spRetired
   , l.msgSent, l.msgDelivered, l.msgDead, l.msgResident, l.tokEmitted, l.tokConsumed, l.tokRetired, l.tokReturned
   , l.tokResident, l.wrIssued, l.wrAcked, l.wrFailed, l.wrOutstanding, l.ctxTotal, l.ctxFree, l.ctxUsed
   , l.collSent, l.collLanded, l.collReturned, l.collInFlight].getD ((o - 0x10) / 8) 0

/-- The ledger of partition p: captured counters once there is a capture (R258, R259). -/
def State.ledgerWord (s : State) (p o : Nat) : Nat :=
  let x := s.part p
  if o = 0x00 then pack [(2, b2n x.ledgerBusy), (3, b2n x.breach), (16, x.breachItem)]
  else if o = 0x08 then x.snapTime
  else if 0x10 ≤ o ∧ o < 0x100 then (if x.snapped then x.snapshot else x.ledger).word o
  else if o = 0x100 then x.dumpAddr
  else 0

/-- RAS (Table 15-14) with the ledgers. -/
def State.rasWord (s : State) (o : Nat) : Nat :=
  let r := s.ras
  if o = 0x00 then pack [(0, r.head), (10, r.unread), (21, b2n r.fatal), (32, r.fatalCode), (48, r.lost)]
  else if o = 0x08 then r.tail
  else if o = 0x10 then pack [(0, r.cause), (32, r.resets % 2 ^ 32)]
  else if 0x40 ≤ o ∧ o < 0x80 then b2n (s.part ((o - 0x40) / 8)).poisonStop
  else if 0x80 ≤ o ∧ o < 0xC0 then
    let p := s.part ((o - 0x80) / 8)
    pack [(0, p.poisoned), (32, p.drained), (48, p.events)]
  else if 0x100 ≤ o ∧ o < 0x120 then
    let c := s.core ((o - 0x100) / 8)
    pack [(0, c.state), (8, c.restarts)]
  else if 0x200 ≤ o ∧ o < 0x400 then (r.fatals.getD ((o - 0x200) / 0x40) {}).word (o % 0x40 / 8)
  else if 0x10000 ≤ o ∧ o < 0x20000 then (smGet {} r.recs ((o - 0x10000) / 0x40)).word (o % 0x40 / 8)
  else if 0x80000 ≤ o ∧ o < 0x82000 then s.ledgerWord ((o - 0x80000) / 0x400) (o % 0x400)
  else 0

/-- TEST (Table 15-14). -/
def State.testWord (s : State) (o : Nat) : Nat :=
  let x := s.test
  if o = 0x00 then pack [(0, x.cmd), (16, x.target)]
  else if o = 0x08 then pack [(0, b2n x.busy), (1, b2n x.done), (2, b2n x.pass), (16, x.errCode), (32, x.failCount)]
  else if 0x10 ≤ o ∧ o < 0x20 then smGet 0 x.misr ((o - 0x10) / 8)
  else if 0x20 ≤ o ∧ o < 0x30 then smGet 0 x.expect ((o - 0x20) / 8)
  else 0

/-- The aligned 64-bit word at an address of PF0's BAR0 (Table 12-5); 0 where no register lies. -/
def State.regWord (s : State) (a : Nat) : Nat :=
  let o := a % 0x100000
  match a / 0x100000 with
  | 0x0 => s.identWord o
  | 0x1 => s.hostWord o
  | 0x2 => s.imageWord o
  | 0x3 => if o < 0x80000 then (s.seq (o / 0x10000)).word (o % 0x10000) else 0
  | 0x5 => s.memWord o
  | 0x6 => if o < 16 then (s.cache (o / 8)).word else 0
  | 0x7 => s.fabricWord o
  | 0x8 => s.msgWord o
  | 0x9 => s.rngWord o
  | 0xA => s.secWord o
  | 0xB => s.pwrWord o
  | 0xC => s.rasWord o
  | 0xD => s.testWord o
  | 0x10 => s.tileWord (o / 0x10000) (o % 0x10000)
  | 0x11 => s.tileWord (o / 0x10000 + 16) (o % 0x10000)
  | 0x12 => s.tileWord (o / 0x10000 + 32) (o % 0x10000)
  | 0x13 => s.tileWord (o / 0x10000 + 48) (o % 0x10000)
  | _ => 0

/-! ### What a write does -/

/-- A write within an aligned 64-bit word: the value in place, zero outside its half, and the halves it covers. -/
structure Lane where
  v : Nat := 0
  lo : Bool := true
  hi : Bool := true
  deriving DecidableEq, Repr

/-- A register value after a write of its covered halves. -/
def Lane.mix (l : Lane) (old : Nat) : Nat :=
  (if l.lo then l.v else old) % 2 ^ 32 + 2 ^ 32 * ((if l.hi then l.v else old) / 2 ^ 32)

/-- A W1C bit after a write. -/
def Lane.w1c (l : Lane) (i : Nat) (old : Bool) : Bool := old && !bit l.v i

/-- A counter field after a write (R427): cleared where it is covered and written zero. -/
def Lane.counter (l : Lane) (hi lo : Nat) (old : Nat) : Nat :=
  if (if lo < 32 then l.lo else l.hi) ∧ bits l.v hi lo = 0 then 0 else old

/-- Write a function page (R332, R333). -/
def State.writePage (s : State) (n o : Nat) (l : Lane) : State :=
  if o < 0x200 then
    let q := o / 0x40
    let r := o % 0x40
    let x := s.qp n q
    if r = 0x00 ∨ r = 0x08 then
      if s.tdiClosed n then s
      else if x.enable then s.regAccess n hostBlock
      else if r = 0 then s.modQp n q (fun y => { y with sqBase := l.mix y.sqBase / 4096 * 4096 })
      else s.modQp n q (fun y => { y with cqBase := l.mix y.cqBase / 4096 * 4096 })
    else if r = 0x10 then s.writeQcfg n q (l.mix x.qcfg)
    else if r = 0x20 then
      let s := if l.lo then s.writeTail n q (bits l.v 15 0) else s
      if l.hi then s.writeHead n q (bits l.v 47 32) else s
    else s
  else if o = 0x200 then s.writeWin n (l.mix (s.fn n).winBase)
  else if o = 0x208 then
    s.modFn n (fun x => { x with
      partChange := l.w1c 0 x.partChange, accessErr := l.w1c 1 x.accessErr
      errorRecord := l.w1c 2 x.errorRecord, adminDone := l.w1c 3 x.adminDone })
  else s

/-- Write LAT_TOL (R342): a new offer reaches the peers (R306). -/
def State.writeLatTol (s : State) (v : Nat) : State :=
  let before := s.offered
  let s := { s with host := { s.host with latTol := v % 2 ^ 32 } }
  s.advertise before

/-- Write the IMAGE block (Table 10-14). -/
def State.writeImage (s : State) (o : Nat) (l : Lane) : State :=
  if o = 0x00 then
    s.modImg (fun x => { x with
      source := if l.lo then bits l.v 2 1 else x.source
      done := l.w1c 4 x.done, error := l.w1c 5 x.error, dropped := l.w1c 6 x.dropped })
  else if o = 0x08 then s.modImg (fun x => { x with src := l.mix x.src })
  else if o = 0x60 then
    s.modImg (fun x => { x with
      nvSlot := if l.lo then bits l.v 3 2 else x.nvSlot
      nvDone := l.w1c 5 x.nvDone, nvError := l.w1c 6 x.nvError })
  else if o = 0x68 then s.modImg (fun x => { x with nvSrc := l.mix x.nvSrc })
  else if o = 0x80 then s.modOwner (fun x => { x with done := l.w1c 4 x.done, error := l.w1c 5 x.error })
  else s

/-- Write a sequencer's window (R117); a load in progress keeps what it started with. REPLAY_BASE is stored whole: the spec gives no
effect of one that is not a multiple of 16, and the list is read at the address written (the model's choice, assumption log 37). -/
def State.writeSeq (s : State) (q o : Nat) (l : Lane) : State :=
  let x := s.seq q
  if o = 0x00 then
    let v := l.mix (pack [(2, x.kernel), (8, x.replays), (32, b2n x.noList)])
    s.modSeq q (fun y => { y with kernel := bits v 7 2, replays := bits v 31 8, noList := bit v 32 })
  else if o = 0x08 then
    s.modSeq q (fun y => { y with done := l.w1c 2 y.done, fault := l.w1c 3 y.fault, dropped := l.w1c 4 y.dropped })
  else if o = 0x20 then s.modSeq q (fun y => { y with replayBase := l.mix y.replayBase })
  else if o = 0x28 then s.modSeq q (fun y => { y with waitLimit := if l.lo then l.v % 2 ^ 32 else y.waitLimit })
  else if o = 0x30 then s.modSeq q (fun y => { y with loadSrc := l.mix y.loadSrc })
  else if o = 0x38 then
    let s := s.modSeq q (fun y => { y with ldError := l.w1c 34 y.ldError })
    if ¬ l.lo then s
    else s.modSeq q (fun y => { y with ldDest := bits l.v 14 0, ldCount := bits l.v 30 15, ldTable := bit l.v 31 })
  else if 0x40 ≤ o ∧ o < 0xC0 then
    let r := (o - 0x40) / 8
    s.writeParam q r (BitVec.ofNat 64 (l.mix (smGet 0 x.params r).toNat))
  else if 0x100 ≤ o ∧ o < 0x300 then
    let e := (o - 0x100) / 8
    s.writeKtab q e (BitVec.ofNat 64 (l.mix (x.kt e).toNat))
  else s

/-- Write a tile window (R155, R177). -/
def State.writeTile (s : State) (t o : Nat) (l : Lane) : State :=
  if o < 0x600 then
    let i := o / 0x40
    if (s.slot t i).state = 0 then
      let w := o % 0x40 / 8
      s.modSlot t i (fun x =>
        { x with desc := putWord x.desc w (BitVec.ofNat 64 (l.mix (bits x.desc.toNat (64 * w + 63) (64 * w)))) })
    else s.modSlot t i (fun x => { x with dropped := true })
  else if 0x800 ≤ o ∧ o < 0x8C0 then
    s.modSlot t ((o - 0x800) / 8) (fun x => { x with error := l.w1c 5 x.error, dropped := l.w1c 6 x.dropped })
  else s

/-- Write STACK_COUNT_k (R427). -/
def State.writeStackCount (s : State) (k : Nat) (l : Lane) : State :=
  s.modStk k (fun x => { x with
    corrected := l.counter 31 0 x.corrected, uncorrectable := l.counter 47 32 x.uncorrectable, spared := l.counter 63 48 x.spared })

/-- Write CACHE_STATUS_d (R427). -/
def State.writeCacheStatus (s : State) (d : Nat) (l : Lane) : State :=
  s.modCache d (fun x => { x with corrected := l.counter 31 0 x.corrected, uncorrectable := l.counter 47 32 x.uncorrectable })

/-- Write PORT_COUNT_n (R427). -/
def State.writePortCount (s : State) (n : Nat) (l : Lane) : State :=
  s.modPort n (fun x => { x with
    fecCorrected := l.counter 31 0 x.fecCorrected, replays := l.counter 47 32 x.replays
    uncorrectable := l.counter 63 48 x.uncorrectable })

/-- Write MEM_CTRL (R234): clearing SPARE_HOLD applies what it deferred. -/
def State.writeMemCtrl (s : State) (l : Lane) : State :=
  if ¬ l.lo then s
  else
    let was := s.memc.spareHold
    let s := { s with memc := { s.memc with patrolHours := bits l.v 7 0 } }
    if bit l.v 8 then (if was then s else { s with memc := { s.memc with spareHold := true, holdSince := s.now } })
    else if was then s.endSpareHold else s

/-- Write the FABRIC block (Table 11-12). -/
def State.writeFabric (s : State) (o : Nat) (l : Lane) : State :=
  if o < 0x200 then
    let n := o / 0x40
    if o % 0x40 = 8 then
      if ¬ l.lo then s
      else
        let s := s.modPort n (fun x => { x with disable := bit l.v 1 })
        if bit l.v 1 then s.portDown n else if bit l.v 0 then s.retrainStart n else s
    else if o % 0x40 = 16 then s.writePortCount n l
    else s
  else if o = 0x208 then
    { s with fab := { s.fab with
        collLimit := if l.lo then l.v % 2 ^ 32 else s.fab.collLimit
        joinLimit := if l.hi then l.v / 2 ^ 32 else s.fab.joinLimit } }
  else s

/-- Write the MSG block (Table 9-12). -/
def State.writeMsgReg (s : State) (o : Nat) (l : Lane) : State :=
  if o < 0x40 then
    if l.lo then s.modPart (o / 8) (fun x => { x with qresetReg := bits l.v 11 0 }) else s
  else if o = 0xC0 then { s with progressLimit := if l.lo then l.v % 2 ^ 32 else s.progressLimit }
  else if 0x100 ≤ o ∧ o < 0x180 ∧ o % 0x20 = 0x10 then
    s.modCore ((o - 0x100) / 0x20) (fun c => { c with done := l.w1c 24 c.done })
  else s

/-- Write the RNG block (Table 7-9). -/
def State.writeRng (s : State) (o : Nat) (l : Lane) : State :=
  if o < 0x200 then
    let p := o / 0x40
    let w := o % 0x40 / 8
    if o % 0x40 < 0x20 then
      if (s.part p).noiseBusy then s
      else
        let r := (s.part p).noiseReq.toNat
        let v := r % 2 ^ (64 * w) + (l.mix (bits r (64 * w + 63) (64 * w)) % 2 ^ 64) <<< (64 * w) + (r >>> (64 * (w + 1))) <<< (64 * (w + 1))
        s.modPart p (fun x => { x with noiseReq := BitVec.ofNat 256 v })
    else if o % 0x40 = 0x20 then s.modPart p (fun x => { x with noiseDone := l.w1c 2 x.noiseDone })
    else s
  else s

/-- Write the SEC block (R366). -/
def State.writeSecReg (s : State) (o : Nat) (l : Lane) : State :=
  let c := s.sec
  if o = 0x08 then s.modSec (fun c => { c with done := l.w1c 1 c.done })
  else if o = 0x10 then
    if c.pkBusy then s.regAccess 0 10
    else if l.lo then
      let op := bits l.v 3 1
      let r : PkReq := { slot := bits l.v 9 4, curve := bits l.v 11 10, ecdhKey := bit l.v 12, rsaLen := bits l.v 14 13 }
      -- GO with a reserved OP, which has no row of its own, is refused here
      if bit l.v 0 ∧ (op = 0 ∨ op = 7) then s.pkGo op r
      else s.modSec (fun c => { c with pkOp := op, pkSlot := r.slot, pkCurve := r.curve, pkEcdh := r.ecdhKey, pkRsaLen := r.rsaLen })
    else s
  else if o = 0x18 then s.modSec (fun c => { c with pkDone := l.w1c 1 c.pkDone })
  else if 0x100 ≤ o ∧ o < 0x160 then
    s.modSec (fun c => { c with ownerBuf := memPutLE c.ownerBuf (o - 0x100) 8 (l.mix (memLE c.ownerBuf (o - 0x100) 8)) })
  else if 0x1000 ≤ o ∧ o < 0x1800 then
    if c.pkBusy then s.regAccess 0 10
    else s.modSec (fun c => { c with pkBuf := memPutLE c.pkBuf (o - 0x1000) 8 (l.mix (memLE c.pkBuf (o - 0x1000) 8)) })
  else s

/-- Write RAS_TAIL (R401). -/
def State.writeRasTail (s : State) (v : Nat) : State :=
  let r := s.ras
  let d := (v + 1024 - r.tail) % 1024
  if v = r.head then { s with ras := { r with unread := 0, tail := v } }
  else if d ≤ r.unread then { s with ras := { r with unread := r.unread - d, tail := v } }
  else s.regAccess 0 12

/-- Write the ledger of partition p: its dump address (Table 9-13). -/
def State.writeLedger (s : State) (p o : Nat) (l : Lane) : State :=
  if o = 0x100 then s.modPart p (fun x => { x with dumpAddr := l.mix x.dumpAddr }) else s

/-- Write the RAS block (Table 15-14). -/
def State.writeRas (s : State) (o : Nat) (l : Lane) : State :=
  if o = 0x08 then (if l.lo then s.writeRasTail (bits l.v 9 0) else s)
  else if 0x40 ≤ o ∧ o < 0x80 then
    if l.lo then s.modPart ((o - 0x40) / 8) (fun x => { x with poisonStop := bit l.v 0 }) else s
  else if 0x80000 ≤ o ∧ o < 0x82000 then s.writeLedger ((o - 0x80000) / 0x400) (o % 0x400) l
  else s

/-- Write the TEST block (Table 15-14). -/
def State.writeTest (s : State) (o : Nat) (l : Lane) : State :=
  if o = 0x00 then
    let cmd := bits l.v 3 0
    -- GO with a reserved CMD, which has no row of its own, is refused here
    if l.lo ∧ bit l.v 4 ∧ (cmd = 0 ∨ 5 < cmd) then s.testGo cmd (bits l.v 31 16)
    else if l.lo ∧ ¬ s.test.busy then s.modTest (fun x => { x with cmd := cmd, target := bits l.v 31 16 }) else s
  else if o = 0x08 then { s with test := { s.test with done := l.w1c 1 s.test.done } }
  else s

/-- The partition whose sequencer, stream or noise registers an address belongs to, where its TDI isolates it (R353). -/
def State.isolatedAt (s : State) (a : Nat) : Option Nat :=
  let o := a % 0x100000
  let own := if a / 0x100000 = 3 then s.seqPart (o / 0x10000)
    else if 0x10 ≤ a / 0x100000 ∧ a / 0x100000 ≤ 0x13 then s.tilePart ((a - 0x1000000) / 0x10000)
    else if a / 0x100000 = 9 ∧ o < 0x200 then some (o / 0x40)
    else none
  own.filter (fun p => s.tdiClosed (p + 1))

/-- A write by a requester whose block and register Table 12-5 and the blocks' rules let it write; discarded otherwise. -/
def State.writeReg (s : State) (n a : Nat) (l : Lane) : State :=
  let o := a % 0x100000
  let pf := n == 0
  let fw := n == byFirmware
  match a / 0x100000 with
  | 0x1 =>
    if o = 0x08 then (if pf ∧ l.lo then s.writeLatTol (l.v % 2 ^ 32) else s)
    else if 0x10000 ≤ o ∧ o < 0x19000 ∧ (o - 0x10000) / 0x1000 = n then s.writePage n (o % 0x1000) l
    else s
  | 0x2 => if pf ∨ n = byMgmt then s.writeImage o l else s
  | 0x3 => if fw ∧ o < 0x80000 then s.writeSeq (o / 0x10000) (o % 0x10000) l else s
  | 0x5 =>
    if (pf ∨ fw) ∧ 0x60 ≤ o ∧ o < 0xC0 then s.writeStackCount ((o - 0x60) / 8) l
    else if fw ∧ o = 0xC0 then s.writeMemCtrl l
    else s
  | 0x6 => if (pf ∨ fw) ∧ o < 16 then s.writeCacheStatus (o / 8) l else s
  | 0x7 => if pf ∨ n = byMgmt then s.writeFabric o l else s
  | 0x8 => if fw then s.writeMsgReg o l else s
  | 0x9 => if pf ∨ fw then s.writeRng o l else s
  | 0xA => if pf then s.writeSecReg o l else s
  | 0xB =>
    if pf ∧ o = 0x08 then s.writePwrCtrl (l.mix (s.pwrWord 0x08))
    else if fw ∧ 0x1000 ≤ o ∧ o < 0x1200 ∧ l.lo then s.writeBankSleep ((o - 0x1000) / 8) l.v
    else s
  | 0xC =>
    if pf then s.writeRas o l
    else if 1 ≤ n ∧ n ≤ 8 ∧ 0x80000 + 0x400 * (n - 1) ≤ o ∧ o < 0x80000 + 0x400 * n then s.writeLedger (n - 1) (o % 0x400) l
    else s
  | 0xD => if pf then s.writeTest o l else s
  | 0x10 => if fw then s.writeTile (o / 0x10000) (o % 0x10000) l else s
  | 0x11 => if fw then s.writeTile (o / 0x10000 + 16) (o % 0x10000) l else s
  | 0x12 => if fw then s.writeTile (o / 0x10000 + 32) (o % 0x10000) l else s
  | 0x13 => if fw then s.writeTile (o / 0x10000 + 48) (o % 0x10000) l else s
  | _ => s

/-! ### Accesses (R329 to R331) -/

/-- The PF0 address behind a requester's address (Table 12-6); none where nothing lies. -/
def barAddr (n a : Nat) : Option Nat :=
  if n = 0 ∨ 8 < n then some a
  else if a < 0x1000 then some a
  else if a < 0x2000 then some (0x110000 + n * 0x1000 + (a - 0x1000))
  else if a < 0x2400 then some (0xC80000 + (n - 1) * 0x400 + (a - 0x2000))
  else none

/-- The word at an address is one 64-bit register, so a read of its low half latches the high half (R329). -/
def latches (a : Nat) : Bool :=
  let o := a % 0x100000
  let k := a / 0x100000
  if k = 0x1 then o != 0x08 && o != 0x10 && !(decide (0x10000 ≤ o) && o % 0x1000 < 0x200 && o % 0x40 == 0x20)
  else if k = 0x2 then !(decide (0x20 ≤ o) && decide (o < 0x50))
  else if k = 0x3 then o % 0x10000 != 0x28
  else if k = 0x5 then decide (o < 0x10000)
  else if k = 0x7 then o != 0x208
  else if k = 0x8 then o != 0xC0 && !(decide (0x100 ≤ o) && o % 0x20 < 0x10)
  else if k = 0x9 then o % 0x40 == 0x20
  else if k = 0xA then decide (o < 0x100)
  else if k = 0xC then !(decide (0x200 ≤ o) && decide (o < 0x20000))
  else if 0x10 ≤ k ∧ k ≤ 0x13 then decide (0x600 ≤ o % 0x10000)
  else true

/-- An access is naturally aligned and of 32 or 64 bits. -/
def accessOk (a size : Nat) : Bool := (size == 4 || size == 8) && a % size == 0

/-- The block of an access, for its error record. -/
def blockAt (n a : Nat) : Nat :=
  match barAddr n a with
  | some b => b / 0x100000
  | none => hostBlock

/-- Record REG_ACCESS for a requester: a function's goes to HOST_ERR and its FN_EVENT too. -/
def State.badAccess (s : State) (n block : Nat) : State :=
  if n < 9 then s.regAccess n block else s.record cRegAccess { block := block }

/-- A requester may read a block: only functions and the management interface read IMAGE, SEC, PWR, RAS and TEST (R259, R287,
R366, R388, R411). -/
def mayRead (n a : Nat) : Bool := !(n == byFirmware && [0x2, 0xA, 0xB, 0xC, 0xD].contains (a / 0x100000))

/-- Read clears of a word: FETCH_STATUS's high-water field, in its low half (Table 6-8). -/
def State.readClear (s : State) (a : Nat) : State :=
  if 0x1000000 ≤ a ∧ a < 0x1400000 ∧ a % 0x10000 = 0x900 then s.modTile ((a - 0x1000000) / 0x10000) (fun x => { x with ctxHigh := 0 })
  else s

/-- A read at a PF0 address: the state and the value. -/
def State.readAt (s : State) (n a size : Nat) : State × Nat :=
  let v := if mayRead n a then s.regWord (a / 8 * 8) else 0
  if size = 8 then (s.readClear a, v)
  else if a % 8 = 0 then
    let s := if n < 9 ∧ latches a = true then s.modFn n (fun x => { x with latch := smSet 0 x.latch (a + 4) (v / 2 ^ 32 + 1) }) else s
    (s.readClear a, v % 2 ^ 32)
  else
    let k := if n < 9 then smGet 0 (s.fn n).latch a else 0
    if k ≠ 0 then (s.modFn n (fun x => { x with latch := smSet 0 x.latch a 0 }), k - 1)
    else (s, v / 2 ^ 32)

/-- A register read by a requester that reached the module (R329, Table 13-5). -/
def State.readReg (s : State) (n a size : Nat) : State × Nat :=
  if ¬ accessOk a size then (s.badAccess n (blockAt n a), 0)
  else if 1 ≤ n ∧ n ≤ 8 ∧ (s.fn n).tdi = 3 then (s, 0)
  else
    match barAddr n a with
    | some b => s.readAt n b size
    | none => (s, 0)

/-- The lane of a write. -/
def laneOf (a size v : Nat) : Lane :=
  if size = 8 then { v := v }
  else if a % 8 = 0 then { v := v % 2 ^ 32, hi := false }
  else { v := (v % 2 ^ 32) * 2 ^ 32, lo := false }

/-- A register write by a requester that reached the module (R329, R353). -/
def State.storeReg (s : State) (n a size v : Nat) : State :=
  if ¬ accessOk a size then s.badAccess n (blockAt n a)
  else
    match barAddr n a with
    | none => s
    | some b =>
      match (if n = 0 then s.isolatedAt b else none) with
      | some p => s.record cTdiLocked { part := p, block := b / 0x100000 }
      | none => s.writeReg n (b / 8 * 8) (laneOf b size v)

/-- REGISTER_READ: the value delivered. A function's access wakes the module (R371). -/
def execRegisterRead (n a size : Nat) (t : Tlp) (s : State) : Out :=
  guarded (regOk n a size) <|
    let f := fun (s : State) => let r := s.readReg n a size; r.1.deliver [r.2]
    if n = byFirmware then f s else s.request n t f

/-- A firmware write outside the PWR, IDENT and IMAGE blocks wakes the module (R371). -/
def State.fwWake (s : State) (a : Nat) : State :=
  if a / 0x100000 = 0 ∨ a / 0x100000 = 2 ∨ a / 0x100000 = 0xB then s else s.wake

/-- REGISTER_WRITE. GO bits and the like are commands of their own and are ignored here. -/
def execRegisterWrite (n a size : Nat) (v : Word) (t : Tlp) (s : State) : Out :=
  guarded (regOk n a size) <|
    if n = byFirmware then (s.fwWake a).storeReg n a size v.toNat
    else s.request n t (fun s => s.storeReg n a size v.toNat)

/-- The lane of a counter write. -/
def partLane (p : RegPart) (v : Word) : Lane :=
  match p with
  | .whole => { v := v.toNat }
  | .low => { v := v.toNat % 2 ^ 32, hi := false }
  | .high => { v := (v.toNat % 2 ^ 32) * 2 ^ 32, lo := false }

/-- COUNTER_STACK_COUNT_WRITE (R427). -/
def execCounterStackCountWrite (k : Nat) (part : RegPart) (v : Word) (s : State) : Out :=
  guarded (decide (k < 12)) (s.wake.writeStackCount k (partLane part v))

/-- COUNTER_CACHE_STATUS_WRITE (R427). -/
def execCounterCacheStatusWrite (d : Nat) (part : RegPart) (v : Word) (s : State) : Out :=
  guarded (decide (d < 2)) (s.wake.writeCacheStatus d (partLane part v))

/-- COUNTER_PORT_COUNT_WRITE (R427). -/
def execCounterPortCountWrite (n : Nat) (part : RegPart) (v : Word) (s : State) : Out :=
  guarded (decide (n < 8)) (s.wake.writePortCount n (partLane part v))

/-! ### Writes that are rows of their own (R401) -/

/-- RAS_TAIL_WRITE by PF0. -/
def execRasTailWrite (v : Word) (s : State) : Out := guarded true (s.pf0 (fun s => s.writeRasTail (bits v.toNat 9 0)))

/-- FATAL_CLEAR by PF0: FATAL_0 to FATAL_7 are empty. -/
def execFatalClear (s : State) : Out := guarded true (s.pf0 (fun s => { s with ras := { s.ras with fatals := [] } }))

end Sys2Proof.Machine
end

