-- ==== Sys2Proof/Machine/Mgmt.lean ====
section
/-! DEFINITION. The management interface: MCTP control, PLDM and the vendor commands (R343, R344, R393, R398; assumption log 35). -/

namespace Sys2Proof.Machine

/-- Handle a management request: service core 0 runs the interface, so a request meets no answer while it is halted (R406). -/
def State.mgmt (s : State) (f : State → State) : State := if (s.core 0).state = 0 then f s else s

/-! ### MCTP control (Table 12-15) -/

/-- SET_ENDPOINT_ID. -/
def execSetEndpointId (eid : Nat) (s : State) : Out :=
  guarded (decide (eid < 256)) (s.mgmt (fun s => (s.modSec (fun c => { c with eid := eid })).respond "SET_ENDPOINT_ID" 0 [eid] []))

/-- The module's address on the management bus (R343): on SMBus 0x60 plus the address strap; on I3C a dynamic address, which the
bus assigns, so it is free. -/
def State.mgmtAddress (s : State) : Nat × State :=
  if s.pins.mgmtSel then (0x60 + s.pins.addrStrap % 4, s) else (s.draw.1 % 128, s.draw.2)

/-- GET_ENDPOINT_ID: the identifier, the transport (0 I3C, 1 SMBus) and the address on it. -/
def execGetEndpointId (s : State) : Out :=
  guarded true (s.mgmt (fun s =>
    s.mgmtAddress.2.respond "GET_ENDPOINT_ID" 0 [s.sec.eid, b2n s.pins.mgmtSel, s.mgmtAddress.1] []))

/-- GET_MCTP_VERSION_SUPPORT: version 1.3. -/
def execGetMctpVersionSupport (s : State) : Out :=
  guarded true (s.mgmt (fun s => s.respond "GET_MCTP_VERSION_SUPPORT" 0 [1, 3] []))

/-- GET_MESSAGE_TYPE_SUPPORT: the types of Table 12-15. -/
def execGetMessageTypeSupport (s : State) : Out :=
  guarded true (s.mgmt (fun s => s.respond "GET_MESSAGE_TYPE_SUPPORT" 0 [0x00, 0x01, 0x05, 0x7E] []))

/-- GET_ENDPOINT_UUID. -/
def execGetEndpointUuid (s : State) : Out :=
  guarded true (s.mgmt (fun s => s.respond "GET_ENDPOINT_UUID" 0 [Config.endpointUuid % 2 ^ 128] []))

/-! ### PLDM -/

/-- PLDM_BASE: a type 0 command; DSP0240, not the spec, gives the answer's content, so it is free. -/
def execPldmBase (cmd : Nat) (s : State) : Out :=
  guarded (decide (cmd < 256)) (s.mgmt (fun s => let d := s.draw; d.2.respond "PLDM_BASE" 0 [cmd, d.1] []))

/-- A numeric sensor's reading, in the order of Table 12-15: dies, stacks, power, voltage, current, frequency, capacity. The
temperature of the IOD and the input voltage and current are measurements no register holds, so they are free. -/
def State.numericSensor (s : State) (i : Nat) : Option (State × Nat) :=
  if i < 2 then some (s, tempBits (smGet 0 s.pwr.tempDie i))
  else if i = 2 ∨ i = 16 ∨ i = 17 then some (s.draw.2, s.draw.1 % 2 ^ 16)
  else if i < 15 then some (s, tempBits (smGet 0 s.pwr.tempStack (i - 3)))
  else if i = 15 then some (s, s.pwr.inputW)
  else if i = 18 then some (s, s.pwr.freq)
  else if i = 19 then some (s, s.capacityUnits)
  else none

/-- A state sensor's reading: PART_STATE of each partition, then OWNER_CTRL.PENDING. -/
def State.stateSensor (s : State) (i : Nat) : Option (State × Nat) :=
  if i < 8 then some (s, (s.part i).state) else if i = 8 then some (s, b2n s.owner.pending) else none

/-- PLDM_MONITORING_AND_CONTROL. -/
def execPldmMonitoringAndControl (st : Bool) (sensor : Nat) (s : State) : Out :=
  guarded (decide (sensor < 2 ^ 16)) <|
    s.mgmt (fun s =>
      match (if st then s.stateSensor sensor else s.numericSensor sensor) with
      | some r => r.1.respond "PLDM_SENSOR" 0 [sensor, r.2] []
      | none => s.respond "PLDM_ERROR" 0 [sensor] [])

/-- PLDM_FRU: order code, build series, module serial. -/
def execPldmFru (s : State) : Out :=
  guarded true (s.mgmt (fun s => s.respond "PLDM_FRU" 0 [s.pins.order, s.pins.build, s.pins.serial] []))

/-- The bank an update writes (R398): the one that is not running; with none running, the one that is not valid, else bank 1. -/
def State.updateTarget (s : State) : Nat :=
  if s.fw.running = 0 then 1 else if s.fw.running = 1 then 0 else if s.bankOk s.fw.bank0 then 1 else 0

/-- A bank is written: the next restart runs it. -/
def FwState.newBank (f : FwState) (i : Nat) (b : FwBank) : FwState := { f.put i b with written := some i, writing := none }

/-- Finish a bank write under way and answer its update. -/
def State.finishBank (s : State) : State :=
  match s.fw.writing with
  | none => s
  | some w => { s with fw := s.fw.newBank w.1 w.2 }.respond "PLDM_FIRMWARE_UPDATE" 0 [b2n (s.bankOk w.2)] []

/-- PLDM_FIRMWARE_UPDATE (R398): the other bank is erased, written and verified; the answer says whether it is valid. A flash error
leaves it invalid, and so does a write under way, until it is done; without PWR_GOOD no write starts. -/
def execPldmFirmwareUpdate (bank : FwBank) (how : FlashEnd) (s : State) : Out :=
  guarded (fwBankOk bank) <|
    s.mgmt (fun s =>
      if ¬ s.pins.pwrGood then s.respond "PLDM_FIRMWARE_UPDATE" cNvWriteFailed [] []
      else
        let s := s.finishBank
        let t := s.updateTarget
        let erased := { s.fw.put t {} with written := if s.fw.written = some t then none else s.fw.written }
        match how with
        | .failed => { s with fw := erased }.respond "PLDM_FIRMWARE_UPDATE" cNvWriteFailed [] []
        | .running => { s with fw := { erased with writing := some (t, bank) } }
        | .ok => { s with fw := { erased with writing := some (t, bank) } }.finishBank)

/-- The firmware restart (R393, Table 15-2): the newly written bank where it verifies and starts, else the bank that ran before, with
FW_BANK_INVALID; with no bank newly written, the one the boot loader selects. Sessions, IDE keys and DRBG instances are new. -/
def State.firmwareRestart (s : State) (startOk : Bool) : State :=
  let t := s.fw.written.getD (s.selectBank false)
  let ok := t < 2 ∧ s.bankOk (s.fw.slot t) ∧ startOk
  let fw := { s.fw with running := if ok then t else s.fw.running, since := s.now, activation := none, written := none }
  let s := { s with fw := fw, ras := { s.ras with cause := 8 } }
  let s := if ok then s else s.record cFwBankInvalid { block := 13 }
  let s := s.closeSessions.allTdiError.loadMicrocode.deriveKeys.instantiate false false false
  let cores : SMap Core := s.cores.map (fun (e : Nat × Core) => (e.1, { e.2 with state := 0 }))
  { s with cores := cores }

/-- No partition has a loaded package (R393). -/
def State.noPackages (s : State) : Bool := (upTo 8).all (fun p => (s.part p).pkgs.isEmpty)

/-- Run a firmware restart and answer its request. -/
def State.activate (s : State) (startOk : Bool) : State := (s.firmwareRestart startOk).respond "FIRMWARE_ACTIVATION" 0 [] []

/-- A waiting activation starts once no partition has a loaded package (R139, R393); it is looked at each tick. -/
def State.heldActivation (s : State) : State :=
  match s.fw.activation with
  | some startOk => if s.noPackages then s.activate startOk else s
  | none => s

/-- FIRMWARE_ACTIVATION: it waits while a partition has a loaded package. -/
def execFirmwareActivation (startOk : Bool) (s : State) : Out :=
  guarded true <|
    s.mgmt (fun s =>
      let s := s.finishBank
      if s.noPackages then s.activate startOk else { s with fw := { s.fw with activation := some startOk } })

/-! ### Vendor commands (R344) -/

/-- The access size of a vendor command: 32 bits in the high half of a word, else 64. -/
def vendorSize (a : Nat) : Nat := if a % 8 = 0 then 8 else 4

/-- REG_READ. -/
def execRegRead (a : Nat) (s : State) : Out :=
  guarded (decide (a < 2 ^ 32)) <|
    s.mgmt (fun s =>
      let r := s.readReg byMgmt a (vendorSize a)
      r.1.respond "REG_READ" (if accessOk a (vendorSize a) then 0 else cRegAccess) [r.2] [])

/-- REG_WRITE: the IMAGE and FABRIC blocks; any other register answers an error and is not written. -/
def execRegWrite (a : Nat) (v : Word) (s : State) : Out :=
  guarded (decide (a < 2 ^ 32)) <|
    s.mgmt (fun s =>
      if a / 0x100000 = 2 ∨ a / 0x100000 = 7 then
        ((s.fwWake a).storeReg byMgmt a (vendorSize a) v.toNat).respond "REG_WRITE"
          (if accessOk a (vendorSize a) then 0 else cRegAccess) [] []
      else s.respond "REG_WRITE" cRegAccess [] [])

/-- Request a change of owner or a plain scrub and answer its refusal code. The spec gives no code for a request refused because
another is under way, so it is a free one that is not 0 (R287, R344; assumption log 35). -/
def State.vendorOwner (s : State) (change : Bool) (i : OwnerIn) (kind : String) : State :=
  if s.scrubbing then s.draw.2.respond kind (s.draw.1 % 65535 + 1) [] []
  else (s.ownerRequest change i).respond kind (if ¬ i.flashOk ∨ ¬ s.pins.pwrGood then cNvWriteFailed else 0) [] []

/-- OWNER_CHANGE. -/
def execOwnerChange (i : OwnerIn) (s : State) : Out :=
  guarded (samplesOk i.samples) (s.mgmt (fun s => s.vendorOwner true i "OWNER_CHANGE"))

/-- OWNER_SCRUB. -/
def execOwnerScrub (i : OwnerIn) (s : State) : Out :=
  guarded (samplesOk i.samples) (s.mgmt (fun s => s.vendorOwner false i "OWNER_SCRUB"))

end Sys2Proof.Machine
end

