-- ==== Sys2Proof/Machine/Resets.lean ====
section
/-! DEFINITION. Cold start, device reset, start-up, the board's power and reset pins, and service-core watchdogs (R390 to R398,
R406, R414, R418 to R420, R382; assumption log 34). -/

namespace Sys2Proof.Machine

/-! ### What a reset leaves (Tables 15-2 and 15-3) -/

/-- A stack's controller after a reset: the counters are zero and the health record is reapplied (R227). An interrupted migration
resumes after a device reset with its memory kept (R392), so it and the remapping in progress are kept then. -/
def Stack.afterReset (x : Stack) (h : StackHealth) (kept : Bool) : Stack :=
  { failed := h.failed, retired := h.retired, remap := h.remap, sparesUsed := h.sparesUsed
    migrations := if kept then x.migrations else [], wdDue := if kept then x.wdDue else [] }

/-- Memory control after a reset. -/
def MemCtl.afterReset (m : MemCtl) (kept : Bool) : MemCtl :=
  { stks := (upTo 12).foldl (fun l k =>
      smSet {} l k ((smGet {} m.stks k).afterReset (smGet {} m.healthStks k) kept)) []
    healthUnits := m.healthUnits, healthStks := m.healthStks, healthOpen := m.healthOpen }

/-- The fabric after a device reset: the switch and the ports keep their state, the counters are zero. -/
def FabricState.afterReset (f : FabricState) : FabricState :=
  { cfg := f.cfg, peers := f.peers, out := f.out
    ports := f.ports.map (fun e => (e.1, { e.2 with fecCorrected := 0, replays := 0, uncorrectable := 0 })) }

/-- The mode of the host link from the straps (Table 16-2); the version of CXL is negotiated, so it is free. -/
def State.strapMode (s : State) : Nat := if s.pins.hostMode = 1 then Config.freeNat s.free % 2 + 1 else 0

/-- Everything at its reset values but what Table 15-2 keeps; `cold`: the always-on domain and the ports are lost too;
`kept`: the stacks keep their contents. A withdrawn unit stays withdrawn, its record finished or not (R206, R227). -/
def State.afterReset (s : State) (cold kept : Bool) : State :=
  let ras : RasState := if cold then { cause := 1 } else { s.ras with fatal := false, fatalCode := 0 }
  let trip : PwrState := if cold then {} else { tripSource := s.pwr.tripSource, tripIndex := s.pwr.tripIndex, tripTemp := s.pwr.tripTemp }
  let pins := { s.pins with ready := false, thermTrip := false }
  let host : HostState := { mode := s.strapMode, mem := s.host.mem, msix := s.host.msix, readData := s.host.readData }
  let img : ImageState := { slotA := s.img.slotA, slotB := s.img.slotB }
  let owner : OwnerState :=
    { record := s.owner.record, pending := s.owner.pending && !cold, restarts := if cold then 0 else s.owner.restarts
      change := s.owner.isChange }
  let sec : SecState := { ownerKey := s.sec.ownerKey, epoch := s.sec.epoch, users := s.sec.users, out := s.sec.out }
  { pending := s.pending, now := s.now, free := s.free + 1, mem := s.mem, poison := s.poison, withdrawn := smUnion s.withdrawn s.memc.healthUnits
    memc := s.memc.afterReset kept, img := img, owner := owner
    fab := if cold then { out := s.fab.out } else s.fab.afterReset
    host := host, sec := sec
    pwr := { trip with
      factory0 := s.pwr.factory0, factory1 := s.pwr.factory1, ageLog := s.pwr.ageLog, msStart := s.now }.applyTrim
    ras := ras, fw := { s.fw with activation := none, writing := none }, pins := pins }

/-- The stacks of a stack self-test in progress. -/
def State.stacksInTest (s : State) : List Nat :=
  if s.test.busy ∧ s.test.cmd = 4 then (upTo 12).filter (fun k => bit s.test.target k) else []

/-- Abandon every fetched descriptor that no kernel runs for (Table 15-3); those of the queues `begun` are cut off. -/
def State.abandonBegun (s : State) (begun : List (Nat × Nat)) : State :=
  s.each (upTo 9) (fun n x => x.each (upTo 8) (fun q y =>
    match (y.qp n q).desc with
    | some d => if d.running then y else (if begun.contains (n, q) then y.spoil d else y).abandon n q
    | none => y))

/-- The row groups that are due are spared before step 4 of R391 (R223, Table 15-3). -/
def State.finishSparing (s : State) : State :=
  s.each (upTo 12) (fun k x => (x.stk k).due.foldl (fun y e =>
    y.spareRow k (e.1 / Config.unitsPerStack) (e.1 % Config.unitsPerStack) []) x)

/-- Steps 1 to 3 of R391. -/
def State.resetQuiesce (s : State) (begun : List (Nat × Nat)) : State :=
  let s := s.leaveJob.abandonBegun begun
  let s := s.each (upTo 8) (fun p x => if x.isUp p then x.tear p 3 none else x)
  let s := if s.memc.spareHold then s.endSpareHold else s
  let s := s.finishSparing
  let s := s.writeHealth.writeBack (fun _ => true)
  s.each s.stacksInTest (fun k x => x.zeroStack k)

/-! ### Start-up (R392) -/

/-- The row groups of failing lines, each once. -/
def rowGroups (l : List Nat) : List (Nat × Nat × Nat) :=
  l.foldl (fun acc a => let g := (stackNo a, pcOf a, rgOf a); if acc.contains g then acc else acc ++ [g]) []

/-- Withdraw the units that found no spare (R226). -/
def State.withdrawDue (s : State) : State :=
  s.each (upTo 12) (fun k x =>
    ((x.stk k).wdDue.foldl (fun y e => y.withdrawUnit k e.1) x).modStk k (fun y => { y with wdDue := [] }))

/-- Retire the pseudo-channels that 64 sparings within an hour have worn out (R224). -/
def State.retireWorn (s : State) (l : List (Nat × Nat × Nat)) : State :=
  l.foldl (fun x g => if 64 ≤ x.sparedInHour g.1 g.2.1 then x.retirePc g.1 g.2.1 else x) s

/-- The start-up memory test (step 5): failing lines are spared or withdrawn, those of more than 2 corrected symbols with their data
kept (R223); a full test zeroes every line, the other reads the units of the health record's unfinished entries. -/
def State.memoryTest (s : State) (full : Bool) (failLines softLines : List Nat) : State :=
  let seen := fun (a : Nat) => s.decodeCode a == 0 && (full || smGet false s.memc.healthOpen (unitKey a))
  let bad := failLines.filter seen
  let groups := rowGroups (bad ++ softLines.filter seen)
  let s := groups.foldl (fun x g => x.spareRow g.1 g.2.1 g.2.2 (if full then [] else bad)) s
  let s := (s.retireWorn groups).withdrawDue
  if full then { s with mem := [], poison := [], memc := { s.memc with fixups := [] } }.dropLines (fun _ => true) else s

/-- Step 6: microcode, derived keys, the entropy source and the DRBG instances. -/
def State.startSecurity (s : State) (i : StartIn) : State :=
  (s.loadMicrocode.deriveKeys.startSource i.samples).instantiate i.secFails i.noiseFails false

/-- Step 7: a recorded request runs steps 3 to 8 of R285 again (R286). -/
def State.rescrub (s : State) (samples : List Nat) : State :=
  let s := s.modOwner (fun o => { o with restarts := satInc 8 o.restarts, change := o.isChange })
  s.scrubStart s.owner.change samples

/-- Steps 3 to 8 of R392; with no valid bank only the management interface runs. -/
def State.startUp (s : State) (i : StartIn) (full : Bool) : State :=
  let fw := { s.fw with running := s.selectBank i.bankFails, since := s.now, factoryBad := !i.factoryOk, written := none }
  let s := { s with fw := fw, pins := { s.pins with waiting := none } }
  if s.fw.running = 2 then s
  else
    let s := (s.memoryTest full i.failLines i.softLines).startSecurity i
    let s := if i.factoryOk then s else s.record cFactoryRecord { block := 13 }
    if s.scrubbing then s.rescrub i.samples
    else
      let s := s.selectImage i.image
      { s with pins := { s.pins with ready := true } }.ltr

/-- Start up as soon as nothing holds the module (Table 15-1): the reset pins are released, and a cold start has PWR_GOOD. -/
def State.tryStart (s : State) (i : StartIn) : State :=
  match s.pins.waiting with
  | none => s
  | some full =>
    if s.pins.perst ∨ s.pins.moduleReset ∨ (s.ras.cause = 1 ∧ ¬ s.pins.pwrGood) then s else s.startUp i full

/-! ### Resets -/

/-- COLD_START (R390, R418). -/
def execColdStart (i : StartIn) (s : State) : Out :=
  guarded (startOk i) <|
    let s := (s.abandonBegun i.begun).afterReset true false
    let s := { s with pins := { s.pins with inputOn := true, resetHeld := none, waiting := some true } }
    s.tryStart i

/-- The pins a trigger asserts. -/
def Pins.trigger (x : Pins) (c : ResetCause) : Pins :=
  match c with
  | .perst => { x with perst := true }
  | .moduleReset => { x with moduleReset := true }
  | _ => x

/-- RESET_CAUSE.CAUSE of a trigger (Table 15-14). -/
def causeNo : ResetCause → Nat
  | .perst => 2
  | .hotReset => 3
  | .moduleReset => 4
  | .escalation => 5
  | .exitTripped => 6
  | .exitFatal => 7

/-- Steps 4 and 5 of R391. -/
def State.resetGo (s : State) (c : ResetCause) (i : StartIn) (full : Bool) : State :=
  let was := s.pins.waiting == some true
  let s := s.afterReset false (!full)
  let ras := { s.ras with cause := causeNo c, resets := s.ras.resets + 1 }
  let s := { s with ras := ras, pins := { s.pins with resetHeld := none, waiting := some (full || was) } }
  s.tryStart i

/-- Run a device reset (R391); in TRIPPED it is held until the sensors are cool (R382). -/
def State.runReset (s : State) (c : ResetCause) (i : StartIn) : State :=
  let s := { s with pins := s.pins.trigger c }
  if s.pwr.state = 4 then { s with pins := { s.pins with resetHeld := some c } } else (s.resetQuiesce i.begun).resetGo c i false

/-- A trigger of R390 that its state allows: the exits need the state they leave. -/
def State.mayReset (s : State) (c : ResetCause) : Bool :=
  match c with
  | .exitTripped => s.pwr.state == 4
  | .exitFatal => s.ras.fatal
  | _ => true

/-- DEVICE_RESET (R391). -/
def execDeviceReset (c : ResetCause) (i : StartIn) (s : State) : Out :=
  guarded (startOk i) (if s.mayReset c then s.runReset c i else s)

/-- PERST_DEASSERTION: PERST# and MODULE_RESET# are released (R390). -/
def execPerstDeassertion (i : StartIn) (s : State) : Out :=
  guarded (startOk i) <|
    let s := { s with pins := { s.pins with perst := false, moduleReset := false } }
    s.tryStart i

/-- TRIPPED_RESET_RELEASE (R382): every sensor at least 20 °C below its trip point of 115 °C or 105 °C (R381). -/
def execTrippedResetRelease (dieTemps stackTemps : List Int) (i : StartIn) (s : State) : Out :=
  guarded (startOk i && dieTemps.length == 2 && stackTemps.length == 12 && dieTemps.all tempOk && stackTemps.all tempOk) <|
    match s.pins.resetHeld with
    | none => s
    | some c =>
      if dieTemps.all (fun (x : Int) => decide (x ≤ 16 * 95)) ∧ stackTemps.all (fun (x : Int) => decide (x ≤ 16 * 85)) then
        s.resetGo c i true
      else s

/-! ### Power and reference pins (R418 to R420) -/

/-- PWR_GOOD_DEASSERT: no new flash operation begins. -/
def execPwrGoodDeassert (s : State) : Out :=
  guarded true <|
    let x := { s.pins with pwrGood := false }
    { s with pins := x }

/-- PWR_GOOD_ASSERT: the main rails come up, and a cold start goes on. -/
def execPwrGoodAssert (i : StartIn) (s : State) : Out :=
  guarded (startOk i) <|
    let s := { s with pins := { s.pins with pwrGood := true } }
    s.tryStart i

/-- LOSS_OF_INPUT: the whole module loses power; flash, fuses and the key store keep what they hold. -/
def execLossOfInput (s : State) : Out :=
  guarded true <|
    let s := s.afterReset true false
    let x := { s.pins with inputOn := false, pwrGood := false, resetHeld := none, waiting := none }
    { s with mem := [], poison := [], pins := x, fab := { out := s.fab.out } }

/-- REFCLK_LOSS: the always-on domain runs on its own oscillator, the host link does not train (R419). -/
def execRefclkLoss (s : State) : Out :=
  guarded true <|
    let x := { s.pins with refclk := false }
    { s with pins := x }

/-- REFCLK_RETURN (R419). -/
def execRefclkReturn (s : State) : Out :=
  guarded true <|
    let x := { s.pins with refclk := true }
    { s with pins := x }

/-! ### Service cores (R406) -/

/-- The core that restarts core c. -/
def restarterOf (c : Nat) : Nat := if c = 0 then 1 else 0

/-- Collective instances that a core runs are aborted. -/
def State.abortCoreColls (s : State) (c : Nat) : State :=
  s.each (upTo 64) (fun k x => if (x.coll k).isOpen ∧ (x.part (x.coll k).part).core = c then x.abortColl k cCoreRestarted else x)

/-- What core 0 was doing when it halts: a load that has not reached step 4 of R273 ends, one at or past it waits for the restart; a
slot write stops where it is (Table 10-11), a bank write leaves its bank invalid, and a scrub sequence starts again. -/
def State.haltWork (s : State) (samples : List Nat) : State :=
  let s := match s.img.loading with
    | some l => if l.installing then s else s.loadOver cCoreRestarted
    | none => s
  let s := { s.stopNv cCoreRestarted with fw := { s.fw with writing := none } }
  if s.scrubbing then s.rescrub samples else s

/-- A halted core's descriptors, other than RUN, that it had begun are cut off and wait for the restart to complete them. -/
def State.markBegun (s : State) (c : Nat) (begun : List (Nat × Nat)) : State :=
  begun.foldl (fun x e =>
    match (x.qp e.1 e.2).desc with
    | some d =>
      if d.entry.opcode = 1 ∨ d.begun ∨ (x.part d.part).core ≠ c then x
      else (x.spoil d).modQp e.1 e.2 (fun y => { y with desc := some { d with begun := true } })
    | none => x) s

/-- Halt a core whose watchdog ran out: its restart begins when its restarter runs. -/
def State.haltCore (s : State) (c : Nat) (i : StartIn) : State :=
  let st := if (s.core (restarterOf c)).state = 0 then 2 else 1
  let s := (s.modCore c (fun x => { x with state := st })).record cCoreRestarted { block := 12 }
  let s := (s.markBegun c i.begun).abortCoreColls c
  if c = 0 then s.haltWork i.samples else s

/-- WATCHDOG_EXPIRY: a second one within 1 s of a restart escalates to a device reset. -/
def execWatchdogExpiry (c : Nat) (i : StartIn) (s : State) : Out :=
  guarded (decide (c < 4) && startOk i) <|
    let x := s.core c
    if x.state ≠ 0 then s
    else
      match x.restartedAt with
      | some t =>
        if s.now - t < 100000000 then (s.record cCoreEscalated { block := 12 }).runReset .escalation i else s.haltCore c i
      | none => s.haltCore c i

/-- Tokens that waited in the runtime core's queue are taken. -/
def State.takeRuntime (s : State) (p : Nat) : State :=
  s.modPart p (fun x => { x with runtimeQ := [], ledger := x.runtimeQ.foldl (fun l _ => l.consume) x.ledger })

/-- Descriptors a core had begun, other than RUN, complete with CORE_RESTARTED; the others run now. -/
def State.endBegun (s : State) (c : Nat) : State :=
  s.postAll (fun d => d.begun && (s.part d.part).core == c) cCoreRestarted

/-- A core runs again: completions it held are posted, its queues' tokens taken, and a core it restarts begins its reload. -/
def State.resumeCore (s : State) (c : Nat) : State :=
  let held := (s.core c).pendingPosts
  let s := s.modCore c (fun x => { x with
    state := 0, restarts := satInc 8 x.restarts, restartedAt := some s.now, pendingPosts := [] })
  let s := held.foldl (fun x e => x.postOwner e.1 e.2.1 e.2.2) s
  let s := s.each (upTo 8) (fun p x => if (x.part p).core = c ∧ (x.part p).tiles ≠ 0 then x.takeRuntime p else x)
  let s := s.endBegun c
  let s := if c = 0 then s.finishLoad else s
  s.each (upTo 4) (fun d x => if restarterOf d = c ∧ (x.core d).state = 1 then x.modCore d (fun y => { y with state := 2 }) else x)

/-- CORE_RESTART_DONE. -/
def execCoreRestartDone (c : Nat) (s : State) : Out :=
  guarded (decide (c < 4)) (if (s.core c).state = 2 then s.resumeCore c else s)

/-- ROLLBACK_COUNTER_RAISE (R398): the bank has run for 24 hours. -/
def execRollbackCounterRaise (s : State) : Out :=
  guarded true <|
    if s.fw.running = 2 ∨ s.now - s.fw.since < 24 * 3600 * 100000000 then s
    else
      let fw := { s.fw with fwRollback := max s.fw.fwRollback s.fw.bank.svn }
      { s with fw := fw }

end Sys2Proof.Machine
end

