-- ==== Sys2Proof/Machine/Triggers.lean ====
section
/-! DEFINITION. Register writes that start something in the array, the messages, the noise unit and the ledgers. Each wakes the
module first (R371). -/

namespace Sys2Proof.Machine

/-! ### Sequencers (Table 4-12) -/

/-- START (R107). -/
def execStart (q kernel replays : Nat) (noList : Bool) (s : State) : Out :=
  guarded (decide (q < 8) && decide (kernel < 64) && decide (replays < 2 ^ 24))
    (s.wake.unlessHalted (fun s => s.startKernel q kernel replays noList none))

/-- STOP (R112, R113): STOPPED at the next issue; a WAITT command that waits ends so. -/
def execStop (q : Nat) (s : State) : Out :=
  guarded (decide (q < 8)) (let s := s.wake; if (s.seq q).state = 0 then s.heldEnd (s.seqP q) cStopped else s.stopKernel q)

/-- LOAD_GO (R106). A GO while a load runs starts nothing (assumption log 37). The load keeps its own source, destination and
count: LOAD_SRC and LOAD_CTRL can be written meanwhile (R117). -/
def execLoadGo (q dest count : Nat) (table : Bool) (s : State) : Out :=
  guarded (decide (q < 8) && decide (dest < 2 ^ 15) && decide (count < 2 ^ 16)) <| s.wake.unlessHalted fun s =>
    let x := s.seq q
    if x.ldBusy then s.modSeq q (fun x => { x with ldDest := dest, ldCount := count, ldTable := table })
    else
      let running := match x.kern with
        | some k => ktMeets (x.kt k.kernel) table dest count
        | none => false
      let s := s.modSeq q (fun x => { x with ldDest := dest, ldCount := count, ldTable := table })
      let room : Nat := if table then 2048 else 32768
      if count = 0 ∨ x.loadSrc % 64 ≠ 0 ∨ room < dest + count ∨ running = true then
        s.modSeq q (fun x => { x with ldError := true, ldErrCode := cLoadInvalid })
      else
        s.modSeq q (fun x => { x with
          ldBusy := true, runSrc := x.loadSrc, runDest := dest, runCount := count, runTable := table
          ktab := (upTo 64).foldl (fun m e =>
            let v := smGet 0 m e
            if ktValid v ∧ ktMeets v table dest count then smSet 0 m e (v &&& ~~~(1#64 <<< 31)) else m) x.ktab })

/-- KTAB_WRITE (R107). -/
def execKtabWrite (q e : Nat) (v : Word) (s : State) : Out :=
  guarded (decide (q < 8) && decide (e < 64)) (s.wake.unlessHalted (fun s => s.writeKtab q e v))

/-- PARAMETER_REGISTER_WRITE (R109). -/
def execParameterRegisterWrite (q r : Nat) (v : Word) (s : State) : Out :=
  guarded (decide (q < 8) && decide (r < 16)) (s.wake.unlessHalted (fun s => s.writeParam q r v))

/-! ### Stream slots (Table 6-8) -/

/-- STREAM_ARM (R155). -/
def execStreamArm (t i : Nat) (s : State) : Out :=
  guarded (slotOk t i) <|
    let s := s.wake
    let x := s.slot t i
    if x.state ≠ 0 then s
    else if armBad x.desc then s.modSlot t i (fun x => { x with error := true, errCode := cDescriptorInvalid })
    else s.modSlot t i (fun x => { x with state := 1, run := none })

/-- STREAM_GO (R156, R177): a failed GO sets ERROR and leaves the slot's state unchanged. -/
def execStreamGo (t i : Nat) (s : State) : Out :=
  guarded (slotOk t i) <|
    let s := s.wake
    let x := s.pseq ((s.tilePart t).getD 0)
    let c := s.kickCode x t i
    if c ≠ 0 then s.modSlot t i (fun y => { y with error := true, errCode := c }) else s.kick x t i none none

/-- STREAM_ABORT (R160, R175): aborts an ACTIVE run, frees an ARMED slot. -/
def execStreamAbort (t i : Nat) (s : State) : Out :=
  guarded (slotOk t i) <|
    let s := s.wake
    let x := s.slot t i
    if x.state = 1 then s.modSlot t i (fun y => { y with state := 0, run := none }) else s.abortSlot t i

/-- SLOT_WRITE (R155): stored while FREE, otherwise discarded with WRITE_DROPPED. -/
def execSlotWrite (t i w : Nat) (v : Word) (s : State) : Out :=
  guarded (slotOk t i && decide (w < 8)) <|
    let s := s.wake
    if (s.slot t i).state = 0 then s.modSlot t i (fun x => { x with desc := putWord x.desc w v })
    else s.modSlot t i (fun x => { x with dropped := true })

/-- FETCH_STATUS_READ (Table 6-8): the high-water field is cleared on read. -/
def execFetchStatusRead (t : Nat) (s : State) : Out :=
  guarded (decide (t < 64)) <|
    let s := s.wake
    let v := fetchStatus (s.tile t)
    { s.modTile t (fun x => { x with ctxHigh := 0 }) with host := { s.host with readData := s.host.readData ++ [v] } }

/-! ### Messages, noise requests, ledgers -/

/-- QRESET (R249). -/
def execQreset (p ep queue : Nat) (s : State) : Out :=
  guarded (decide (p < 8) && decide (ep < 256) && decide (queue < 16)) <|
    let s := s.wake.modPart p (fun x => { x with qresetReg := pack [(0, ep), (8, queue)] })
    match (s.msg p).queueCfg ep queue with
    | some c => s.resetQueue p c
    | none => s

/-- FLAG_SET (R252). -/
def execFlagSet (p mask : Nat) (s : State) : Out :=
  guarded (decide (p < 8) && decide (mask < 2 ^ 32)) <|
    let s := s.wake.modMsg p (fun m => { m with flags := m.flags ||| mask })
    (s.msg p).sub.queues.foldl (fun x c =>
      if c.gateEn ∧ bit mask c.gateFlag then x.modRq p c.ep c.queue (fun q => { q with reported := false }) else x) s

/-- NOISE_REQUEST_GO (R201): checked, then drawing; a GO while BUSY is discarded, and PF0 is shut out of a locked partition (R353). -/
def execNoiseRequestGo (w : NoiseIn) (s : State) : Out :=
  guarded (decide (w.part < 8)) <|
    let p := w.part
    let s := s.wake
    if w.byPf0 ∧ s.tdiClosed (p + 1) = true then s.record cTdiLocked { part := p, block := 9 }
    else if (s.part p).noiseBusy then s
    else
      let c := s.noiseCode p
      if c ≠ 0 then s.noiseEnd p c
      else
        let r := (s.part p).noiseReq
        let s := s.drbgRequests true (drawRequests (nqKind r) (nqWidth r) (nqLogN r))
        if s.sec.noiseOk then s.stir.modPart p (fun x => { x with noiseBusy := true, noiseErr := 0 }) else s.noiseEnd p cDrbgFail

/-- A request of PF0, or of the VF that serves a partition, to its LEDGER_CTRL (R259, R352). -/
def State.ledgerRequest (s : State) (l : LedgerIn) (f : State → State) : State :=
  s.request (if l.byVf then l.part + 1 else 0) l.tlp f

/-- SNAP (R256, R258): discarded while BUSY. -/
def execSnap (l : LedgerIn) (s : State) : Out :=
  guarded (decide (l.part < 8)) <|
    s.ledgerRequest l (fun s => if (s.part l.part).ledgerBusy then s else s.capture l.part)

/-- DUMP (R258): discarded while BUSY. -/
def execDump (l : LedgerIn) (s : State) : Out :=
  guarded (decide (l.part < 8)) <|
    s.ledgerRequest l (fun s => if (s.part l.part).ledgerBusy then s else s.dump l.part)

end Sys2Proof.Machine
end

