-- ==== Sys2Proof/Machine/Dispatch.lean ====
section
/-! DEFINITION. Dispatch: one arm per command, each a direct call of its meaning. -/

namespace Sys2Proof.Machine

/-- The effect of a command on everything but the queue. -/
def exec (i : Instr) (s : State) : Host.Outcome State Fault Refusal :=
  match i with
  | .operate w => Sys2Proof.Machine.execOperate w s
  | .nopWord w => Sys2Proof.Machine.execNopWord w s
  | .beatRead q => Sys2Proof.Machine.execBeatRead q s
  | .beatWrite q bridgeBad => Sys2Proof.Machine.execBeatWrite q bridgeBad s
  | .wordRetire q => Sys2Proof.Machine.execWordRetire q s
  | .waitRelease q => Sys2Proof.Machine.execWaitRelease q s
  | .waitTimeout q => Sys2Proof.Machine.execWaitTimeout q s
  | .replayBoundary q => Sys2Proof.Machine.execReplayBoundary q s
  | .replayFetch q => Sys2Proof.Machine.execReplayFetch q s
  | .start q kernel replays noList => Sys2Proof.Machine.execStart q kernel replays noList s
  | .stop q => Sys2Proof.Machine.execStop q s
  | .kernelDrainEnd q => Sys2Proof.Machine.execKernelDrainEnd q s
  | .kernelComplete q => Sys2Proof.Machine.execKernelComplete q s
  | .loadGo q dest count table => Sys2Proof.Machine.execLoadGo q dest count table s
  | .loadComplete q => Sys2Proof.Machine.execLoadComplete q s
  | .ktabWrite q e v => Sys2Proof.Machine.execKtabWrite q e v s
  | .parameterRegisterWrite q r v => Sys2Proof.Machine.execParameterRegisterWrite q r v s
  | .counterStackCountWrite k part v => Sys2Proof.Machine.execCounterStackCountWrite k part v s
  | .counterCacheStatusWrite d part v => Sys2Proof.Machine.execCounterCacheStatusWrite d part v s
  | .counterPortCountWrite n part v => Sys2Proof.Machine.execCounterPortCountWrite n part v s
  | .registerWrite fn addr size v tlp => Sys2Proof.Machine.execRegisterWrite fn addr size v tlp s
  | .nop p g => Sys2Proof.Machine.execNop p g s
  | .waitt p g => Sys2Proof.Machine.execWaitt p g s
  | .emitt p g => Sys2Proof.Machine.execEmitt p g s
  | .ldct p g => Sys2Proof.Machine.execLdct p g s
  | .stct p g => Sys2Proof.Machine.execStct p g s
  | .bind p g => Sys2Proof.Machine.execBind p g s
  | .ldl p g => Sys2Proof.Machine.execLdl p g s
  | .stl p g => Sys2Proof.Machine.execStl p g s
  | .ldt p g => Sys2Proof.Machine.execLdt p g s
  | .stt p g => Sys2Proof.Machine.execStt p g s
  | .ladd p g => Sys2Proof.Machine.execLadd p g s
  | .lsub p g => Sys2Proof.Machine.execLsub p g s
  | .lneg p g => Sys2Proof.Machine.execLneg p g s
  | .lmul p g => Sys2Proof.Machine.execLmul p g s
  | .lmac p g => Sys2Proof.Machine.execLmac p g s
  | .lmulc p g => Sys2Proof.Machine.execLmulc p g s
  | .lntt p g => Sys2Proof.Machine.execLntt p g s
  | .lintt p g => Sys2Proof.Machine.execLintt p g s
  | .laut p g => Sys2Proof.Machine.execLaut p g s
  | .cadd p g => Sys2Proof.Machine.execCadd p g s
  | .csub p g => Sys2Proof.Machine.execCsub p g s
  | .cneg p g => Sys2Proof.Machine.execCneg p g s
  | .caddp p g => Sys2Proof.Machine.execCaddp p g s
  | .cmulp p g => Sys2Proof.Machine.execCmulp p g s
  | .cmul p g => Sys2Proof.Machine.execCmul p g s
  | .cmuli p g => Sys2Proof.Machine.execCmuli p g s
  | .relin p g => Sys2Proof.Machine.execRelin p g s
  | .rot p g => Sys2Proof.Machine.execRot p g s
  | .ksw p g => Sys2Proof.Machine.execKsw p g s
  | .modup p g => Sys2Proof.Machine.execModup p g s
  | .moddown p g => Sys2Proof.Machine.execModdown p g s
  | .rescale p g => Sys2Proof.Machine.execRescale p g s
  | .modsw p g => Sys2Proof.Machine.execModsw p g s
  | .drop p g => Sys2Proof.Machine.execDrop p g s
  | .toeval p g => Sys2Proof.Machine.execToeval p g s
  | .tocoef p g => Sys2Proof.Machine.execTocoef p g s
  | .encpk p g => Sys2Proof.Machine.execEncpk p g s
  | .modraise p g => Sys2Proof.Machine.execModraise p g s
  | .bootclose p g => Sys2Proof.Machine.execBootclose p g s
  | .flood p g => Sys2Proof.Machine.execFlood p g s
  | .mmul p g => Sys2Proof.Machine.execMmul p g s
  | .vpass p g => Sys2Proof.Machine.execVpass p g s
  | .rseed p g => Sys2Proof.Machine.execRseed p g s
  | .allred p g => Sys2Proof.Machine.execAllred p g s
  | .bcast p g => Sys2Proof.Machine.execBcast p g s
  | .gather p g => Sys2Proof.Machine.execGather p g s
  | .streamArm t j => Sys2Proof.Machine.execStreamArm t j s
  | .streamGo t j => Sys2Proof.Machine.execStreamGo t j s
  | .streamAbort t j => Sys2Proof.Machine.execStreamAbort t j s
  | .slotWrite t j w v => Sys2Proof.Machine.execSlotWrite t j w v s
  | .fetchStatusRead t => Sys2Proof.Machine.execFetchStatusRead t s
  | .blockListRead t j => Sys2Proof.Machine.execBlockListRead t j s
  | .streamBlockStart t j => Sys2Proof.Machine.execStreamBlockStart t j s
  | .fetchLineLand t j => Sys2Proof.Machine.execFetchLineLand t j s
  | .storeAck t j => Sys2Proof.Machine.execStoreAck t j s
  | .streamBlockComplete t j => Sys2Proof.Machine.execStreamBlockComplete t j s
  | .streamRunComplete t j => Sys2Proof.Machine.execStreamRunComplete t j s
  | .streamAbortDrained t j => Sys2Proof.Machine.execStreamAbortDrained t j s
  | .ctHeaderLoad t j => Sys2Proof.Machine.execCtHeaderLoad t j s
  | .keyHeaderCheck t j => Sys2Proof.Machine.execKeyHeaderCheck t j s
  | .tensorHeaderRead t j => Sys2Proof.Machine.execTensorHeaderRead t j s
  | .coordinateListRead t j idx => Sys2Proof.Machine.execCoordinateListRead t j idx s
  | .badgerChainStart t j => Sys2Proof.Machine.execBadgerChainStart t j s
  | .badgerChainEnd t j internalError => Sys2Proof.Machine.execBadgerChainEnd t j internalError s
  | .noiseRequestGo p => Sys2Proof.Machine.execNoiseRequestGo p s
  | .noiseRequestDone p => Sys2Proof.Machine.execNoiseRequestDone p s
  | .stackRead addr symbols cache => Sys2Proof.Machine.execStackRead addr symbols cache s
  | .stackWrite addr data symbols => Sys2Proof.Machine.execStackWrite addr data symbols s
  | .correctedWriteback addr => Sys2Proof.Machine.execCorrectedWriteback addr s
  | .atomic op addr pset entry data => Sys2Proof.Machine.execAtomic op addr pset entry data s
  | .dirtyWriteback addr => Sys2Proof.Machine.execDirtyWriteback addr s
  | .patrolScrub k symbols => Sys2Proof.Machine.execPatrolScrub k symbols s
  | .rowSparing k pc rg badLines => Sys2Proof.Machine.execRowSparing k pc rg badLines s
  | .pcRetirement k r => Sys2Proof.Machine.execPcRetirement k r s
  | .migration k m => Sys2Proof.Machine.execMigration k m s
  | .withdrawal k u => Sys2Proof.Machine.execWithdrawal k u s
  | .healthRecordWrite => Sys2Proof.Machine.execHealthRecordWrite s
  | .stackLoss k => Sys2Proof.Machine.execStackLoss k s
  | .spareHoldExpiry => Sys2Proof.Machine.execSpareHoldExpiry s
  | .send p ep idx c => Sys2Proof.Machine.execSend p ep idx c s
  | .recv p ep idx c => Sys2Proof.Machine.execRecv p ep idx c s
  | .close p ep idx c => Sys2Proof.Machine.execClose p ep idx c s
  | .openQueue p ep idx c => Sys2Proof.Machine.execOpenQueue p ep idx c s
  | .clrf p ep idx c => Sys2Proof.Machine.execClrf p ep idx c s
  | .heldCommandResume p ep index isSend => Sys2Proof.Machine.execHeldCommandResume p ep index isSend s
  | .recordArrival p route => Sys2Proof.Machine.execRecordArrival p route s
  | .spillDrain p ep queue => Sys2Proof.Machine.execSpillDrain p ep queue s
  | .spillWriteComplete p ep queue => Sys2Proof.Machine.execSpillWriteComplete p ep queue s
  | .qreset p ep queue => Sys2Proof.Machine.execQreset p ep queue s
  | .flagSet p mask => Sys2Proof.Machine.execFlagSet p mask s
  | .progressWatchdog p ep queue => Sys2Proof.Machine.execProgressWatchdog p ep queue s
  | .ledgerCheck p parityError => Sys2Proof.Machine.execLedgerCheck p parityError s
  | .snap p => Sys2Proof.Machine.execSnap p s
  | .dump p => Sys2Proof.Machine.execDump p s
  | .load source host how => Sys2Proof.Machine.execLoad source host how s
  | .heldLoadStart host how => Sys2Proof.Machine.execHeldLoadStart host how s
  | .teardown w => Sys2Proof.Machine.execTeardown w s
  | .nvWrite slot host how => Sys2Proof.Machine.execNvWrite slot host how s
  | .invalidate slot => Sys2Proof.Machine.execInvalidate slot s
  | .change j => Sys2Proof.Machine.execChange j s
  | .scrub j => Sys2Proof.Machine.execScrub j s
  | .ownerChangeScrubDone failUnits image => Sys2Proof.Machine.execOwnerChangeScrubDone failUnits image s
  | .flitReceive n body tail => Sys2Proof.Machine.execFlitReceive n body tail s
  | .replayTimeout n => Sys2Proof.Machine.execReplayTimeout n s
  | .packetForward n => Sys2Proof.Machine.execPacketForward n s
  | .portTraining n link => Sys2Proof.Machine.execPortTraining n link s
  | .trainingRetry n link => Sys2Proof.Machine.execTrainingRetry n link s
  | .laneFailure n lane => Sys2Proof.Machine.execLaneFailure n lane s
  | .portDown n => Sys2Proof.Machine.execPortDown n s
  | .retrain n link => Sys2Proof.Machine.execRetrain n link s
  | .contributionArrival pkt => Sys2Proof.Machine.execContributionArrival pkt s
  | .dataArrival pkt => Sys2Proof.Machine.execDataArrival pkt s
  | .landingAcknowledgement peer vc upTo => Sys2Proof.Machine.execLandingAcknowledgement peer vc upTo s
  | .landingAckSend peer vc => Sys2Proof.Machine.execLandingAckSend peer vc s
  | .collSendUp c => Sys2Proof.Machine.execCollSendUp c s
  | .collResultComplete c => Sys2Proof.Machine.execCollResultComplete c s
  | .collTimeout c => Sys2Proof.Machine.execCollTimeout c s
  | .ceiling from_ job step => Sys2Proof.Machine.execCeiling from_ job step s
  | .epoch job e f => Sys2Proof.Machine.execEpoch job e f s
  | .epochTimer => Sys2Proof.Machine.execEpochTimer s
  | .freqLockLost => Sys2Proof.Machine.execFreqLockLost s
  | .abort from_ job coll inst cause origin => Sys2Proof.Machine.execAbort from_ job coll inst cause origin s
  | .join from_ job level count => Sys2Proof.Machine.execJoin from_ job level count s
  | .joinResult job status => Sys2Proof.Machine.execJoinResult job status s
  | .leave from_ job origin => Sys2Proof.Machine.execLeave from_ job origin s
  | .advert n tol => Sys2Proof.Machine.execAdvert n tol s
  | .joinLimitExpiry => Sys2Proof.Machine.execJoinLimitExpiry s
  | .frogEntry n => Sys2Proof.Machine.execFrogEntry n s
  | .frogExit n => Sys2Proof.Machine.execFrogExit n s
  | .sqTail fn q tail tlp => Sys2Proof.Machine.execSqTail fn q tail tlp s
  | .cqHead fn q head tlp => Sys2Proof.Machine.execCqHead fn q head tlp s
  | .qcfgWrite fn q v tlp => Sys2Proof.Machine.execQcfgWrite fn q v tlp s
  | .winBaseWrite fn v tlp => Sys2Proof.Machine.execWinBaseWrite fn v tlp s
  | .descriptorFetch fn q entry => Sys2Proof.Machine.execDescriptorFetch fn q entry s
  | .nopDescriptor fn q => Sys2Proof.Machine.execNopDescriptor fn q s
  | .run fn q => Sys2Proof.Machine.execRun fn q s
  | .loadPkg fn q => Sys2Proof.Machine.execLoadPkg fn q s
  | .unloadPkg fn q => Sys2Proof.Machine.execUnloadPkg fn q s
  | .copyIn fn q host => Sys2Proof.Machine.execCopyIn fn q host s
  | .copyOut fn q hostOkBytes => Sys2Proof.Machine.execCopyOut fn q hostOkBytes s
  | .ctxSave fn q => Sys2Proof.Machine.execCtxSave fn q s
  | .ctxRestore fn q => Sys2Proof.Machine.execCtxRestore fn q s
  | .interruptTimer fn q => Sys2Proof.Machine.execInterruptTimer fn q s
  | .bar2Read fn x len tlp => Sys2Proof.Machine.execBar2Read fn x len tlp s
  | .bar2Write fn x data tlp => Sys2Proof.Machine.execBar2Write fn x data tlp s
  | .linkRetrain speed width => Sys2Proof.Machine.execLinkRetrain speed width s
  | .vfFunctionLevelReset n => Sys2Proof.Machine.execVfFunctionLevelReset n s
  | .pf0FunctionLevelReset => Sys2Proof.Machine.execPf0FunctionLevelReset s
  | .setEndpointId eid => Sys2Proof.Machine.execSetEndpointId eid s
  | .getEndpointId => Sys2Proof.Machine.execGetEndpointId s
  | .getMctpVersionSupport => Sys2Proof.Machine.execGetMctpVersionSupport s
  | .getMessageTypeSupport => Sys2Proof.Machine.execGetMessageTypeSupport s
  | .getEndpointUuid => Sys2Proof.Machine.execGetEndpointUuid s
  | .pldmBase cmd => Sys2Proof.Machine.execPldmBase cmd s
  | .pldmMonitoringAndControl state sensor => Sys2Proof.Machine.execPldmMonitoringAndControl state sensor s
  | .pldmFru => Sys2Proof.Machine.execPldmFru s
  | .pldmFirmwareUpdate bank how => Sys2Proof.Machine.execPldmFirmwareUpdate bank how s
  | .firmwareActivation startOk => Sys2Proof.Machine.execFirmwareActivation startOk s
  | .regRead addr => Sys2Proof.Machine.execRegRead addr s
  | .regWrite addr v => Sys2Proof.Machine.execRegWrite addr v s
  | .ownerChange j => Sys2Proof.Machine.execOwnerChange j s
  | .ownerScrub j => Sys2Proof.Machine.execOwnerScrub j s
  | .getVersion m => Sys2Proof.Machine.execGetVersion m s
  | .getCapabilities m => Sys2Proof.Machine.execGetCapabilities m s
  | .negotiateAlgorithms m offer => Sys2Proof.Machine.execNegotiateAlgorithms m offer s
  | .getCertificate m slot offset length => Sys2Proof.Machine.execGetCertificate m slot offset length s
  | .challenge m slot nonce => Sys2Proof.Machine.execChallenge m slot nonce s
  | .getMeasurements m index nonce => Sys2Proof.Machine.execGetMeasurements m index nonce s
  | .keyExchange m curve => Sys2Proof.Machine.execKeyExchange m curve s
  | .heartbeat m sid => Sys2Proof.Machine.execHeartbeat m sid s
  | .heartbeatTimeout m sid => Sys2Proof.Machine.execHeartbeatTimeout m sid s
  | .keyUpdate m sid => Sys2Proof.Machine.execKeyUpdate m sid s
  | .ideKm sid fn key => Sys2Proof.Machine.execIdeKm sid fn key s
  | .lockInterfaceRequest sid n => Sys2Proof.Machine.execLockInterfaceRequest sid n s
  | .startInterfaceRequest sid n => Sys2Proof.Machine.execStartInterfaceRequest sid n s
  | .stopInterfaceRequest sid n => Sys2Proof.Machine.execStopInterfaceRequest sid n s
  | .installOwner => Sys2Proof.Machine.execInstallOwner s
  | .ecdsaVerify r => Sys2Proof.Machine.execEcdsaVerify r s
  | .ecdsaSign r => Sys2Proof.Machine.execEcdsaSign r s
  | .ecdh r => Sys2Proof.Machine.execEcdh r s
  | .gen r => Sys2Proof.Machine.execGen r s
  | .readPublic r => Sys2Proof.Machine.execReadPublic r s
  | .rsaVerify r => Sys2Proof.Machine.execRsaVerify r s
  | .pkOperationDone mismatch => Sys2Proof.Machine.execPkOperationDone mismatch s
  | .microcodeCheck matches_ => Sys2Proof.Machine.execMicrocodeCheck matches_ s
  | .entropySample sample => Sys2Proof.Machine.execEntropySample sample s
  | .enterA1 => Sys2Proof.Machine.execEnterA1 s
  | .enterLizard => Sys2Proof.Machine.execEnterLizard s
  | .enterDeepLizard => Sys2Proof.Machine.execEnterDeepLizard s
  | .powerStateExit => Sys2Proof.Machine.execPowerStateExit s
  | .bankSleepWrite t v => Sys2Proof.Machine.execBankSleepWrite t v s
  | .bankPowerOff t b => Sys2Proof.Machine.execBankPowerOff t b s
  | .bankWakeDone t b => Sys2Proof.Machine.execBankWakeDone t b s
  | .frequencyChange => Sys2Proof.Machine.execFrequencyChange s
  | .dutyWindow => Sys2Proof.Machine.execDutyWindow s
  | .powerSample staticW dynamicW input => Sys2Proof.Machine.execPowerSample staticW dynamicW input s
  | .capRecompute staticW dynamicW => Sys2Proof.Machine.execCapRecompute staticW dynamicW s
  | .capCeilingRaise => Sys2Proof.Machine.execCapCeilingRaise s
  | .thermalThrottle d temps => Sys2Proof.Machine.execThermalThrottle d temps s
  | .thermalStep d temps => Sys2Proof.Machine.execThermalStep d temps s
  | .trip stack index temp => Sys2Proof.Machine.execTrip stack index temp s
  | .ageingTrim d => Sys2Proof.Machine.execAgeingTrim d s
  | .pwrCtrlWrite v => Sys2Proof.Machine.execPwrCtrlWrite v s
  | .coldStart j => Sys2Proof.Machine.execColdStart j s
  | .deviceReset cause j => Sys2Proof.Machine.execDeviceReset cause j s
  | .pwrGoodDeassert => Sys2Proof.Machine.execPwrGoodDeassert s
  | .refclkLoss => Sys2Proof.Machine.execRefclkLoss s
  | .watchdogExpiry c j => Sys2Proof.Machine.execWatchdogExpiry c j s
  | .coreRestartDone c => Sys2Proof.Machine.execCoreRestartDone c s
  | .rollbackCounterRaise => Sys2Proof.Machine.execRollbackCounterRaise s
  | .logicBist target => Sys2Proof.Machine.execLogicBist target s
  | .arrayMemoryBist target => Sys2Proof.Machine.execArrayMemoryBist target s
  | .cacheMemoryBist target => Sys2Proof.Machine.execCacheMemoryBist target s
  | .stackMemoryBist target => Sys2Proof.Machine.execStackMemoryBist target s
  | .bistAbort target => Sys2Proof.Machine.execBistAbort target s
  | .bistDone misr units => Sys2Proof.Machine.execBistDone misr units s
  | .rasTailWrite v => Sys2Proof.Machine.execRasTailWrite v s
  | .fatalClear => Sys2Proof.Machine.execFatalClear s
  | .pwrGoodAssert j => Sys2Proof.Machine.execPwrGoodAssert j s
  | .lossOfInput => Sys2Proof.Machine.execLossOfInput s
  | .refclkReturn => Sys2Proof.Machine.execRefclkReturn s
  | .perstDeassertion j => Sys2Proof.Machine.execPerstDeassertion j s
  | .trippedResetRelease dieTemps stackTemps j => Sys2Proof.Machine.execTrippedResetRelease dieTemps stackTemps j s
  | .configurationAccess a => Sys2Proof.Machine.execConfigurationAccess a s
  | .registerRead fn addr size tlp => Sys2Proof.Machine.execRegisterRead fn addr size tlp s
  | .finish m sid => Sys2Proof.Machine.execFinish m sid s
  | .endSession m sid => Sys2Proof.Machine.execEndSession m sid s
  | .frequencyChangeEnd => Sys2Proof.Machine.execFrequencyChangeEnd s
  | .powerStateExitDone => Sys2Proof.Machine.execPowerStateExitDone s

end Sys2Proof.Machine
end

