-- ==== Sys2Proof/Machine/Step.lean ====
section
/-! DEFINITION. One step: the command at the front of the queue, or one 10 ns tick of the always-on time where
none waits (assumption log 2). -/

namespace Sys2Proof.Machine

/-- What core 0 has under way is done by the next tick: a load, a slot write, a bank write; and so is the security-complex wipe
(assumption logs 26 and 28). -/
def State.finishWork (s : State) : State :=
  if (s.core 0).state = 0 then s.finishLoad.finishNv.finishBank.wipeEnd else s.wipeEnd

/-- Time passes by one tick of 10 ns (R259): work under way ends, the power state is followed (R370, R371), and a firmware activation
that waited for the last package starts (R393). -/
def State.tick (s : State) : State :=
  let t := { s with now := s.now + 1 }
  t.finishWork.followPower.heldActivation

/-- One step of the block. -/
def step (s : State) : Host.Outcome State Fault Refusal :=
  match s.pending with
  | [] => .next s.tick
  | c :: rest => exec c { s with pending := rest }

/-- `s` with the command a word spells put at the front of its queue; `s` where it spells none. -/
def State.withFetchWord (s : State) (nbits w : Nat) : State :=
  match decodeTableWord nbits w with
  | some c => { s with pending := c :: s.pending }
  | none => s

end Sys2Proof.Machine
end

