-- ==== Sys2Proof/Safety.lean ====
section
/-! DEFINITION. What the statements speak of: commands that pass every check, the canonical form of the memories, and what no step
undoes. -/

namespace Sys2Proof.Machine

/-! ### Commands that pass every check -/

/-- The partition of a Glahus command takes it at once: it is up, its sequencer idle, and no command waits before it (R101, R133). -/
def State.gFree (s : State) (p : Nat) : Prop := s.gReady p = true ∧ (s.part p).held = []

/-- A limb operation passes: translation takes it, and its Sequencer and Read stages find nothing (R113, R133, R429). -/
def State.limbPasses (s : State) (p : Nat) (g : GInstr) (u : Uses) (f2Max : Nat) (srcs extra : List Nat) : Prop :=
  let t := s.gEnd p 0
  s.gFree p ∧ s.limbInvalid p g u f2Max srcs = false ∧ t.limbCode p g srcs extra = 0 ∧
    t.limbReadCode p g (srcs.map (t.region p)) (t.region p g.rx).count = 0

/-- The prime of limb c of a limb operation (R128). -/
def State.limbPrime (s : State) (g : GInstr) (c : Nat) : Nat := (s.pset g.pset).q (limbOpEntry g c)

/-- Limb c of the region an operand names, folded (R28). -/
def State.limbSrc (s : State) (p : Nat) (g : GInstr) (v c : Nat) : List Nat :=
  (s.lgLimb p ((s.region p v).limbAt c).toNat g.f1).map (fun x => fold x (s.limbPrime g c))

/-- The state in which limb c of RX holds a given limb, for every c below the region's count, and nothing else has changed. -/
def State.limbResult (s : State) (p : Nat) (g : GInstr) (f : Nat → List Nat) : State :=
  s.putLimbs p (s.region p g.rx) ((upTo (s.region p g.rx).count).map f)

/-- The state in which a ciphertext operation that passes computes its body: the header of its key has been read, its noise drawn
(R61, R200, R210, R362). -/
def State.ctState (s : State) (p o : Nat) (g : GInstr) (h : Header) : State :=
  let t := s.gEnd p 0
  (if keyKind o = 0 then t else t.readLine p (t.gAddr p g) false).useNoise o g.imm8 h.logN

/-- A ciphertext operation passes: translation, key, registers, header checks, binding, noise, operands and key body, with the
output header
the checks give (R29, R61, R72, R110, R126). -/
def State.ctPasses (s : State) (p o : Nat) (g : GInstr) (constant : Int) (h : Header) : Prop :=
  let t := s.gEnd p 0
  let v := s.ctState p o g h
  s.gFree p ∧ s.ctInvalid p o g = false ∧ (t.ctKey p o g).1 = 0 ∧ t.ctRegBad p o g = false ∧
    (o = oFlood → floodWidthCode g.imm8 = 0) ∧ checkHeaders (t.ctReq p o g constant) = { hdr := h } ∧
    t.bindingCode p o g h (t.hdr p g.f1) (t.pset g.pset) = 0 ∧ (drawsNoise o = true → v.sec.noiseOk = true) ∧
    v.ctReadCode p o g = 0

/-- The state in which entry F0 holds a header and its region the body, and nothing else has changed. -/
def State.ctResult (s : State) (p : Nat) (g : GInstr) (h : Header) (body : List (List Nat)) : State :=
  (s.modHdr p g.f0 (fun _ => h)).putLimbs p ((s.bound p g.f0).getD {}) body

/-- A body of a header's shape whose residues are canonical. -/
def bodyCanonical (ps : PrimeSet) (h : Header) (body : List (List Nat)) : Prop :=
  body.length = h.bodyLimbs ∧ ∀ i, i < h.bodyLimbs →
    (body.getD i []).length = 2 ^ h.logN ∧ ∀ v ∈ body.getD i [], v < max 1 (bodyPrime ps h (i % max 1 (h.limbs + h.specials)))

/-! ### Endpoint commands -/

/-- An endpoint command can be triggered: its endpoint exists, and at a tile the head token of queue 7 carries its index (R239, R240). -/
def State.commandReady (s : State) (p ep idx : Nat) : Prop :=
  s.epOk p ep = true ∧ (64 ≤ ep ∨ ∃ k r, s.tokens (s.epTile p ep) 7 = k :: r ∧ k.tag = idx)

/-- The state in which a triggered command is served: at a tile the token has been taken and the command is in its entry. -/
def State.commandState (s : State) (p ep idx kind : Nat) (c : EpCmd) : State :=
  let s := s.stir
  if ep < 64 then (s.takeToken (s.epTile p ep) 7).modTile (s.epTile p ep) (fun x =>
    { x with cmds := smSet 0 x.cmds idx (BitVec.ofNat 128 (epCmdBits kind c)) })
  else s

/-- What the end of a command of an endpoint delivers: a token at a tile, CORE_DONE at a service core (R240). -/
def State.commandDone (s : State) (p ep idx status : Nat) (c : EpCmd) : State := s.epDone p ep c.doneQ idx status

/-! ### Canonical forms -/

/-- Stack memory lists only bytes that are not zero, and the poisoned lines and withdrawn units only lines and units that are, each in
rising order. -/
def State.canonical (s : State) : Bool := Mem.wf s.mem && smWf 0 s.poison && smWf false s.withdrawn

end Sys2Proof.Machine
end

