-- ==== Sys2Proof/Certificates/Slice0/Obligations.lean ====
section
/-! DEFINITION. The statements for the provers. -/

open Sys2Proof Sys2Proof.Machine

/-! ### The block -/

/-- Assumption log 2: a step runs the command at the front of the queue on the state with the rest of the queue, and lets one
tick of 10 ns pass where none waits; with no load, slot or bank write, wipe or due firmware activation the tick changes the time
and the power controller alone. -/
def Obligations.StepRunsTheFrontCommand : Prop :=
  (∀ (s : State) (c : Instr) (rest : List Instr), step { s with pending := c :: rest } = exec c { s with pending := rest }) ∧
  ∀ s : State, s.pending = [] → s.img.loading = none → s.img.writing = none → s.fw.writing = none → s.sec.wiping = false →
    (s.fw.activation = none ∨ s.noPackages = false) →
    ∃ u, step s = .next u ∧ u.now = s.now + 1 ∧ u = { s with now := u.now, pwr := u.pwr }

/-- The queue is the sender's: no command adds to it or takes from it, so that a step that runs a command leaves the rest of the
queue. -/
def Obligations.CommandsKeepTheQueue : Prop :=
  ∀ (c : Instr) (s u : State), exec c s = .next u → u.pending = s.pending

/-- R206: no command makes a withdrawn unit visible again; a step keeps the withdrawn set; and a withdrawn unit answers every
read, write and atomic with ADDRESS_WITHDRAWN and keeps its bytes. -/
def Obligations.WithdrawnUnitsStayWithdrawn : Prop :=
  (∀ (s u : State), step s = .next u → ∀ k, s.isWithdrawn k = true → u.isWithdrawn k = true) ∧
  ∀ (s : State) (a : Nat), a < Config.stackTop → stackOff a < Config.stackBytes → s.isWithdrawn (unitKey a) = true →
    (∀ symbols e allocate requester, symbols ≤ 144 → e ≤ 2 → exec (.stackRead a symbols ⟨e, allocate, requester⟩) s =
      .next ((s.memFault ((s.stackPart a).getD 255) requester [a] cAddressWithdrawn).deliver [cAddressWithdrawn, 0])) ∧
    (∀ data symbols, symbols ≤ 144 → 0 < data.length → a % 128 + data.length ≤ 128 →
      ∃ v : State, v = { s with parts := v.parts } ∧ exec (.stackWrite a data symbols) s =
        .next ((v.memFault ((s.stackPart a).getD 255) 0 [a] cAddressWithdrawn).deliver [cAddressWithdrawn])) ∧
    (∀ op ps entry d, ∃ u, exec (.atomic op a ps entry d) s = .next u ∧ u.mem = s.mem ∧ u.poison = s.poison ∧ u.tiles = s.tiles)

/-- The memory keeps its canonical form, and the poisoned lines and withdrawn units theirs, over every step. -/
def Obligations.CanonicalFormsKept : Prop :=
  ∀ (s u : State), s.canonical = true → step s = .next u → u.canonical = true

/-- After reset: no command waits, the memories are empty and canonical, no unit is withdrawn, no partition is up, and the
module is in A0; the registers whose reset values the manual gives hold them. -/
def Obligations.AfterReset : Prop :=
  State.reset.pending = [] ∧ State.reset.canonical = true ∧ (∀ a, memByte State.reset.mem a = 0#8) ∧
  (∀ k, State.reset.isWithdrawn k = false) ∧ (∀ p, State.reset.isUp p = false) ∧ State.reset.pwr.state = 0 ∧
  State.reset.progressLimit = 10000 ∧ (∀ n, State.reset.port n = { peerAddr := 0xFFFF, peerTol := 0xFFFFFFFF }) ∧
  State.reset.host.latTol = 0xFFFFFFFF ∧ State.reset.ras.cause = 1 ∧ State.reset.fab.collLimit = 100000 ∧
  ∀ n q, (State.reset.qp n q).enable = false

/-! ### Ring arithmetic and Glahus -/

/-- R32: the device's reduction, by its two shifts, one product and two conditional subtractions modulo 2^64, is the residue of
every value below 2^76, for every modulus between 2^31 and 2^36. -/
def Obligations.ReductionIsExact : Prop :=
  ∀ q x : Nat, 2 ^ 31 < q → q < 2 ^ 36 → x < 2 ^ 76 → reduce x q (muOf q) = x % q

/-- R27, R28, R32, R34, Table 2-3: for an admissible prime and folded operands every primitive operation returns the canonical
residue of its expression, and folding returns the residue of a 36-bit value. -/
def Obligations.RingArithmetic : Prop :=
  ∀ q : Nat, 2 ^ 31 < q → q < 2 ^ 36 →
    (∀ v, v < 2 ^ 36 → fold v q = v % q) ∧
    ∀ a b c : Nat, a < q → b < q → c < q →
      addM q a b = (a + b) % q ∧ subM q a b = (a + q - b) % q ∧ negM q a = (q - a) % q ∧
      mulM q a b = a * b % q ∧ mulAddM q a b c = (a * b + c) % q ∧ mulConstM q a b = a * b % q

/-- R42 to R46, R128, Table 5-4: each limb operation that passes its checks leaves in RX, limb by limb, its function of the
folded source limbs, and changes nothing else but the stamps of the rows and the command's end code. -/
def Obligations.LimbOperations : Prop :=
  ∀ (s : State) (p : Nat) (g : GInstr), gOk p g = true →
    let t := s.gEnd p 0
    let q := t.limbPrime g
    let x := t.limbSrc p g
    (s.limbPasses p g limbUses3 1 [g.ry, g.imm64] [] →
      exec (.ladd p g) s = .next (t.limbResult p g fun c => List.zipWith (addM (q c)) (x g.ry c) (x g.imm64 c)) ∧
      exec (.lsub p g) s = .next (t.limbResult p g fun c => List.zipWith (subM (q c)) (x g.ry c) (x g.imm64 c)) ∧
      exec (.lmul p g) s = .next (t.limbResult p g fun c => List.zipWith (mulM (q c)) (x g.ry c) (x g.imm64 c))) ∧
    (s.limbPasses p g limbUses3 1 [g.ry, g.imm64, g.rx] [] →
      exec (.lmac p g) s = .next (t.limbResult p g fun c => (List.range (2 ^ g.f1)).map fun i =>
        mulAddM (q c) (el (x g.ry c) i) (el (x g.imm64 c) i) (el (x g.rx c) i))) ∧
    (s.limbPasses p g limbUses 1 [g.ry] [] →
      exec (.lneg p g) s = .next (t.limbResult p g fun c => (x g.ry c).map (negM (q c))) ∧
      exec (.lntt p g) s = .next (t.limbResult p g fun c =>
        nttForward (q c) ((t.pset g.pset).psiN (limbOpEntry g c) g.f1) g.f1 (x g.ry c)) ∧
      exec (.lintt p g) s = .next (t.limbResult p g fun c =>
        nttInverse (q c) ((t.pset g.pset).psiN (limbOpEntry g c) g.f1) g.f1 (x g.ry c))) ∧
    (let w := s.kparam p (g.param - 1)
     g.param ≠ 0 → w < 2 ^ 36 → s.limbPasses p g { limbUses with param := true } 1 [g.ry] [] →
      exec (.lmulc p g) s = .next (t.limbResult p g fun c => (x g.ry c).map fun v => mulConstM (q c) v (fold w (q c)))) ∧
    (let k := autGalois g.f1 g.imm64 g.conj
     autOperandBad g g.imm64 = false → g.imm64 < 2 ^ 34 → (bit g.imm64 33 = true → galoisBad g.f1 k = false) →
      s.limbPasses p g { limbUses3 with conj := true } 3 [g.ry] [] →
      exec (.laut p g) s = .next (t.limbResult p g fun c =>
        if bit g.f2 1 then automorphEval g.f1 k (x g.ry c) else automorphCoeff (q c) g.f1 k (x g.ry c)))

/-- R45 to R48: the automorphism of a Galois element sends a coefficient to its exponent's product, negated past N, and leaves
no other trace: for an odd element k below 2N, index i·k mod 2N receives element i, or index i·k − N its negation. -/
def Obligations.AutomorphismPlaces : Prop :=
  ∀ (q n k i : Nat) (a : List Nat), 1 ≤ n → k % 2 = 1 → k < 2 * 2 ^ n → i < 2 ^ n →
    let j := i * k % (2 * 2 ^ n)
    (automorphCoeff q n k a).length = 2 ^ n ∧
    (j < 2 ^ n → el (automorphCoeff q n k a) j = el a i) ∧
    (2 ^ n ≤ j → el (automorphCoeff q n k a) (j - 2 ^ n) = negM q (el a i))

/-- R67, R71, R76, R78, R126, Table 5-4: a ciphertext operation that passes its checks writes the predicted header to entry F0
and, for the operations whose bodies the tables give, the body residue by residue to the region bound to it; nothing else
changes. -/
def Obligations.CiphertextOperations : Prop :=
  ∀ (s : State) (p : Nat) (g : GInstr) (h : Header), gOk p g = true →
    let t := s.gEnd p 0
    let ps := t.pset g.pset
    let a := t.opLimb p ps g.f1
    let b := t.opLimb p ps g.f2
    let out := fun (f : Nat → Nat → Nat → List Nat) =>
      (Host.Outcome.next (t.ctResult p g h (bodyBy ps h f)) : Host.Outcome State Fault Refusal)
    let root := fun j => ps.psiN (ps.limbEntry h.limbs j) h.logN
    (s.ctPasses p oCadd g 1 h → exec (.cadd p g) s = out fun c j q => List.zipWith (addM q) (a c j) (b c j)) ∧
    (s.ctPasses p oCsub g 1 h → exec (.csub p g) s = out fun c j q => List.zipWith (subM q) (a c j) (b c j)) ∧
    (s.ctPasses p oCneg g 1 h → exec (.cneg p g) s = out fun c j q => (a c j).map (negM q)) ∧
    (s.ctPasses p oCaddp g 1 h → exec (.caddp p g) s = out fun c j q => List.zipWith (addM q) (a c j) (b c j)) ∧
    (s.ctPasses p oCmulp g 1 h → exec (.cmulp p g) s = out fun c j q => List.zipWith (mulM q) (a c j) (b 0 j)) ∧
    (s.ctPasses p oCmul g 1 h → h.scheme ≠ 3 → exec (.cmul p g) s = out fun c j q =>
      if c = 0 then List.zipWith (mulM q) (a 0 j) (b 0 j)
      else if c = 1 then List.zipWith (addM q) (List.zipWith (mulM q) (a 0 j) (b 1 j)) (List.zipWith (mulM q) (a 1 j) (b 0 j))
      else List.zipWith (mulM q) (a 1 j) (b 1 j)) ∧
    (s.ctPasses p oCmuli g (toSigned 64 g.imm64) h → exec (.cmuli p g) s = out fun c j q =>
      (a c j).map fun v => mulM q v (toSigned 64 g.imm64 % (max 1 q : Nat)).toNat) ∧
    (s.ctPasses p oDrop g 1 h → exec (.drop p g) s = out fun c j _ => a c j) ∧
    (s.ctPasses p oBootclose g 1 h → exec (.bootclose p g) s = out fun c j _ => a c j) ∧
    (s.ctPasses p oToeval g 1 h → exec (.toeval p g) s = out fun c j q => nttForward q (root j) h.logN (a c j)) ∧
    (s.ctPasses p oTocoef g 1 h → exec (.tocoef p g) s = out fun c j q => nttInverse q (root j) h.logN (a c j))

/-- R61, R67, R68, R70, R76, R79, R137, R200 (the bodies of log 15): a key switch, ModUp, ModDown, a rescaling, an encryption,
the product under BFV, the lift to the top level and the flooding that pass their checks complete: they write the predicted
header to entry F0 and a body of its shape to the region bound to it, and change nothing else but what reading the key and
drawing the noise change. All but the last two write canonical residues; the flooding leaves every component but the first as it
was. -/
def Obligations.KeySwitchOperations : Prop :=
  ∀ (s : State) (p : Nat) (g : GInstr) (h : Header), gOk p g = true →
    let ps := s.pset g.pset
    let wrote := fun (o : Nat) (r : Host.Outcome State Fault Refusal) (body : List (List Nat)) =>
      r = .next (((s.ctState p o g h).drewNoise o g.imm8).ctResult p g h body)
    let level := fun (o : Nat) (r : Host.Outcome State Fault Refusal) => ∃ body, wrote o r body ∧ bodyCanonical ps h body
    (s.ctPasses p oRelin g 1 h → level oRelin (exec (.relin p g) s)) ∧
    (s.ctPasses p oRot g 1 h → level oRot (exec (.rot p g) s)) ∧
    (s.ctPasses p oKsw g 1 h → level oKsw (exec (.ksw p g) s)) ∧
    (s.ctPasses p oModup g 1 h → level oModup (exec (.modup p g) s)) ∧
    (s.ctPasses p oModdown g 1 h → level oModdown (exec (.moddown p g) s)) ∧
    (s.ctPasses p oRescale g 1 h → level oRescale (exec (.rescale p g) s)) ∧
    (s.ctPasses p oModsw g 1 h → level oModsw (exec (.modsw p g) s)) ∧
    (s.ctPasses p oCmul g 1 h → h.scheme = 3 → level oCmul (exec (.cmul p g) s)) ∧
    (s.ctPasses p oEncpk g 1 h → level oEncpk (exec (.encpk p g) s)) ∧
    (s.ctPasses p oModraise g 1 h → ∃ body, wrote oModraise (exec (.modraise p g) s) body ∧ body.length = h.bodyLimbs) ∧
    (s.ctPasses p oFlood g 1 h → ∃ body, wrote oFlood (exec (.flood p g) s) body ∧ body.length = h.bodyLimbs ∧
      ∀ i, h.limbs + h.specials ≤ i → i < h.bodyLimbs →
        body.getD i [] = s.opLimb p ps g.f1 (i / max 1 (h.limbs + h.specials)) (i % max 1 (h.limbs + h.specials)))

/-- R67, R70, R76, R78, R79, Table 3-7: the header an operation predicts from its operands' headers. R137 (the bodies of log
15): a body that the results level fixes is the same wherever that level and the fields, operands, key and noise it is computed
from are. -/
def Obligations.OutputHeaders : Prop :=
  (∀ (s s' : State) (p p' o : Nat) (g g' : GInstr) (ps : PrimeSet) (h : Header),
    s'.ctInputs p' o g' ps (s'.noisePolys o g'.imm8 h.logN) = s.ctInputs p o g ps (s.noisePolys o g.imm8 h.logN) →
    (s'.part p').rlActive = (s.part p).rlActive → (s'.levelBody p' o g' ps h).1 = (s.levelBody p o g ps h).1) ∧
  ∀ (r : OpReq) (x : PrimeSet) (t : NoiseTable),
    let h := (predict r x t).hdr
    (r.opcode = oCadd ∨ r.opcode = oCsub →
      h.comps = max r.a.comps r.b.comps ∧ h.noise = ladd r.a.noise r.b.noise ∧ (predict r x t).scale = r.a.scale) ∧
    (r.opcode = oCaddp → h.noise = ladd r.a.noise r.b.noise ∧ h.comps = r.a.comps) ∧
    (r.opcode = oToeval → h.domain = true ∧ h.noise = r.a.noise) ∧
    (r.opcode = oTocoef → h.domain = false ∧ h.noise = r.a.noise) ∧
    (r.opcode = oCmul → h.comps = 3) ∧
    (r.opcode = oCmul → r.a.scheme = 1 → (predict r x t).scale = r.a.scale + r.b.scale) ∧
    (r.opcode = oCmuli → r.constZero = true → h.noise = 0 ∧ (predict r x t).scale = r.a.scale) ∧
    (r.opcode = oRelin ∨ r.opcode = oRot ∨ r.opcode = oKsw ∨ r.opcode = oModdown →
      h.comps = 2 ∧ h.specials = 0 ∧ h.noise = ladd r.a.noise (t.ks.getD r.a.level 0)) ∧
    (r.opcode = oKsw → h.keyTag = r.targetTag) ∧
    (r.opcode = oModup → h.specials = x.pcount) ∧
    (r.opcode = oRescale → r.a.level ≠ 0 → h.level = r.a.level - 1 ∧ h.limbs = r.a.limbs - x.width) ∧
    (r.opcode = oDrop → r.imm8 < r.a.level → h.level = r.imm8 ∧ h.limbs = x.width * (r.imm8 + 1) ∧ h.noise = r.a.noise) ∧
    (r.opcode = oEncpk →
      h.level = r.imm8 ∧ h.limbs = x.width * (r.imm8 + 1) % 256 ∧ h.comps = 2 ∧ h.noise = t.fresh ∧ h.keyTag = r.keyTag ∧ h.specials = 0) ∧
    (r.opcode = oModraise → h.level = x.top ∧ h.limbs = x.width * (x.top + 1) ∧ h.boot = true) ∧
    (r.opcode = oBootclose → h.boot = false ∧ h.noise = t.bootOut.getD r.a.level 0xFFFF) ∧
    (r.opcode = oFlood → h.flooded = true ∧ h.noise = ladd r.a.noise (256 * (r.imm8 + r.a.logN)))

/-- R123 (the placement of log 11): bytes written to the logical scratchpad read back, their rows are valid, and every other
logical byte, and everything but the tiles, is unchanged. R101, R103, R126, R192, Table 5-4: the control commands of a free
partition: NOP changes nothing, WAITT consumes its good tokens, EMITT emits one token to every tile's queue or to the runtime,
BIND binds the entry, RSEED fills the generator slot of every tile. -/
def Obligations.GlahusControl : Prop :=
  (∀ (s : State) (p a stamp : Nat) (d : List Byte),
    let u := s.lgWrite p a d stamp
    u.lgRead p a d.length = d ∧ u.lgValid p a d.length = true ∧
    (∀ b, b < a ∨ a + d.length ≤ b → u.lgRead p b 1 = s.lgRead p b 1) ∧ u = { s with tiles := u.tiles }) ∧
  (∀ (s : State) (p : Nat) (g : GInstr), gOk p g = true → s.gFree p →
    let t := s.gEnd p 0
    let token : Token := { status := 0, source := 2, tag := t.draw.1 % 256 }
    (nopBad g = false → exec (.nop p g) s = .next t) ∧
    (waittBad g = false → (∀ i ∈ t.partTiles p, g.f1 ≤ (t.tokens i g.f0).length ∧ ∀ z ∈ (t.tokens i g.f0).take g.f1, z.status = 0) →
      exec (.waitt p g) s = .next (t.each (t.partTiles p) fun i y => y.each (upTo g.f1) fun _ z => z.takeToken i g.f0)) ∧
    (waittBad g = false → (∃ i ∈ t.partTiles p, (t.tokens i g.f0).length < g.f1) →
      exec (.waitt p g) s = .next (t.modPart p fun x => { x with held := [(0x0001, g)], heldSince := s.now })) ∧
    (emittBad g = false → (s.pseq p).kern = none → g.f1 = 1 → exec (.emitt p g) s = .next (t.draw.2.emitRuntime p token)) ∧
    (emittBad g = false → (s.pseq p).kern = none → g.f1 = 0 → (∀ i ∈ t.partTiles p, (t.tokens i g.f0).length < 64) →
      ∃ u, exec (.emitt p g) s = .next u ∧ (∀ i ∈ t.partTiles p, u.tokens i g.f0 = t.tokens i g.f0 ++ [token]) ∧
        u = { s with tiles := u.tiles, parts := u.parts, free := s.free + 1 }) ∧
    (s.bindBad p g = false → exec (.bind p g) s = .next (t.modPart p fun x => { x with binds := smSet 0 x.binds g.f0 (g.rx + 1) })) ∧
    (let a := t.gAddr p g
     rseedBad g = false → a % 2048 = 0 → t.inStacks p a 32 = true → t.lineCode a = 0 → ofBytes ((t.load a 32).drop 26) = 0 →
      exec (.rseed p g) s = .next ((t.readLine p a true).each (t.partTiles p) fun i x => x.modTile i fun y => { y with
        gen := smSet {} y.gen g.f0 { key := (t.load a 32).take 16, stream := leAt (t.load a 32) 16 8, dropP := leAt (t.load a 32) 24 2 } })))

/-- R29, R40, R128, R431, Table 5-4: LDL loads the raw limbs of its region, checked or not, in their format, and STL stores
them. R29, R55, R126, R431: a good ciphertext load, checked or not, puts the header, with the address its body came from, in the
entry, binds RX to it and places the body's limbs in component-major order; a good store writes the body and then the header,
and records where the body went. -/
def Obligations.LimbAndCiphertextMoves : Prop :=
  (∀ (s : State) (p : Nat) (g : GInstr), gOk p g = true → s.gFree p →
    let t := s.gEnd p 0
    let a := t.gAddr p g
    let wide := g.imm8 == 1
    let lb := limbBytes g.f1 wide
    let at_ := fun (c : Nat) => a + lb * c
    a % 2048 = 0 →
    (let r := t.region p g.rx
     let raw := fun (c : Nat) => decodeElems wide (t.load (at_ c) lb)
     s.ldlBad p g = false →
      (∀ c, c < r.count → t.inStacks p (at_ c) lb = true ∧ t.noiseMissing p (at_ c) lb = false ∧ t.rangeCode (at_ c) lb = 0 ∧
        (g.canon = true → ldlPrime (t.pset g.pset) g c ≠ 0 ∧ canonBad (ldlPrime (t.pset g.pset) g c) (raw c) = false)) →
      exec (.ldl p g) s = .next (t.each (upTo r.count) fun c u =>
        (u.touch (at_ c) lb).lgWrite p (r.limbAt c).toNat (pack36 ((raw c).map fun v => v % 2 ^ 36)) 0)) ∧
    (let r := t.region p g.ry
     s.stlBad p g = false →
      (∀ c, c < r.count → t.inStacks p (at_ c) lb = true ∧ t.rangeCode (at_ c) lb = 0 ∧
        t.lgValid p (r.limbAt c).toNat (limbBytes g.f1 false) = true) →
      exec (.stl p g) s = .next (t.each (upTo r.count) fun c u =>
        (u.storeP p (at_ c) (encodeElems wide (t.lgLimb p (r.limbAt c).toNat g.f1))).1))) ∧
  (∀ (s : State) (p : Nat) (g : GInstr), gOk p g = true → s.gFree p →
    let t := s.gEnd p 0
    let a := t.gAddr p g
    a % 2048 = 0 →
    (let h := { headerOf (t.loadLE a 64) with bodyAddr := a + 2048 }
     let r := t.region p g.rx
     let lb := limbBytes h.logN h.format
     let per := max 1 (h.limbs + h.specials)
     let at_ := fun (i : Nat) => a + 2048 + lb * memLimb h (i / per) (i % per)
     let raw := fun (i : Nat) => decodeElems h.format (t.load (at_ i) lb)
     let e := fun (i : Nat) => (t.pset g.pset).limbEntry h.limbs (i % per)
     s.ldctBad p g = false → t.inStacks p a 2048 = true → t.lineCode a = 0 → h.bodyLimbs ≤ t.capacity p r h.logN →
      (logNOk h = true ∨ h.bodyLimbs = 0) → t.inStacks p (a + 2048) (lb * h.bodyLimbs) = true →
      (∀ i, i < h.bodyLimbs → t.rangeCode (at_ i) lb = 0 ∧
        (g.canon = true → e i < (t.pset g.pset).primes.length ∧ canonBad ((t.pset g.pset).q (e i)) (raw i) = false)) →
      exec (.ldct p g) s = .next (State.modHdr
        ((((t.modPart p fun x => { x with binds := smSet 0 x.binds g.f0 (g.rx + 1) }).touch a 64).touch (a + 2048) (lb * h.bodyLimbs)).each
          (upTo h.bodyLimbs) fun i u => u.lgWrite p (r.limbAt i).toNat (pack36 ((raw i).map fun v => v % 2 ^ 36)) 0)
        p g.f0 fun _ => h)) ∧
    (let h := t.hdr p g.f0
     let r := (t.bound p g.f0).getD {}
     let n := if logNOk h then h.bodyLimbs else 0
     let lb := limbBytes h.logN h.format
     let per := h.limbs + h.specials
     s.stctBad p g = false → n ≤ t.capacity p r h.logN →
      t.inStacks p a (2048 + lb * n) = true → t.rangeCode a (2048 + lb * n) = 0 →
      (∀ i, i < n → t.lgValid p (r.limbAt i).toNat (limbBytes h.logN false) = true) →
      exec (.stct p g) s = .next (State.modHdr
        (((t.each (upTo n) fun i u => (u.storeP p (a + 2048 + lb * memLimb h (i / max 1 per) (i % max 1 per))
          (encodeElems h.format (t.lgLimb p (r.limbAt i).toNat h.logN))).1).storeP p a (toBytes 64 (storedHeader h (a + 2048)))).1)
        p g.f0 fun x => { x with bodyAddr := a + 2048 })))

/-- R161, R163, R169 to R172: LDT makes tile c of the tensor block c of RX, combining the tiles where RX has STRIDE 0; STT
writes block c of RY to tile c, combining what falls on one place where the tensor has a REDUCE. -/
def Obligations.TensorMoves : Prop :=
  ∀ (s : State) (p : Nat) (g : GInstr), gOk p g = true → s.gFree p →
    let t := s.gEnd p 0
    let a := t.gAddr p g
    let tn := tensorOf (t.loadLE a 64)
    let pieces := fun (c : Nat) => tn.pieces (a + 2048 : Nat) (t.tensorPos p tn c).2
    (let r := t.region p g.rx
     let step := fun (c : Nat) (u : State) =>
       let z := u.tensorRead p tn c
       let new := pieceBytes tn.blockBytes (pieces c) ((pieces c).map fun e => e.fromMem t.mem)
       let old := z.lgRead p (r.blockAt c).toNat tn.blockBytes
       let w := if r.stride = 0 ∧ 0 < c then
         ((List.range (tn.blockBytes / 4)).map fun i => toBytes 4 (tensorCombine tn.reduce (leAt old (4 * i) 4) (leAt new (4 * i) 4))).flatten
         else new
       (z.delivered (pieceLines (pieces c)) true).lgWrite p (r.blockAt c).toNat w 0
     s.ldtBad p g = false → t.tensorCode p a r false = 0 →
      (∀ c, c < r.count → (t.tensorPos p tn c).1 = 0 ∧ t.lgFits p (r.blockAt c) tn.blockBytes = true ∧
        t.tileCode p (pieces c) true = 0) →
      exec (.ldt p g) s = .next ((t.readLine p a true).each (upTo r.count) step)) ∧
    (let r := t.region p g.ry
     let step := fun (acc : State × SMap Nat) (c : Nat) =>
       let b := ofBytes (t.lgRead p (r.blockAt c).toNat tn.blockBytes)
       let f := storeFields tn.reduce acc.2 (pieces c) ((pieces c).map fun e => (b >>> e.spad) % 2 ^ e.sw)
       (((acc.1.tensorRead p tn c).storeFieldsP p f.2).1, f.1)
     s.sttBad p g = false → t.tensorCode p a r true = 0 →
      (∀ c, c < r.count → (t.tensorPos p tn c).1 = 0 ∧ t.lgFits p (r.blockAt c) tn.blockBytes = true ∧
        t.lgValid p (r.blockAt c).toNat tn.blockBytes = true ∧ t.tileCode p (pieces c) false = 0 ∧
        ∀ l ∈ pieceLines (pieces c), t.lineCode l = 0 ∧
          (tn.mode = 1 → l ∉ linesOf tn.listAddr (8 * r.count))) →
      exec (.stt p g) s = .next ((upTo r.count).foldl step (t.readLine p a true, [])).1)

/-- R182, R198, R199: an MMUL leaves its output tiles in order for the pass that follows, or in RX, every element the product of
its A row and B column, and one of no work leaves no tile; a VPASS over one queued tile writes its 4,096 lanes and empties the
queue, and one that finds no tile processes none. -/
def Obligations.MatrixCommands : Prop :=
  ∀ (s : State) (p : Nat) (g : GInstr), gOk p g = true → s.gFree p →
    let t := s.gEnd p 0
    (let a := t.shapeAddr p g
     let z := shapeOf (t.loadLE a 32)
     let rx := t.region p g.rx
     let ra := t.region p g.ry
     let rb := t.region p g.imm64
     let u := t.readLine p a true
     let tile := fun (i : Nat) =>
       outTile z (fun k => t.lgRead p (ra.blockAt (i / z.nt * z.kb + k)).toNat (blockSize z.mode))
         (fun k => t.lgRead p (rb.blockAt (k * z.nt + i % z.nt)).toNat (blockSize z.mode))
     s.mmulBad p g = false → a % 2048 = 0 → t.inStacks p a 32 = true → t.lineCode a = 0 → z.bad = false →
      (z.mt = 0 ∨ z.nt = 0 ∨ z.kb = 0 →
        exec (.mmul p g) s = .next (u.modPart p fun x => { x with mmulQ := if z.toRx then none else some [] })) ∧
      (0 < z.mt → 0 < z.nt → 0 < z.kb → t.blocksCode p ra (z.mt * z.kb) (blockSize z.mode) = 0 →
        t.blocksCode p rb (z.kb * z.nt) (blockSize z.mode) = 0 →
        (z.toRx = false →
          exec (.mmul p g) s = .next (u.modPart p fun x => { x with mmulQ := some ((List.range (z.mt * z.nt)).map tile) })) ∧
        (z.toRx = true → (∀ i, i < z.mt * z.nt → t.lgFits p (rx.blockAt i) 16384 = true) →
          let v := (u.modPart p fun x => { x with mmulQ := none }).draw
          exec (.mmul p g) s = .next (v.2.each (List.range (z.mt * z.nt)) fun i x =>
            x.lgWrite p (rx.blockAt i).toNat (((tile i).map (toBytes 4)).flatten) (v.1 % 16))))) ∧
    (∀ x, (t.part p).mmulQ = some [x] → s.vpassInvalid p g = false → (t.region p g.ry).count = 0 → g.f1 = 0 →
      t.lgFits p ((t.region p g.rx).blockAt 0) (512 * vopBits g.f0) = true →
      let slot := smGet {} (t.tile (p * (t.part p).tiles)).gen 0
      let t0 := if g.param = 0 then g.imm64 else t.kparam p (g.param - 1)
      let outs := (List.range 4096).map fun k => laneOp {
        vop := g.f0, x := x.getD k 0, y := 0, rnd := 0, shift := g.f2, maskBit := ((t.part p).mask 0 0).getLsbD k
        key := slot.key ++ List.replicate (16 - slot.key.length) 0#8, stream := slot.stream, dropP := slot.dropP
        index := (t0 * 4096 + k) % 2 ^ 64 }
      (∀ o ∈ outs, o.bad = false) →
      ∃ u, exec (.vpass p g) s = .next u ∧ (u.part p).mmulQ = none ∧
        u.lgRead p ((t.region p g.rx).blockAt 0).toNat (packLanes (vopBits g.f0) (outs.map fun o => o.val)).length =
          packLanes (vopBits g.f0) (outs.map fun o => o.val) ∧
        u = { s with tiles := u.tiles, parts := u.parts, free := u.free }) ∧
    ((t.part p).mmulQ = some [] → s.vpassInvalid p g = false →
      exec (.vpass p g) s = .next (t.draw.2.modPart p fun x => { x with mmulQ := none }))

/-- R182, R183: in the 8-bit integer mode an element of an output tile is the sum over the blocks and steps of the signed
products, modulo 2^32. -/
def Obligations.IntegerTiles : Prop :=
  ∀ (z : Shape) (a b : Nat → List Byte) (i j : Nat), z.mode = 2 → z.aTrans = false → z.bTrans = false → i < 64 → j < 64 →
    (outTile z a b).getD (64 * i + j) 0 = fromSigned 32 (((List.range z.kb).map fun k =>
      ((List.range 64).map fun n => toSigned 8 (matElem 2 0 (a k) n i) * toSigned 8 (matElem 2 0 (b k) n j)).sum).sum)

/-- R308, R309, R311: a collective command of a joined job's partition opens the instance with its entry; an all-reduce's own
body has then landed, a broadcast's root holds its result header, and a gather's member has contributed; the instance of a lone
member ends with the command. A command whose collective has an earlier instance open waits. -/
def Obligations.CollectiveCommands : Prop :=
  (∀ (s : State) (p : Nat) (g : GInstr), gOk p g = true → s.gFree p → (s.coll g.f1).isOpen = true → s.allredBad p g = false →
    exec (.allred p g) s = .next ((s.gEnd p 0).modPart p fun x => { x with held := [(0x0502, g)], heldSince := s.now })) ∧
  ∀ (s : State) (p : Nat) (g : GInstr) (x : CollCfg), gOk p g = true → s.gFree p → s.fab.jobState = 2 →
    s.fab.cfg.jobPart = p → (s.coll g.f1).isOpen = false → smGet 0 (s.coll g.f1).dead (s.coll g.f1).inst = 0 → s.collCfg g.f1 = some x →
    let t := s.gEnd p 0
    let h := t.hdr p g.f0
    let opened := fun (u : State) => (u.coll g.f1).isOpen = true ∧ (u.coll g.f1).entry = g.f0 ∧ (u.coll g.f1).part = p ∧
      (u.coll g.f1).inst = (s.coll g.f1).inst ∧ u.tiles = s.tiles ∧ u.seqs = s.seqs
    let next := ((s.coll g.f1).inst + 1) % 256
    let ended := fun (u : State) => u.coll g.f1 = { inst := next, dead := (s.coll g.f1).dead.filter fun e => !instPast next e.1 }
    let reaches := fun (d : Nat) => (s.peer (peerKey d 1)).txq = [] ∧ ∀ y : Packet, y.dest = d → (s.egressOf y).isSome = true
    (s.allredBad p g = false → t.reduceCode h = 0 → t.operandCode p g.f0 x.half h = 0 →
      (∀ d ∈ x.children, (smGet {} (s.coll g.f1).childHdr d).valid = true → hdrDiffers h (smGet {} (s.coll g.f1).childHdr d) = 0) →
      (x.members ≠ 1 → ∃ u, exec (.allred p g) s = .next u ∧ opened u ∧ (u.coll g.f1).ownDone = true ∧ (u.coll g.f1).hdr = h) ∧
      (x.members = 1 → (s.coll g.f1).sentUp = false →
        ∃ u, exec (.allred p g) s = .next u ∧ ended u)) ∧
    (s.bcastBad p g = false →
      (x.members ≠ 1 → x.parent ≠ 0xFFFF → ∃ u, exec (.bcast p g) s = .next u ∧ opened u ∧ u.mem = s.mem) ∧
      (x.members ≠ 1 → x.parent = 0xFFFF → (∀ d ∈ x.children, reaches d) → t.collHeaderCode h = 0 →
        t.operandCode p g.f0 x.half h = 0 →
        ∃ u, exec (.bcast p g) s = .next u ∧ opened u ∧ (u.coll g.f1).ownDone = true ∧ (u.coll g.f1).resHdr = some h ∧
          (u.coll g.f1).resLanded = h.groups) ∧
      (x.members = 1 → t.collHeaderCode h = 0 → t.operandCode p g.f0 x.half h = 0 → ∃ u, exec (.bcast p g) s = .next u ∧ ended u)) ∧
    (s.gatherBad p g = false → t.collHeaderCode h = 0 → t.operandCode p g.f0 x.rankBytes h = 0 →
      (x.members ≠ 1 → x.parent ≠ 0xFFFF → reaches x.parent →
        ∃ u, exec (.gather p g) s = .next u ∧ opened u ∧ (u.coll g.f1).ownDone = true ∧ u.mem = s.mem) ∧
      (x.members ≠ 1 → x.parent = 0xFFFF →
        ∃ u, exec (.gather p g) s = .next u ∧ opened u ∧ (u.coll g.f1).ownDone = true ∧
          (u.coll g.f1).rankHdr x.rank = h ∧ smGet 0 (u.coll g.f1).landed x.rank = h.groups) ∧
      (x.members = 1 → x.rank = 0 → ∃ u, exec (.gather p g) s = .next u ∧ ended u))

/-! ### Sequencers -/

/-- R107, R82, R190, R371, R404: a write to a sequencer wakes the module first; in a module-fatal state and in TRIPPED START
starts nothing. START of an idle sequencer's valid kernel begins it at schedule cycle 0 with empty accumulators and queues and
every mask bit set, and binds no header entry where it is a package's; a kernel of no replays completes at once; a GO to a
sequencer that is not idle is dropped. R112 to R114, R107, R430: STOP of an issuing or waiting kernel records STOPPED at the
schedule cycle and drains; a drained kernel with a fault ends idle with DONE, FAULT and the code of its report; one without ends
idle with DONE, its fault bit as it was. -/
def Obligations.KernelStartAndEnd : Prop :=
  (∀ (s : State) (q kernel replays : Nat) (noList : Bool), q < 8 → kernel < 64 → replays < 2 ^ 24 →
    let v := s.wake
    (v.haltCode ≠ 0 → exec (.start q kernel replays noList) s = .next v) ∧
    (v.haltCode = 0 → (v.seq q).state ≠ 0 →
      exec (.start q kernel replays noList) s = .next (v.modSeq q fun x => { x with dropped := true })) ∧
    (∀ p, v.haltCode = 0 → (v.seq q).state = 0 → v.seqPart q = some p → ktValid ((v.seq q).kt kernel) = true → replays ≠ 0 →
      ∃ u, exec (.start q kernel replays noList) s = .next u ∧
        u.seq q = { v.seq q with
          kernel := kernel, replays := replays, noList := noList, state := 1, count := 0, replayIndex := 0
          kern := some { kernel := kernel, replays := replays, noList := noList, prog := v.progOf p kernel
                         poisonStop := (v.part p).poisonStop } } ∧
        (∀ t, t ∈ v.partTiles p → u.tile t = { v.tile t with
          acc0 := [], acc1 := [], finq := [], finPart := 0, mask0 := BitVec.allOnes 4096, mask1 := BitVec.allOnes 4096 }) ∧
        u.part p = { v.part p with
          mmulQ := none, poisonSeen := false, masks := []
          binds := if (v.progOf p kernel).isSome then [] else (v.part p).binds } ∧
        u = { v.stir with seqs := u.seqs, tiles := u.tiles, parts := u.parts }) ∧
    (∀ p, v.haltCode = 0 → (v.seq q).state = 0 → v.seqPart q = some p → ktValid ((v.seq q).kt kernel) = true → replays = 0 →
      ∃ u, exec (.start q kernel replays noList) s = .next u ∧
        u.seq q = { v.seq q with
          kernel := kernel, replays := 0, noList := noList, done := true, faultCode := 0, count := 0, replayIndex := 0
          fOpid := 0, fWord := 0, fTile := 0, fBeat := 0, fByToken := false } ∧
        u.tiles = v.tiles ∧ u.mem = v.mem)) ∧
  (∀ (s : State) (q : Nat) (k : Kern), q < 8 → (s.seq q).kern = some k →
    ((s.seq q).state = 1 ∨ (s.seq q).state = 2 → k.faults = [] →
      ∃ u f, exec (.stop q) s = .next u ∧ (u.seq q).state = 3 ∧ (u.seq q).count = (s.seq q).count ∧ (u.kern q).faults = [f] ∧
        f.code = cStopped ∧ f.cycle = (s.seq q).count ∧ u = { s.wake with seqs := u.seqs }) ∧
    (∀ f, (s.seq q).state = 3 → k.faults = [f] → k.beats = [] → k.words = [] → s.arrayFrozen q = false →
      ∃ u, exec (.kernelDrainEnd q) s = .next u ∧ (u.seq q).state = 0 ∧ (u.seq q).done = true ∧ (u.seq q).fault = true ∧
        (u.seq q).faultCode = f.code ∧ (u.seq q).count = f.cycle ∧ (u.seq q).kern = none) ∧
    ((s.seq q).state = 3 → k.faults = [] → k.beats = [] → k.words = [] → k.kicks = [] → s.arrayFrozen q = false →
      ∃ u, exec (.kernelComplete q) s = .next u ∧
        u.seq q = { s.seq q with state := 0, done := true, kern := none, replayIndex := k.replays } ∧ u.tiles = s.tiles ∧ u.mem = s.mem))

/-- R87 to R89, R107: with nothing in flight, a NOP_WORD advances the schedule counter by its beats, and an OPERATE of one beat
puts that beat in flight at the schedule cycle and advances the counter by one; neither touches a tile or memory as it issues. A
word whose fetch is uncorrectable stops the kernel with CMEM_UNCORRECTABLE at its cycle. R95 to R97: the beat in flight reads
its operands in every tile of the partition and then holds the result rows; a beat in its write stage writes them with VALID = 1
and its stamp, the first beat's cycle modulo 16. -/
def Obligations.WordsAndBeats : Prop :=
  (∀ (s : State) (q : Nat) (k : Kern), q < 8 → (s.seq q).state = 1 → (s.seq q).kern = some k → k.bounded = true →
    k.beats = [] → k.words = [] → k.faults = [] → k.prog = none → k.bridgeBad = false → s.arrayFrozen q = false → s.haltCode = 0 →
    (s.nextWord q).2.2 = false →
    (∃ u f, exec (.operate ⟨q, .cmem⟩) s = .next u ∧ (u.seq q).state = 3 ∧ (u.seq q).count = (s.seq q).count ∧
      (u.kern q).faults = [f] ∧ f.code = cCmemUncorrectable ∧ f.cycle = (s.seq q).count ∧ u.tiles = s.tiles) ∧
    let w := (s.nextWord q).2.1
    wWaitEn w = false → wRepeatSrc w = 0 → wFirst w = false → wKick w = false → wRotLatch w = false →
    (wKind w = 0 → wRing w = 0 → wMode w = 0 → wVop w = 0 → wExch w = 0 →
      ∃ u, exec (.nopWord ⟨q, .ok⟩) s = .next u ∧ (u.seq q).count = (s.seq q).count + wRepeat w + 1 ∧ (u.kern q).beats = [] ∧
        u = { s with seqs := u.seqs }) ∧
    (∀ unit lat, wKind w = 1 → wRepeat w = 0 → wordUnits (s.seqDies q) w = [(unit, lat)] → k.suppressed.contains (wOpid w) = false →
      (s.seqCode q w 1 0 { mode := k.matMode, beats := k.matBeats }).1 = 0 →
      ∃ u b, exec (.operate ⟨q, .ok⟩) s = .next u ∧ (u.seq q).count = (s.seq q).count + 1 ∧ (u.kern q).beats = [b] ∧
        b.cycle = (s.seq q).count ∧ b.unit = unit ∧ b.lat = lat ∧ b.word = w ∧ b.read = false ∧ b.suppressed = false ∧
        u = { s with seqs := u.seqs })) ∧
  (∀ (s : State) (q : Nat) (k : Kern) (b : Beat), q < 8 → (s.seq q).kern = some k → k.faults = [] →
    (let p := s.seqP q
     let tiles := (s.part p).tiles
     let rs := (upTo tiles).map (fun τ => s.unitRead b p tiles τ (p * tiles + τ) 0)
     s.arrayFrozen q = false → k.beats = [b] → k.words = [] → b.read = false → b.unit = 0 → b.suppressed = false → b.blockR = 0 → 3 ≤ b.lat →
     b.cycle + 1 ≤ (s.seq q).count → (∀ r ∈ rs, r.code = 0) →
     ∃ u b', exec (.beatRead q) s = .next u ∧ (u.kern q).beats = [b'] ∧ b'.read = true ∧
       b'.rows = (rs.map (fun r => r.rows)).flatten ∧
       u = { s with seqs := u.seqs, tiles := u.tiles, free := s.free + 1 }) ∧
    (s.dueEvent q = some (.write b) → b.suppressed = false → b.blockW = 0 → b.masks = [] → b.gens = [] → b.moves = [] →
     exec (.beatWrite q false) s = .next (b.rows.foldl (fun u r => u.writeRows r.tile r.row r.data (b.first % 16))
       (s.modKern q fun k => { k with
         beats := k.beats.filter (fun x => !(x.order == b.order && x.cycle == b.cycle && x.unit == b.unit)) }))))

/-- R85, R96: rows written from a row's start read back as written, with VALID = 1 and the stamp; every other row of the tile
keeps its bytes and its tag, and every other tile is as before. -/
def Obligations.RowWrite : Prop :=
  ∀ (s : State) (t row stamp : Nat) (d : List Byte),
    let u := s.writeRows t row d stamp
    u.rowBytes t row d.length = d ∧
    (∀ r, row ≤ r → 128 * r < 128 * row + d.length → u.tag t r = { valid := true, stamp := stamp }) ∧
    (∀ r, r < row ∨ 128 * row + d.length ≤ 128 * r → u.tag t r = s.tag t r ∧ u.rowBytes t r 128 = s.rowBytes t r 128) ∧
    (∀ x, x ≠ t → u.tile x = s.tile x) ∧
    u = { s with tiles := u.tiles }

/-- R95, R103: a word that retires leaves the flight; one that emits to the array adds its token to the named queue of every
tile with room, and one that emits to the runtime core gives it one token. R101, R104: when every tile holds the awaited tokens,
all good, they are consumed and the word issues; a wait beyond SEQ_WAIT_LIMIT stops the kernel with WAIT_TIMEOUT at its schedule
cycle. -/
def Obligations.WordTokens : Prop :=
  (∀ (s : State) (q : Nat) (k : Kern) (f : FlightWord), q < 8 → (s.seq q).kern = some k → k.faults = [] →
    s.dueEvent q = some (.retire f) →
    let r := s.modKern q fun k => { k with words := k.words.filter (fun x => x.order != f.order) }
    let token : Token := { status := 0, source := 2, tag := wOpid f.word % 256 }
    (wEmitEn f.word = false → exec (.wordRetire q) s = .next r) ∧
    (wEmitEn f.word = true → wEmitTarget f.word = 1 → exec (.wordRetire q) s = .next (r.emitRuntime (s.seqP q) token)) ∧
    (wEmitEn f.word = true → wEmitTarget f.word ≠ 1 →
      (∀ t ∈ s.partTiles (s.seqP q), (s.tokens t (wEmitQ f.word)).length < 64) →
      ∃ u, exec (.wordRetire q) s = .next u ∧ u.mem = s.mem ∧
        ∀ t ∈ s.partTiles (s.seqP q), u.tokens t (wEmitQ f.word) = s.tokens t (wEmitQ f.word) ++ [token])) ∧
  (∀ (s : State) (q : Nat) (k : Kern), q < 8 → (s.seq q).kern = some k → (s.seq q).state = 2 →
    let w := (s.nextWord q).2.1
    (k.bounded = true → k.prog = none → s.arrayFrozen q = false →
      (∀ t ∈ s.partTiles (s.seqP q), wWaitN w ≤ (s.tokens t (wWaitQ w)).length ∧
        ∀ z ∈ (s.tokens t (wWaitQ w)).take (wWaitN w), z.status = 0) →
      exec (.waitRelease q) s = .next ((s.each (s.partTiles (s.seqP q)) fun t y =>
        y.each (upTo (wWaitN w)) fun _ z => z.takeToken t (wWaitQ w)).issueWord q)) ∧
    (∀ since, k.waitSince = some since → k.faults = [] → (s.seq q).waitLimit ≠ 0 →
      (s.seq q).waitLimit * Config.ticksPerUs < s.now - since →
      ∃ u f, exec (.waitTimeout q) s = .next u ∧ (u.seq q).state = 3 ∧ (u.seq q).count = (s.seq q).count ∧
        (u.kern q).faults = [f] ∧ f.code = cWaitTimeout ∧ f.cycle = (s.seq q).count ∧ u = { s with seqs := u.seqs }))

/-- R87, R100, R108 (the token's queue of log 37): with nothing in flight a replay boundary takes one cycle, applying the oldest
fetched patch set where the kernel has a list and consuming the fetcher's tokens; a fetch reads the next set of the list and
places a token of SOURCE 5 in that queue of every tile with room. R108: a patch set writes its registers in order, later entries
over earlier ones; ADD entries add modulo 2^64. -/
def Obligations.ReplaysAndPatches : Prop :=
  (∀ (s : State) (q : Nat) (k : Kern), q < 8 → (s.seq q).kern = some k →
    ((s.seq q).state = 1 → k.bounded = false → k.beats = [] → k.words = [] → k.faults = [] → s.arrayFrozen q = false → k.noList = true →
      exec (.replayBoundary q) s = .next (s.modSeq q fun x => { x with
        count := x.count + 1, state := 1, kern := some { k with bounded := true, waitSince := none } })) ∧
    (∀ l r, (s.seq q).state = 1 → k.bounded = false → k.beats = [] → k.words = [] → k.faults = [] → s.arrayFrozen q = false →
      k.noList = false → k.sets = l :: r →
      (∀ t ∈ s.partTiles (s.seqP q), ∃ z zs, s.tokens t (Config.replayQueue % 16) = z :: zs ∧ z.status = 0) →
      let v := s.takeTokens (s.seqP q) (Config.replayQueue % 16) 1
      ∃ u, exec (.replayBoundary q) s = .next u ∧ u.seq q = { s.seq q with
          count := (s.seq q).count + 1, params := applySet (s.seq q).params l
          kern := some { k with sets := r, bounded := true, waitSince := none } } ∧
        u = { v with seqs := u.seqs }) ∧
    (∀ l, k.noList = false → k.fetchBad = none → k.setsFetched < k.replays →
      let a := (s.seq q).replayBase + 16 * k.fetched
      s.inStacks (s.seqP q) a (16 * setLength s.mem 16 a) = true → s.rangeCode a (16 * setLength s.mem 16 a) = 0 → readSet s.mem 16 a = some l →
      ∃ u, exec (.replayFetch q) s = .next u ∧ u.mem = s.mem ∧ u.seq q = { s.seq q with
          kern := some { k with sets := k.sets ++ [l], fetched := k.fetched + l.length, setsFetched := k.setsFetched + 1 } } ∧
        ∀ t ∈ s.partTiles (s.seqP q), (s.tokens t (Config.replayQueue % 16)).length < 64 →
          ∃ z : Token, z.status = 0 ∧ z.source = 5 ∧
            u.tokens t (Config.replayQueue % 16) = s.tokens t (Config.replayQueue % 16) ++ [z])) ∧
  (∀ (m : SMap Word) (l : List Patch) (e : Patch) (r : Nat),
    smGet 0 (applySet m []) r = smGet 0 m r ∧
    smGet 0 (applySet m (l ++ [e])) r =
      (if r = e.param then (if e.add then smGet 0 (applySet m l) r + e.value else e.value) else smGet 0 (applySet m l) r))

/-- R106, R107, R109, R371, R404, Table 4-16: a write to a sequencer wakes the module first and does nothing in a module-fatal
state. A good load runs and disables the kernels it overwrites, and one of a single good word puts that word in control memory;
kernel-table entries and, while the sequencer is idle, parameter registers are written. -/
def Obligations.SequencerLoads : Prop :=
  ∀ (s : State) (q : Nat), q < 8 →
    let z := s.wake
    (∀ dest count, z.haltCode = 0 → dest < 2 ^ 15 → count < 2 ^ 16 → (z.seq q).ldBusy = false → (z.seq q).kern = none → count ≠ 0 →
      (z.seq q).loadSrc % 64 = 0 → dest + count ≤ 32768 →
      ∃ u, exec (.loadGo q dest count false) s = .next u ∧
        u.seq q = { z.seq q with
          ldDest := dest, ldCount := count, ldTable := false, ldBusy := true, runSrc := (z.seq q).loadSrc, runDest := dest
          runCount := count, runTable := false, ktab := (u.seq q).ktab } ∧
        (∀ e, e < 64 → (u.seq q).kt e = (if ktValid ((z.seq q).kt e) ∧ ktMeets ((z.seq q).kt e) false dest count then
          (z.seq q).kt e &&& ~~~(1#64 <<< 31) else (z.seq q).kt e)) ∧
        u = { z with seqs := u.seqs }) ∧
    ((s.seq q).ldBusy = true → (s.seq q).runTable = false → (s.seq q).runCount = 1 → s.rangeCode (s.seq q).runSrc 64 = 0 →
      let w := BitVec.ofNat 512 (s.loadLE (s.seq q).runSrc 64)
      wordBad (s.part (s.seqP q)).tiles w = false →
      ∃ u, exec (.loadComplete q) s = .next u ∧
        u.seq q = { s.seq q with
          ldBusy := false, cmem := smSet 0 (s.seq q).cmem (s.seq q).runDest w
          cmemBad := smSet false (s.seq q).cmemBad (s.seq q).runDest false } ∧
        u = { s with seqs := u.seqs, memc := (s.touch (s.seq q).runSrc 64).memc }) ∧
    (∀ e (v : Word), z.haltCode = 0 → e < 64 → (z.seq q).kern = none → v.toNat < 2 ^ 55 → ktBad v = false →
      exec (.ktabWrite q e v) s = .next (z.modSeq q fun x => { x with ktab := smSet 0 x.ktab e v })) ∧
    (∀ r v, z.haltCode = 0 → r < 16 → (z.seq q).state = 0 →
      exec (.parameterRegisterWrite q r v) s = .next (z.modSeq q fun x => { x with params := smSet 0 x.params r v })) ∧
    (∀ r v, z.haltCode = 0 → r < 16 → (z.seq q).state ≠ 0 →
      exec (.parameterRegisterWrite q r v) s = .next (z.modSeq q fun x => { x with dropped := true }))

/-! ### Streams -/

/-- R155, R160, R177, Table 6-8: arming, freeing and writing a slot; the rejected forms set only the named status bit, and an
idle slot's descriptor word alone changes. R155: the stored word of a descriptor reads back, and its seven other words stay.
R156, R177: a GO that passes starts a fresh run with the bases latched; a failed GO sets ERROR and the code and leaves the
slot's state. -/
def Obligations.StreamSlots : Prop :=
  (∀ (s : State) (t i : Nat), t < 64 → i < 24 →
    let z := s.wake
    ((z.slot t i).state = 0 → armBad (z.slot t i).desc = false →
      exec (.streamArm t i) s = .next (z.modSlot t i fun x => { x with state := 1, run := none })) ∧
    ((z.slot t i).state = 0 → armBad (z.slot t i).desc = true →
      exec (.streamArm t i) s = .next (z.modSlot t i fun x => { x with error := true, errCode := cDescriptorInvalid })) ∧
    ((z.slot t i).state = 1 →
      exec (.streamAbort t i) s = .next (z.modSlot t i fun x => { x with state := 0, run := none })) ∧
    (∀ w v, w < 8 → (z.slot t i).state = 0 →
      exec (.slotWrite t i w v) s = .next (z.modSlot t i fun x => { x with desc := putWord x.desc w v })) ∧
    (∀ w v, w < 8 → (z.slot t i).state ≠ 0 →
      exec (.slotWrite t i w v) s = .next (z.modSlot t i fun x => { x with dropped := true })) ∧
    exec (.fetchStatusRead t) s =
      .next { z.modTile t (fun x => { x with ctxHigh := 0 }) with
        host := { z.host with readData := z.host.readData ++ [(z.tile t).ctxUsed + (z.tile t).ctxHigh * 2 ^ 11] } }) ∧
  (∀ (d : BitVec 512) (w : Nat) (v : Word), w < 8 →
    (putWord d w v).toNat / 2 ^ (64 * w) % 2 ^ 64 = v.toNat ∧
    ∀ j, j < 8 → j ≠ w → (putWord d w v).toNat / 2 ^ (64 * j) % 2 ^ 64 = d.toNat / 2 ^ (64 * j) % 2 ^ 64) ∧
  (∀ (s : State) (t i : Nat), t < 64 → i < 24 →
    let z := s.wake
    ((z.slot t i).state = 0 →
      exec (.streamGo t i) s = .next (z.modSlot t i fun x => { x with error := true, errCode := cStreamSlotEmpty })) ∧
    ((z.slot t i).state = 2 ∨ (z.slot t i).state = 3 →
      exec (.streamGo t i) s = .next (z.modSlot t i fun x => { x with error := true, errCode := cStreamBusy })) ∧
    ((z.slot t i).state = 1 → sd (z.slot t i).desc 51 48 = 0 → sd (z.slot t i).desc 55 52 = 0 →
      exec (.streamGo t i) s = .next (z.stir.modSlot t i fun x => { x with state := 2, blockIndex := 0, run := some {} })) ∧
    (∀ (b : Nat), sd (z.slot t i).desc 51 48 = b → b ≠ 0 → sd (z.slot t i).desc 55 52 = 0 → (z.slot t i).state = 1 →
      let v := (z.pseq ((z.tilePart t).getD 0)).reg b
      exec (.streamGo t i) s = .next (
        if 2 ^ 41 ≤ v then z.modSlot t i fun x => { x with error := true, errCode := cParamRange }
        else z.stir.modSlot t i fun x => { x with state := 2, blockIndex := 0, run := some { base := v } })))

/-- R157, R159, R172: an ACTIVE run reads the next entry of its list, and starts its first block that has not started, taking a
context for each memory line of the block as far as the engine may take them. R158, R159, R163, R166, R211: the next line of a
load lands and frees its context, and the last line of a transfer writes the transfer's rows with VALID = 1 and STAMP = 0; the
next line of a store is written to memory, acknowledged and counted. -/
def Obligations.StreamTransfers : Prop :=
  (∀ (s : State) (t i : Nat), t < 64 → i < 24 → (s.slot t i).state = 2 →
    let d := (s.slot t i).desc
    let r := s.run t i
    (let a := sd d 255 192 + 32 * r.blocks.length
     r.blocks.length < sdBlocks d → (sdOp d ≠ 4 ∨ r.keyChecked = true) → s.fetchCode t a 32 = 0 →
      exec (.blockListRead t i) s = .next ((s.touch a 32).modRun t i fun r =>
        { r with blocks := r.blocks ++ [{ entry := s.entryAt d r.blocks.length }] })) ∧
    (∀ j b, r.blocks.findIdx? (fun x => !x.started) = some j → r.blocks[j]? = some b →
      r.skipBody = false → headerPending d r = false → coordsReady d r b.entry = true → be b.entry 177 177 = 0 →
      strideBad d r b.entry = false → s.ctxAvail t (i / 6) ≠ 0 →
      let total := s.blockLines t d r b.entry
      let n := min total (s.ctxAvail t (i / 6))
      total ≠ 0 →
      exec (.streamBlockStart t i) s = .next ((((s.modBlock t i j fun x =>
        { x with started := true, transfers := transferCount d x.entry, total := total, requested := n }).takeContexts t i n).markAsleep t i j 0).settleRun t i))) ∧
  (∀ (s : State) (t i j : Nat) (b : Block), t < 64 → i < 24 → (s.slot t i).state = 2 →
    let d := (s.slot t i).desc
    let r := s.run t i
    flightBlock r = some j → openBlock d r = some j → r.blocks[j]? = some b →
    let lines := s.transferLines t d r b.entry b.next
    let a := lines.getD b.line 0
    (b.line = 0 → s.transferCode t d r b.entry (b.asleep == b.next + 1) b.next = 0) →
    (sdIsLoad d = true → s.lineCode a = 0 →
      let u := (s.delivered [a] (sdOp d != 4)).lineDone t i j
      (b.line + 1 < lines.length → exec (.fetchLineLand t i) s = .next u) ∧
      (b.line + 1 = lines.length → sharedRows d r b.entry = false →
        (sd d 5 5 = 1 → ∀ k ∈ chunksOf d b.entry b.next,
          canonBad (s.chunkPrime t d b.entry k) (s.memVals t d r b.entry k) = false) →
        exec (.fetchLineLand t i) s = .next (((u.modBlock t i j fun x => { x with next := x.next + 1, line := 0 }).each
          (chunksOf d b.entry b.next) fun k x => x.writeRows t (beRow r b.entry k).toNat
            (pieceBytes (s.chunkBytes t d r b.entry) (s.chunkPieces t d r b.entry k) (s.memVals t d r b.entry k)) 0).settleRun t i))) ∧
    (sdIsLoad d = false →
      let f := s.transferFields t d r b.entry b.next
      let v := if b.line = 0 then s.modRun t i fun r => { r with seen := f.1, fields := f.2 } else s
      let e := smGet (0, 0) (if b.line = 0 then f.2 else r.fields) a
      e.1 ≠ 0 → (s.storeBits a e.1 e.2).2 = 0 →
      let u := (State.tileLedger (v.storeBits a e.1 e.2).1 t fun l => l.wrEnd true).lineDone t i j
      exec (.storeAck t i) s = .next (if b.line + 1 < lines.length then u else
        (u.modBlock t i j fun x => { x with next := x.next + 1, line := 0 }).settleRun t i)))

/-- R157, R160, R174, R175, R55: a complete block counts and its token leaves; a run whose blocks are all complete ends with its
token and the slot returns to ARMED or FREE, a ciphertext store with its header written and its entry naming the body; an abort
gives ABORTING with STREAM_ABORTED until the contexts have returned. -/
def Obligations.StreamEnds : Prop :=
  ∀ (s : State) (t i : Nat), t < 64 → i < 24 →
    let d := (s.slot t i).desc
    let r := s.run t i
    let ended := fun (w : State) =>
      let u := (w.kickEnded t i r 0).modSlot t i fun x => { x with state := if sd x.desc 4 4 = 1 then 1 else 0, run := none }
      if sd d 28 28 = 1 then u.emitTile t (sd d 19 16) { status := 0, source := 1, tag := sd d 87 80 } else u
    (∀ b, (s.slot t i).state = 2 → r.blocks[r.completed]? = some b → blockDone d r b = true →
      let u := s.modSlot t i fun x =>
        { x with blockIndex := x.blockIndex + 1, run := x.run.map (fun r => { r with completed := r.completed + 1 }) }
      exec (.streamBlockComplete t i) s = .next (if be b.entry 176 176 = 1 then
        u.emitTile t (sd d 19 16) { status := 0, source := 1, tag := be b.entry 191 184 } else u)) ∧
    ((s.slot t i).state = 2 → r.completed = sdBlocks d → headerPending d r = false →
      (sdCt d = false ∨ (sdOp d ≠ 3 ∧ (sdOp d ≠ 2 ∨ r.poison = 0)) → exec (.streamRunComplete t i) s = .next (ended s)) ∧
      (let p := (s.tilePart t).getD 0
       let e := sd d 79 72
       let body := sd d 191 128 + r.base
       let w := s.storeP p (sd d 319 256) (toBytes 64 (storedHeader (s.hdr p e) body))
       sdOp d = 3 → sdCt d = true → s.inStacks p (sd d 319 256) 64 = true → w.2 = 0 →
        exec (.streamRunComplete t i) s = .next (ended (w.1.modHdr p e fun h => { h with bodyAddr := body })))) ∧
    (let z := s.wake
     (z.slot t i).state = 2 → ∃ u, exec (.streamAbort t i) s = .next u ∧
      (u.slot t i).state = 3 ∧ (u.slot t i).errCode = cStreamAborted ∧ (u.slot t i).desc = (z.slot t i).desc ∧
      u = { z with tiles := u.tiles, parts := u.parts, seqs := u.seqs, memc := u.memc }) ∧
    ((s.slot t i).state = 3 → r.contexts = 0 → (∀ p, s.tilePart t = some p → s.ledgerBad p = 0) →
      exec (.streamAbortDrained t i) s = .next (s.modSlot t i fun x =>
        { x with state := if sd d 4 4 = 1 then 1 else 0, run := none }))

/-- R55, R61, R167, R169, R172: a ciphertext header enters its header-file entry, a key header that passes its checks is kept
and its token leaves, a tensor header and a coordinate are kept, each from lines of the partition's stacks that read good. -/
def Obligations.StreamHeaders : Prop :=
  ∀ (s : State) (t i : Nat), t < 64 → i < 24 → (s.slot t i).state = 2 →
    let d := (s.slot t i).desc
    let r := s.run t i
    let p := (s.tilePart t).getD 0
    (let a := sd d 319 256
     sdOp d = 2 → sdCt d = true → r.headerDone = false → s.lineCode a = 0 → s.inStacks p a 64 = true →
      exec (.ctHeaderLoad t i) s = .next (((s.touch a 64).modHdr p (sd d 79 72) (fun _ =>
        { headerOf (s.loadLE a 64) with bodyAddr := sd d 191 128 + r.base })).modRun t i
          (fun r => { r with headerDone := true, skipBody := false }))) ∧
    (let a := sd d 319 256
     sdOp d = 4 → r.keyChecked = false → r.kickSeq = none → s.fetchCode t a 64 = 0 →
      keyCheck (r.latch.getD {}) (keyHeaderOf (s.loadLE a 64)) (s.cache (t / 32)).ways = 0 →
      exec (.keyHeaderCheck t i) s = .next (((s.delivered [a] false).modRun t i (fun r =>
        { r with keyChecked := true, keyHdr := keyHeaderOf (s.loadLE a 64) })).emitTile t (sd d 27 24)
          { status := 0, source := 1, tag := 0xFF })) ∧
    (let a := sd d 191 128 + r.base
     let v := s.loadLE a 64
     sdIsTensor d = true → r.headerDone = false → s.fetchCode t a 64 = 0 →
      (tensorOf v).zeroBad = false → (tensorOf v).invalid (sdOp d == 6) = false →
      exec (.tensorHeaderRead t i) s = .next ((s.touch a 64).modRun t i (fun r =>
        { r with headerDone := true, tensor := BitVec.ofNat 512 v }))) ∧
    (∀ idx, sdIsTensor d = true → r.headerDone = true →
      let tn := tensorOf r.tensor.toNat
      let a := tn.listAddr + 8 * idx
      let v := s.loadLE a 8
      tn.mode = 1 → idx < tn.listCount → s.fetchCode t a 8 = 0 →
      (v % 2 ^ 16 = 0xFFFF ∨ (bits v 15 0 < tn.tcMax ∧ bits v 31 16 < tn.trMax ∧ bits v 47 32 < tn.d2 ∧ bits v 63 48 < tn.d3)) →
      exec (.coordinateListRead t i idx) s = .next ((s.touch a 8).modRun t i (fun r =>
        { r with coords := smSet 0 r.coords idx (2 ^ 64 + v) })))

/-- R229 to R233: a chain of a seeded key run starts for the next limb in list order, in the Badger of its block's die-local
tile, for every tile of the die that needs it, while that Badger runs fewer than six and its staging fits; a tile whose limb
another tile's chain produces joins it; a chain that ends counts towards its block's staging; an internal error at the open
block ends the run with BADGER_FAULT and the slot idle. -/
def Obligations.BadgerChains : Prop :=
  ∀ (s : State) (t i j : Nat), t < 64 → i < 24 → (s.slot t i).state = 2 →
    let d := (s.slot t i).desc
    let r := s.run t i
    let c := s.cache (t / 32)
    (∀ b, r.blocks.findIdx? (fun b => decide (b.chain ≤ 1) && decide (b.chainsOn < beChunks b.entry)) = some j →
      r.blocks[j]? = some b → sdOp d = 4 → r.keyChecked = true → r.keyHdr.seeded = true →
      (s.chainOf t i j b.chainsOn = none →
        let l := s.dieTiles t
        let z : Chain := { slot := i, block := j, limb := b.chainsOn, badger := l.getD (j % max 1 l.length) t
                           users := s.chainUsers t i j b.chainsOn, bytes := s.dieShare t (sdLogN d) }
        (c.chains.filter fun x => x.running && x.badger == z.badger).length < 6 →
        (c.chains.map fun x => x.bytes).sum + z.bytes ≤ c.ways * 4194304 →
        exec (.badgerChainStart t i) s = .next ((s.each z.users fun u y => y.modBlock u i j fun b =>
          { b with chain := 1, chainsOn := b.chainsOn + 1 }).modCache (t / 32) fun c => { c with chains := c.chains ++ [z] })) ∧
      (∀ n x, s.chainOf t i j b.chainsOn = some n → c.chains[n]? = some x → x.running = true →
        exec (.badgerChainStart t i) s = .next (((s.modCache (t / 32) fun y =>
          { y with chains := y.chains.modify n fun z => { z with users := z.users ++ [t] } }).modBlock t i j fun b =>
            { b with chain := 1, chainsOn := b.chainsOn + 1 }).settleRun t i))) ∧
    (∀ n x, c.chains.findIdx? (fun x => x.running && x.slot == i && x.users.contains t) = some n → c.chains[n]? = some x →
      ((s.chainLimb t d r (r.blocks.getD x.block {}).entry x.limb).isSome = true →
        exec (.badgerChainEnd t i false) s = .next ((s.modCache (t / 32) fun y =>
          { y with chains := y.chains.modify n fun z => { z with running := false } }).each x.users fun u y =>
            (y.chainStaged u i x.block).settleRun u i)) ∧
      (x.users = [t] → openBlock d r = some x.block →
        ∃ u, exec (.badgerChainEnd t i true) s = .next u ∧
          (u.slot t i).error = true ∧ (u.slot t i).errCode = cBadgerFault ∧ (u.slot t i).run = none ∧ u.mem = s.mem))

/-! ### Noise and stack memory -/

/-- R201, R353, R362, R363: a GO that passes its checks makes its generate requests of the noise instance, each of at most
65,536 bytes, and starts a draw; one that fails a check, or finds the instance stopped, sets DONE with the code, draws nothing
and emits the token that carries the code; a GO while BUSY is discarded, and PF0's for a locked partition is recorded and does
nothing. R200, R201: the coefficients lie in their kind's range whatever the DRBG's bits, and a request that ends leaves limb j
of the polynomial, reduced modulo its prime, at its place in the noise region, with DONE and the range recorded; lines outside
keep their bytes. -/
def Obligations.NoiseRequests : Prop :=
  (∀ (s : State) (w : NoiseIn), w.part < 8 →
    let p := w.part
    let v := s.wake
    let r := (v.part p).noiseReq
    (w.byPf0 = true → v.tdiClosed (p + 1) = true →
      exec (.noiseRequestGo w) s = .next (v.record cTdiLocked { part := p, block := 9 })) ∧
    (w.byPf0 = false ∨ v.tdiClosed (p + 1) = false →
      ((v.part p).noiseBusy = true → exec (.noiseRequestGo w) s = .next v) ∧
      ((v.part p).noiseBusy = false → v.noiseCode p = 0 → v.sec.noiseOk = true → v.sec.sourceOk = true →
        exec (.noiseRequestGo w) s = .next
          ((v.drbgRequests true (drawRequests (nqKind r) (nqWidth r) (nqLogN r))).stir.modPart p
            (fun x => { x with noiseBusy := true, noiseErr := 0 }))) ∧
      ((v.part p).noiseBusy = false → v.noiseCode p ≠ 0 ∨ v.sec.noiseOk = false → ∃ u, exec (.noiseRequestGo w) s = .next u ∧
        (u.part p).noiseDone = true ∧ (u.part p).noiseErr = (if v.noiseCode p ≠ 0 then v.noiseCode p else cDrbgFail) ∧
        (u.part p).noiseBusy = false ∧ u = { v with parts := u.parts, tiles := u.tiles, free := v.free + 1 }))) ∧
  ((∀ width v : Nat, noiseCoeff 0 width v ∈ [(-1 : Int), 0, 1] ∧
    (-21 ≤ noiseCoeff 1 width v ∧ noiseCoeff 1 width v ≤ 21) ∧
    (-(2 ^ width : Nat) ≤ noiseCoeff 2 width v ∧ noiseCoeff 2 width v < (2 ^ width : Nat))) ∧
  ∀ (s : State) (p : Nat), p < 8 → (s.part p).noiseBusy = true →
    let x := s.part p
    let r := x.noiseReq
    let base := x.noiseBase + nqOffset r
    let w := limbBytes (nqLogN r) false
    (∀ j, j < nqLimbs r → s.rangeCode (base + j * w) w = 0) →
    ∃ u, exec (.noiseRequestDone p) s = .next u ∧
      (∀ j, j < nqLimbs r → u.load (base + j * w) w =
        pack36 ((noisePoly r s.free).map (fun c => (c % (((s.pset (nqPset r)).q (nqE0 r + j) : Nat) : Int)).toNat))) ∧
      (∀ a, a < base ∨ base + nqLimbs r * w ≤ a → memByte u.mem a = memByte s.mem a) ∧
      (u.part p).noiseBusy = false ∧ (u.part p).noiseDone = true ∧ (u.part p).noiseErr = 0 ∧
      (u.part p).noiseRanges = x.noiseRanges ++ [{ offset := nqOffset r, bytes := nqBytes r }])

/-- R204, R206, R210, R216 to R218, R400: a read of a good line delivers its bytes, and leaves the line in its home cache where
the requester allocates; of a line read from the stack up to 4 wrong symbols are corrected, 5 to 12 are reported and poison the
line; a poisoned line is delivered as such, and an address that does not exist or is withdrawn is answered by its code alone,
each with an error record that names the requester. R204, R206, R211, R212, R219, R255, R400: a write within a good line stores
its bytes and no others and is counted in the ledger of the partition that holds the stack; a write of the whole line makes a
poisoned line good again, a partial one does not take place. A write that fails is recorded. A corrected line's write-back
changes only what waits for one, and an evicted line leaves its home cache. -/
def Obligations.StackReadsAndWrites : Prop :=
  (∀ (s : State) (a symbols requester : Nat) (allocate : Bool), a < 2 ^ 64 → symbols ≤ 12 →
    let line := lineOf a
    let bytes := ofBytes (s.load line 128)
    let hit := smGet false s.memc.cached line
    let kept := s.delivered [a] allocate
    let part := (s.stackPart a).getD 255
    (∀ e, e ≤ 2 → s.decodeCode a ≠ 0 → exec (.stackRead a symbols ⟨e, allocate, requester⟩) s =
      .next ((s.memFault part requester [a] (s.decodeCode a)).deliver [s.decodeCode a, 0])) ∧
    (s.lineCode a = 0 → (hit = true ∨ symbols = 0) →
      exec (.stackRead a symbols ⟨0, allocate, requester⟩) s = .next (kept.deliver [0, bytes])) ∧
    (s.decodeCode a = 0 → smGet 0 s.poison line ≠ 0 → exec (.stackRead a symbols ⟨0, allocate, requester⟩) s =
      .next ((kept.memFault part requester [a] cPoisonRead).deliver [cPoisonRead, bytes])) ∧
    (s.lineCode a = 0 → hit = false → 1 ≤ symbols → symbols ≤ 4 →
      ∃ u, exec (.stackRead a symbols ⟨0, allocate, requester⟩) s = .next u ∧
        u.host.readData = s.host.readData ++ [0, bytes] ∧
        (u.stk (stackNo a)).corrected = satInc 32 (s.stk (stackNo a)).corrected ∧
        smGet false u.memc.fixups line = true ∧ u.mem = s.mem ∧ u.poison = s.poison) ∧
    (s.lineCode a = 0 → hit = false → 5 ≤ symbols → ∃ u, exec (.stackRead a symbols ⟨0, allocate, requester⟩) s = .next u ∧
      u.host.readData = s.host.readData ++ [cEccUncorrectable, bytes] ∧
      (u.stk (stackNo a)).uncorrectable = satInc 16 (s.stk (stackNo a)).uncorrectable ∧
      smGet 0 u.poison line = cEccUncorrectable ∧ u.lineCode a = cEccUncorrectable ∧
      (∀ l, l ≠ line → smGet 0 u.poison l = smGet 0 s.poison l) ∧
      smGet false (u.stk (stackNo a)).due (rgKey (pcOf a) (rgOf a)) = true ∧ u.mem = s.mem)) ∧
  (∀ (s : State) (a : Nat) (data : List Byte), a < 2 ^ 64 → a % 128 + data.length ≤ 128 →
    let line := lineOf a
    let part := (s.stackPart a).getD 255
    (s.decodeCode a ≠ 0 → data ≠ [] → ∃ v : State,
      exec (.stackWrite a data 0) s = .next ((v.memFault part 0 [a] (s.decodeCode a)).deliver [s.decodeCode a]) ∧
      v = { s with parts := v.parts }) ∧
    (s.decodeCode a = 0 → smGet 0 s.poison line ≠ 0 → data ≠ [] → data.length < 128 →
      let c := if smGet false s.memc.cached line then s.partialCode a else cPoisonRead
      ∃ v : State, exec (.stackWrite a data 0) s = .next ((v.memFault part 0 [a] c).deliver [c]) ∧
        v = { s with parts := v.parts, memc := v.memc }) ∧
    (s.decodeCode a = 0 → (data.length = 128 ∨ smGet 0 s.poison line = 0) →
      ∃ u, exec (.stackWrite a data 0) s = .next u ∧ u.load a data.length = data ∧
        (∀ b, b < a ∨ a + data.length ≤ b → memByte u.mem b = memByte s.mem b) ∧ smGet 0 u.poison line = 0 ∧
        (∀ l, l ≠ line → smGet 0 u.poison l = smGet 0 s.poison l) ∧
        (∀ p, s.stackPart a = some p → data ≠ [] → (u.part p).ledger = ((s.part p).ledger.wrIssue 1).wrEnd true) ∧
        u = { s with mem := u.mem, poison := u.poison, memc := u.memc, host := u.host, parts := u.parts } ∧
        u.host = { s.host with readData := s.host.readData ++ [0] }) ∧
    (a < Config.stackTop → exec (.correctedWriteback a) s =
      .next { s with memc := { s.memc with fixups := smSet false s.memc.fixups line false } }) ∧
    (a < Config.stackTop → ∃ u, exec (.dirtyWriteback a) s = .next u ∧ smGet false u.memc.cached line = false ∧
      smGet false u.memc.dirty line = false ∧ u = { s with memc := u.memc, poison := u.poison } ∧
      (smGet 0 s.memc.under line = 0 ∨ smGet false s.memc.dirty line = true → u.poison = s.poison)))

/-- R212 to R215, R255, R400: an atomic on good lines replaces each element by its operation's result and no other byte, and
answers 0, with the first old element where Table 8-4 returns one; one that is invalid, or whose address does not exist or is
withdrawn, answers its code, is recorded, and changes nothing else but the ledger. -/
def Obligations.Atomics : Prop :=
  ∀ (s : State) (op a ps entry : Nat) (d : List Word), a < 2 ^ 64 →
    (s.decodeCode a ≠ 0 ∨ s.atomicBad op a ps entry d = true →
      let count := fun (f : Ledger → Ledger) (x : State) => match s.stackPart a with
        | some p => x.modLedger p f
        | none => x
      let c := if s.decodeCode a ≠ 0 then s.decodeCode a else cAtomicInvalid
      let lines := linesOf a (((atomicShape op).map (fun z => z.bytes)).getD 8 * atomicCount op d)
      exec (.atomic op a ps entry d) s = .next ((count (fun l => l.wrEnd false)
        ((count (fun l => l.wrIssue 1) s.stir).memFault ((s.stackPart a).getD 255) 0 lines c)).deliver [c])) ∧
    (∀ z, atomicShape op = some z → s.atomicBad op a ps entry d = false → s.decodeCode a = 0 →
      (∀ i, i < atomicCount op d → s.rangeCode (a + z.bytes * i) z.bytes = 0) →
      ∃ u, exec (.atomic op a ps entry d) s = .next u ∧
        u.host = { s.host with readData := s.host.readData ++ (0 :: if [4, 7, 8].contains op then [s.loadLE a 8] else []) } ∧
        (∀ i, i < atomicCount op d → u.loadLE (a + z.bytes * i) z.bytes =
          atomicElem op ((s.pset ps).q entry) (s.loadLE (a + z.bytes * i) z.bytes) d i % 2 ^ (8 * z.bytes)) ∧
        (∀ b, b < a ∨ a + z.bytes * atomicCount op d ≤ b → memByte u.mem b = memByte s.mem b) ∧
        (∀ p, s.stackPart a = some p → (u.part p).ledger = ((s.part p).ledger.wrIssue 1).wrEnd true) ∧
        u = { s.stir with mem := u.mem, poison := u.poison, memc := u.memc, host := u.host, parts := u.parts })

/-- R220, R223 to R225, R234: a patrol read moves on; a row group that is due takes its pseudo-channel's next spare, or becomes
due for withdrawal where none is left; a retired pseudo-channel leaves none of its row groups on itself and migrates them in
order; SPARE_HOLD defers sparing and retirement and ends after 10 s. -/
def Obligations.StackRepair : Prop :=
  ∀ (s : State) (k : Nat), k < 12 →
    let x := s.stk k
    (s.memc.patrolHours ≠ 0 → s.scrubbing = false → s.pwr.state < 2 →
      exec (.patrolScrub k 0) s = .next (s.modStk k fun y => { y with patrolNext := (y.patrolNext + 1) % linesPerStack })) ∧
    (∀ pc rg, pc < 64 → rg < Config.unitsPerStack → smGet false x.due (rgKey pc rg) = true →
      (let s' := s.modStk k fun y => { y with due := smSet false y.due (rgKey pc rg) false }
       s.memc.spareHold = true → exec (.rowSparing k pc rg []) s =
        .next { s' with memc := { s'.memc with deferred := s'.memc.deferred ++ [{ stack := k, pc := pc, rg := rg }] } }) ∧
      (s.memc.spareHold = false → x.sparesOf pc = 0 → ∃ u, exec (.rowSparing k pc rg []) s = .next u ∧
        u.stk k = { x with due := (u.stk k).due, wdDue := (u.stk k).wdDue } ∧
        smGet false (u.stk k).wdDue rg = true ∧ smGet false (u.stk k).due (rgKey pc rg) = false) ∧
      (s.memc.spareHold = false → x.sparesOf pc ≠ 0 → ∃ u, exec (.rowSparing k pc rg []) s = .next u ∧
        smGet 0 (u.stk k).remap (rgKey pc rg) = 1 + pc * Config.sparesPerPc + smGet 0 x.sparesUsed pc ∧
        (u.stk k).sparesOf pc + 1 = x.sparesOf pc ∧ smGet false (u.stk k).due (rgKey pc rg) = false ∧
        u.mem = s.mem ∧ u.poison = s.poison ∧ u.withdrawn = s.withdrawn)) ∧
    (∀ pc why, pc < 64 → (why ≠ .sparings ∨ 64 ≤ s.sparedInHour k pc) →
      (s.memc.spareHold = true → exec (.pcRetirement k ⟨pc, why⟩) s =
        .next { s with memc := { s.memc with deferred := s.memc.deferred ++ [{ stack := k, pc := pc, retire := true }] } }) ∧
      (s.memc.spareHold = false → smGet false x.retired pc = false →
      ∃ u, exec (.pcRetirement k ⟨pc, why⟩) s = .next u ∧ smGet false (u.stk k).retired pc = true ∧
        (u.stk k).migrations = x.migrations ++ [(pc, 0)] ∧
        (∀ rg, rg < Config.unitsPerStack →
          let v := smGet 0 (u.stk k).remap (rgKey pc rg)
          (v ≠ 0 ∧ (v - 1) / Config.sparesPerPc ≠ pc) ∨ smGet false (u.stk k).wdDue rg = true) ∧
        u.mem = s.mem ∧ u.poison = s.poison ∧ u.withdrawn = s.withdrawn)) ∧
    (∀ pc g n rest, n ≤ Config.unitsPerStack → x.migrations = (pc, g) :: rest →
      let last := min (g + n) Config.unitsPerStack
      exec (.migration k ⟨n, false, []⟩) s = .next (s.modStk k fun y => { y with
        migrations := if last = Config.unitsPerStack then rest else (pc, last) :: rest })) ∧
    (s.memc.spareHold = true → 1000000000 ≤ s.now - s.memc.holdSince →
      ∃ u, exec .spareHoldExpiry s = .next u ∧ u.memc.spareHold = false ∧ u.memc.deferred = [] ∧ u.mem = s.mem)

/-- R206, R226 to R228: a unit that found no spare, and every unit of a stack that fails, answers ADDRESS_WITHDRAWN from then
on, and no other address changes its answer; the health record then holds every withdrawn unit and each stack's retirements and
remaps. -/
def Obligations.Withdrawal : Prop :=
  ∀ (s : State),
    (∀ k v, k < 12 → v < Config.unitsPerStack → smGet false (s.stk k).wdDue v = true →
      ∃ u, exec (.withdrawal k v) s = .next u ∧ u.isWithdrawn (k * Config.unitsPerStack + v) = true ∧
        (∀ j, j ≠ k * Config.unitsPerStack + v → u.isWithdrawn j = s.isWithdrawn j) ∧
        smGet false (u.stk k).wdDue v = false ∧ u.mem = s.mem) ∧
    (∀ k, k < 12 → (s.stk k).failed = false →
      ∃ u, exec (.stackLoss k) s = .next u ∧ (u.stk k).failed = true ∧
        (∀ a, a < Config.stackTop → stackOff a < Config.stackBytes →
          (stackNo a = k → u.decodeCode a = cAddressWithdrawn) ∧ (stackNo a ≠ k → u.decodeCode a = s.decodeCode a))) ∧
    (smWf false s.withdrawn = true → ∃ u, exec .healthRecordWrite s = .next u ∧
      (∀ j, smGet false u.memc.healthUnits j = (smGet false s.memc.healthUnits j || s.isWithdrawn j)) ∧
      (∀ k, k < 12 → let x := s.stk k
        smGet {} u.memc.healthStks k = { failed := x.failed, retired := x.retired, remap := x.remap, sparesUsed := x.sparesUsed }) ∧
      u = { s with memc := u.memc })

/-! ### Messages and the ledger -/

/-- R240, R241, R249, R250, R252: a command whose endpoint is ready is served at once where its checks pass: a SEND with a
credit puts its record in flight, one without is held or orphaned; a RECV takes the head record, padding and all; CLOSE, OPEN
and CLRF change the queue's state or its gate flag and complete with 0; a reserved CMD completes with COMMAND_INVALID. -/
def Obligations.MessageCommands : Prop :=
  ∀ (s : State) (p ep idx : Nat) (c : EpCmd), epOkArgs p ep idx c = true → s.commandReady p ep idx →
    (c.badCmd.isSome = true → exec (.send p ep idx c) s =
      .next ((s.commandState p ep idx 1 c).commandDone p ep idx cCommandInvalid c)) ∧
    (c.badCmd = none → epCmdBad c = false →
    (∀ r, let t := s.commandState p ep idx 1 c
      t.sendCode p ep r c = 0 → (t.msg p).routeOf ep c.index = some r → smGet [] (t.msg p).heldSend r = [] →
      ((t.msg p).creditFree r = true →
        let x : Rec := { setf := c.setf, flag := c.flag, srcEp := ep, srcPort := c.index, route := r, doneQ := c.doneQ, idx := idx }
        let x := { x with payload := t.epRead p ep c.row c.len }
        exec (.send p ep idx c) s = .next (t.modMsg p fun m => { m with
          flying := smSet [] m.flying r (smGet [] m.flying r ++ [x]) })) ∧
      ((t.msg p).creditFree r = false →
        (t.rq p ((t.msg p).route r).dstEp ((t.msg p).route r).dstQueue).closed = true →
        exec (.send p ep idx c) s = .next (t.commandDone p ep idx cOrphaned c)) ∧
      ((t.msg p).creditFree r = false →
        (t.rq p ((t.msg p).route r).dstEp ((t.msg p).route r).dstQueue).closed = false →
        exec (.send p ep idx c) s = .next (t.modMsg p fun m => { m with
          heldSend := smSet [] m.heldSend r [{ kind := 1, idx := idx, cmd := c }] }))) ∧
    (∀ z r rest, let t := s.commandState p ep idx 2 c
      (t.msg p).queueCfg ep c.index = some z → (t.rq p ep c.index).held = [] → (t.rq p ep c.index).closed = false →
      (t.rq p ep c.index).ring = r :: rest → (t.msg p).gateOpen z = true → r.msg.payload.length ≤ c.len →
      c.row + ceilDiv (16 + r.msg.payload.length) 128 ≤ epRows ep → (∀ x, rest.head? = some x → x.skip = false) →
      ∃ u, exec (.recv p ep idx c) s = .next u ∧ (u.rq p ep c.index).ring = rest ∧
        (u.rq p ep c.index).used = (t.rq p ep c.index).used - r.bytes ∧
        (u.rq p ep c.index).rp = (r.offset + r.bytes) % z.size ∧
        u.epRead p ep c.row (recData r.msg).length = recData r.msg ∧
        (64 ≤ ep → (u.core (ep - 64)).done = true ∧ (u.core (ep - 64)).doneStatus = r.msg.memCode) ∧ u.mem = s.mem) ∧
    (∀ z, let t := s.commandState p ep idx 3 c
      (t.msg p).queueCfg ep c.index = some z → (t.rq p ep c.index).held = [] → ∃ u, exec (.close p ep idx c) s = .next u ∧
        u = ((t.modRq p ep c.index fun q => { q with closed := true }).orphanHeld p ep c.index).commandDone p ep idx 0 c ∧
        (u.rq p ep c.index).closed = true ∧ (u.rq p ep c.index).ring = (t.rq p ep c.index).ring) ∧
    (∀ z, let t := s.commandState p ep idx 4 c
      (t.msg p).queueCfg ep c.index = some z → (t.rq p ep c.index).held = [] →
      exec (.openQueue p ep idx c) s =
        .next ((t.modRq p ep c.index fun q => { q with closed := false }).commandDone p ep idx 0 c)) ∧
    (∀ z, let t := s.commandState p ep idx 5 c
      (t.msg p).queueCfg ep c.index = some z → (t.rq p ep c.index).held = [] → z.gateEn = true → z.gateFlag = c.flag →
      ∃ u, exec (.clrf p ep idx c) s = .next u ∧ bit (u.msg p).flags c.flag = false ∧
        (∀ j, j < 32 → j ≠ c.flag → bit (u.msg p).flags j = bit (t.msg p).flags j) ∧ (u.msg p).queues = (t.msg p).queues))

/-- R240, R245, R247, R248, R250: the oldest record in flight on a route enters its queue's ring where it fits, a spill page
where it does not, and is orphaned at a closed queue; a spill write stores the record in its page, and the head of a spill list
moves into the ring and frees its page; a SEND held for a credit leaves when one is free. R240, R249, R252, R254: a reset
empties and closes the queue, and an OPEN held there then opens it; a flag write sets its bits and clears none; a stalled queue
creates one NO_PROGRESS record and no queue changes. -/
def Obligations.MessageMoves : Prop :=
  (∀ (s : State) (p ep queue : Nat) (c : QueueCfg), p < 8 → ep < 68 → queue < 16 → (s.msg p).queueCfg ep queue = some c →
    let q := s.rq p ep queue
    (∀ route x rest, route < 1088 → smGet [] (s.msg p).flying route = x :: rest →
      ((s.msg p).route route).dstEp = ep → ((s.msg p).route route).dstQueue = queue →
      let n := recBytes x.payload.length
      let y := { x with seq := smGet 0 (s.msg p).seqs route }
      (q.closed = true → ∃ u, exec (.recordArrival p route) s = .next u ∧
        smGet [] (u.msg p).flying route = rest ∧ smGet 0 (u.msg p).dead route = smGet 0 (s.msg p).dead route + 1 ∧
        u.rq p ep queue = q ∧ (64 ≤ x.srcEp → (u.core (x.srcEp - 64)).doneStatus = cOrphaned)) ∧
      (q.closed = false → q.waiting = [] →
        (∀ o skip, place q c.size n false = some (o, skip) → (∀ z, q.ring.head? = some z → z.skip = false) →
          let gone := q.ring = [] ∧ skip ≠ 0
          ∃ u, exec (.recordArrival p route) s = .next u ∧
          (u.rq p ep queue).ring = q.ring ++
            (if skip = 0 ∨ q.ring = [] then [] else [{ offset := q.wp, bytes := skip, skip := true }]) ++
            [{ offset := o, bytes := n, msg := y }] ∧
          (u.rq p ep queue).used = (if gone then q.used + n else q.used + skip + n) ∧
          (u.rq p ep queue).rp = (if gone then 0 else q.rp) ∧ (u.rq p ep queue).wp = (o + n) % c.size ∧
          smGet [] (u.msg p).flying route = rest ∧ smGet 0 (u.msg p).inUse route = smGet 0 (s.msg p).inUse route + 1 ∧
          smGet 0 (u.msg p).seqs route = (smGet 0 (s.msg p).seqs route + 1) % 2 ^ 32 ∧
          (64 ≤ ep → memBytes (smGet [] u.epMem (ep - 64)) (128 * c.ringRow + o) n = recData y)) ∧
        (∀ i, place q c.size n false = none → (∀ y ∈ q.spill, y.page.isSome = true) → s.freePage p = some i → ∃ u, exec (.recordArrival p route) s = .next u ∧
          u.rq p ep queue = { q with spill := q.spill ++ [{ page := some i, msg := y }] } ∧ smGet false (u.msg p).pages i = true))) ∧
    (∀ i x j, q.spill.findIdx? (fun x => x.page.isSome && !x.written) = some i → q.spill[i]? = some x → x.page = some j →
      s.rangeCode (s.pageAddr p j) (recData x.msg).length = 0 →
      ∃ u, exec (.spillWriteComplete p ep queue) s = .next u ∧
        u.load (s.pageAddr p j) (recData x.msg).length = recData x.msg ∧
        u.rq p ep queue = { q with spill := q.spill.modify i (fun y => { y with written := true }) } ∧
        (∀ a, a < s.pageAddr p j ∨ s.pageAddr p j + (recData x.msg).length ≤ a → memByte u.mem a = memByte s.mem a)) ∧
    (∀ x rest o skip j, q.spill = x :: rest → x.page = some j → x.written = true → q.waiting = [] →
      (∀ y ∈ rest, y.page.isSome = true) →
      place q c.size (recBytes x.msg.payload.length) true = some (o, skip) →
      ∃ u, exec (.spillDrain p ep queue) s = .next u ∧ (u.rq p ep queue).spill = rest ∧
        (u.rq p ep queue).ring.getLast? = some { offset := o, bytes := recBytes x.msg.payload.length, msg := { x.msg with
          spilled := true, memCode := s.rangeCode (s.pageAddr p j) (recBytes x.msg.payload.length)
          payload := s.load (s.pageAddr p j + 16) x.msg.payload.length } } ∧
        smGet false (u.msg p).pages j = false ∧ u.mem = s.mem) ∧
    (∀ port r h rest, port < 16 → s.epOk p ep = true → (s.msg p).routeOf ep port = some r →
      smGet [] (s.msg p).heldSend r = h :: rest → s.sendCode p ep r h.cmd = 0 → (s.msg p).creditFree r = true →
      ∃ u, exec (.heldCommandResume p ep port true) s = .next u ∧ smGet [] (u.msg p).heldSend r = rest ∧
        (smGet [] (u.msg p).flying r).length = (smGet [] (s.msg p).flying r).length + 1 ∧ u.mem = s.mem)) ∧
  (∀ (s : State) (p ep queue : Nat), p < 8 → ep < 256 → queue < 16 →
    (∀ c, (s.msg p).queueCfg ep queue = some c →
      ((∀ h ∈ (s.rq p ep queue).held, h.kind = 2) → ∃ u, exec (.qreset p ep queue) s = .next u ∧
        u.rq p ep queue = { closed := true, lastDelivery := (s.rq p ep queue).lastDelivery } ∧ u.mem = s.mem) ∧
      (∀ h, (s.rq p ep queue).held = [h] → h.kind = 4 → h.cmd.index = queue → epCmdBad h.cmd = false →
        ∃ u, exec (.qreset p ep queue) s = .next u ∧
          u.rq p ep queue = { closed := false, lastDelivery := (s.rq p ep queue).lastDelivery } ∧ u.mem = s.mem)) ∧
    (∀ mask, mask < 2 ^ 32 → ∃ u, exec (.flagSet p mask) s = .next u ∧ (u.msg p).flags = (s.msg p).flags ||| mask ∧
      (∀ e k, (u.rq p e k).ring = (s.rq p e k).ring) ∧ u.mem = s.mem) ∧
    (∀ c f, (s.msg p).queueCfg ep queue = some c → (s.msg p).dynamicSetter c = some f → s.stalled p c f = true →
      (s.rq p ep queue).reported = false →
      let stalled := pack [(0, ep), (8, queue)]
      let setter := pack [(0, f.setEp), (8, f.setQueue)]
      exec (.progressWatchdog p ep queue) s = .next ((s.record cNoProgress
        { part := p, block := 8, loc0 := stalled, loc1 := setter }).modRq p ep queue
          fun q => { q with reported := true })))

/-- R255: the moves of a partition's counters keep every row of Table 9-10, where the count they take from is not zero. R256,
R258, R352, R404: a ledger whose rows all hold passes its check; one that breaks a row is a module-fatal LEDGER_BREACH that
names the row; SNAP of a requester that reaches the partition's registers captures every counter at once, and DUMP stores the
route and queue records as well; one of a VF in RUN outside its IDE stream is discarded and recorded. -/
def Obligations.LedgerCounts : Prop :=
  (∀ (l : Ledger) (cr ring sp tiles : Nat), (∀ i, l.row cr ring sp tiles i = true) → ∀ i,
    l.emit.row cr ring sp tiles i = true ∧ l.returned.row cr ring sp tiles i = true ∧ l.orphan.row cr ring sp tiles i = true ∧
    (l.tokResident ≠ 0 → l.consume.row cr ring sp tiles i = true) ∧
    (∀ n, n ≤ l.tokResident → (l.retire n).row cr ring sp tiles i = true) ∧
    (∀ n, (l.wrIssue n).row cr ring sp tiles i = true) ∧
    (∀ ok, l.wrOutstanding ≠ 0 → (l.wrEnd ok).row cr ring sp tiles i = true) ∧
    (∀ n, n ≤ l.ctxFree → (l.ctxTake n).row cr ring sp tiles i = true) ∧
    (∀ n, n ≤ l.ctxUsed → (l.ctxGive n).row cr ring sp tiles i = true) ∧
    (l.crHeld ≠ 0 → l.accept.row cr ring sp tiles i = true) ∧
    (∀ d, l.crInUse ≠ 0 → (l.leave d).row cr ring sp tiles i = true) ∧
    (∀ n, n ≤ l.ringFree → (l.ringTake n).row cr ring sp tiles i = true) ∧
    (∀ n, n ≤ l.ringUsed → (l.ringGive n).row cr ring sp tiles i = true) ∧
    (l.spFree ≠ 0 → l.pageTake.row cr ring sp tiles i = true) ∧
    (l.spUsed ≠ 0 → l.pageGive.row cr ring sp tiles i = true ∧ l.pageRetire.row cr ring sp tiles i = true)) ∧
  (∀ (s : State) (p : Nat), p < 8 →
    (s.ledgerBad p = 0 → exec (.ledgerCheck p false) s = .next s) ∧
    (∀ parity, s.ledgerBad p ≠ 0 → s.pwr.state ≠ 4 → (s.part p).tiles ≠ 0 → (s.part p).breach = false →
      ∃ u, exec (.ledgerCheck p parity) s = .next u ∧ (u.part p).breach = true ∧ (u.part p).breachItem = s.ledgerBad p ∧
        u.ras.fatal = true) ∧
    (∀ byVf tlp, let n := if byVf then p + 1 else 0
      let z := s.wake
      s.fnOn n = true → s.fw.running ≠ 2 → (s.fn n).d3 = false → tlp = .plain ∨ tlp = .ide →
      ((z.fn n).tdi = 2 → tlp = .plain →
        exec (.snap ⟨p, byVf, tlp⟩) s = .next (z.record cIdeViolation { part := fnPart n, block := 10 }) ∧
        exec (.dump ⟨p, byVf, tlp⟩) s = .next (z.record cIdeViolation { part := fnPart n, block := 10 })) ∧
      ((z.fn n).tdi ≠ 2 ∨ tlp = .ide → z.ledgerBad p = 0 → (z.part p).ledgerBusy = false →
        exec (.snap ⟨p, byVf, tlp⟩) s = .next (z.modPart p fun x => { x with snapshot := x.ledger, snapped := true, snapTime := z.now }) ∧
        let m := z.msg p
        let d := ((upTo m.sub.routes.length).map (z.routeDump p)).flatten ++ (m.sub.queues.map (z.queueDump p)).flatten
        z.inStacks p (z.part p).dumpAddr d.length = true → z.rangeCode (z.part p).dumpAddr d.length = 0 →
        ∃ u, exec (.dump ⟨p, byVf, tlp⟩) s = .next u ∧ (u.part p).snapshot = (z.part p).ledger ∧
          u.load (z.part p).dumpAddr d.length = d ∧
          ∀ a, a < (z.part p).dumpAddr ∨ (z.part p).dumpAddr + d.length ≤ a → memByte u.mem a = memByte s.mem a)))

/-! ### Structures and owners -/

/-- R272 to R276, R353, R360, R371: a valid image brings up the partitions that are not kept, each with its shape, a fresh
ledger and PART_STATE up, and sets DONE; an image that fails a check changes no partition and reports the rejection, or the code
of a signature engine that is disabled or whose two evaluations disagree; a held load runs once the scrub is over; a teardown
leaves the partition without packages, headers, stream runs or scratchpad contents, and one of a locked partition by PF0 is
discarded and recorded. -/
def Obligations.StructureLoads : Prop :=
  ∀ (s : State) (host : List Byte), s.fw.running ≠ 2 →
    let v := s.wake
    (∀ source places, source < 4 → v.img.busy = false → v.scrubbing = false →
      let t := (v.modImg fun y => { y with source := source }).stir.modImg fun y => { y with busy := true, held := none, loading := none }
      let b := (t.copySource source host).1
      let x := if source = 3 then factoryImage else parseImage b
      let keep := fun (p : Nat) => t.keeps x p
      (source < 3 → (t.copySource source host).2 = 0 ∧ t.validate b false = none) → (source = 3 → t.factoryCheck = none) →
      t.sec.engineCode = 0 → t.haltCode = 0 → (t.tearOthers keep).haltCode = 0 →
      places = (if source = 3 then [(t.placeOf 1 0 (factoryImage.parts.getD 0 {})).getD {}]
        else (t.places (sectionOf b 1).1).map (fun o => o.getD {})) →
      ∃ u, exec (.load source host .whole) s = .next u ∧ u.img.image = some x ∧ u.img.done = true ∧ u.img.error = false ∧
        u.img.loadedFrom = source + 1 ∧ u.img.loads = (s.img.loads + 1) % 2 ^ 32 ∧
        ∀ p, p < 8 → keep p = false →
          (p < x.m → let pl := places.getD p {}
            (u.part p).state = 1 ∧ (u.part p).tiles = 64 / x.m ∧ (u.part p).seq = p * (8 / x.m) ∧ (u.part p).pkgs = [] ∧
              (u.part p).stks = pl.stks ∧ ((x.fabric.getD {}).colls = [] →
                (u.part p).ledger = freshLedger (x.sub p).credits (x.sub p).ringBytes pl.spillPages (64 / x.m))) ∧
          (x.m ≤ p → (u.part p).state = 0 ∧ (u.part p).tiles = 0)) ∧
    (∀ source how r, source < 3 → v.img.busy = false → v.scrubbing = false →
      let t := v.modImg fun y => { y with source := source }
      (t.copySource source host).2 = 0 → t.validate (t.copySource source host).1 false = some r → r.open_ = false →
      ((t.sec.engineCode = 0 ∧ how ≠ .mismatch) ∨ r.reason = 20) →
      ∃ u, exec (.load source host how) s = .next u ∧ u.img.done = true ∧ u.img.error = true ∧ u.img.errCode = cImageRejected ∧
        u.img.rejReason = r.reason ∧ u.img.rejSection = r.sect ∧ u.img.image = s.img.image ∧ u.parts = v.parts ∧ u.mem = v.mem) ∧
    (∀ source how, source < 3 → v.img.busy = false → v.scrubbing = false →
      let t := v.modImg fun y => { y with source := source }
      (t.copySource source host).2 = 0 → t.sec.engineCode ≠ 0 ∨ how = .mismatch →
      (t.validate (t.copySource source host).1 false = none ∨
        ∃ r, t.validate (t.copySource source host).1 false = some r ∧ r.reason ≠ 19 ∧ r.reason ≠ 20 ∧ r.reason ≠ 21) →
      ∃ u, exec (.load source host how) s = .next u ∧ u.img.done = true ∧ u.img.error = true ∧
        u.img.errCode = (if t.sec.engineCode ≠ 0 then t.sec.engineCode else cPkMismatch) ∧
        u.img.image = s.img.image ∧ u.parts = v.parts ∧ u.mem = v.mem) ∧
    (∀ source how, how ≠ .beforeInstall → how ≠ .installing → s.img.held = some source → s.scrubbing = false →
      ∃ u, exec (.heldLoadStart host how) s = .next u ∧ u.img.held = none ∧ u.img.busy = false ∧ u.img.done = true) ∧
    (∀ p, p < 8 → v.tdiClosed (p + 1) = true →
      exec (.teardown ⟨p, true⟩) s = .next (v.record cTdiLocked { part := p, block := 2 })) ∧
    (∀ p byPf0, p < 8 → let z := if byPf0 then v else s
      (byPf0 = true → z.tdiClosed (p + 1) = false) → z.img.loading = none → z.isUp p = true → z.ras.fatal = false →
      ((z.tearStart p none).part p).ledger.drainedBad = 0 → (z.tearStart p none).ledgerBad p = 0 →
      ∃ u, exec (.teardown ⟨p, byPf0⟩) s = .next u ∧ (u.part p).state = 3 ∧ (u.part p).pkgs = [] ∧ (u.part p).binds = [] ∧
        (u.seq (z.part p).seq).hdrs = [] ∧ (∀ t, t ∈ z.partTiles p → (u.tile t).spad = [] ∧ (u.tile t).tokq = [] ∧
          ∀ i, (u.slot t i).state = 0 ∧ (u.slot t i).run = none))

/-- R280, R281, R371: an invalidation clears COMMIT of its slot alone; a write that passes the checks leaves a valid slot with
the image and the next GEN; one whose flash fails leaves an invalid slot and reports NV_WRITE_FAILED; and one still under way
when the next command arrives holds its slot invalid and NV_BUSY until the next tick. -/
def Obligations.FlashSlots : Prop :=
  ∀ (s : State) (slot : Nat), s.fw.running ≠ 2 →
    let v := s.wake
    v.img.nvBusy = false → v.img.loading = none → v.flashClosed = false →
    ((slot = 1 ∨ slot = 2) → ∃ u, exec (.invalidate slot) s = .next u ∧
      u.img.slot (slot == 2) = { s.img.slot (slot == 2) with commit := 0 } ∧
      u.img.slot (slot != 2) = s.img.slot (slot != 2) ∧ u.img.nvDone = true ∧ u.img.nvError = s.img.nvError) ∧
    (∀ host, slot < 3 →
      let t := v.stir.modImg fun y => { y with nvSlot := slot }
      let b := (t.copySource 0 host).1
      let k := s.img.target slot
      (t.copySource 0 host).2 = 0 → t.sec.engineCode = 0 → t.validate b true = none →
      (∃ u, exec (.nvWrite slot host .ok) s = .next u ∧ (u.img.slot k).valid = true ∧ (u.img.slot k).bytes = b ∧
        (u.img.slot k).gen = (if (s.img.slot (!k)).valid ∧ (s.img.slot (!k)).gen < 0xFFFFFFFE then (s.img.slot (!k)).gen + 1 else 1) ∧
        ((s.img.slot (!k)).gen ≠ 0xFFFFFFFE → u.img.slot (!k) = s.img.slot (!k)) ∧ u.img.nvDone = true ∧ u.img.image = s.img.image) ∧
      (∃ u, exec (.nvWrite slot host .failed) s = .next u ∧ (u.img.slot k).valid = false ∧ u.img.slot (!k) = s.img.slot (!k) ∧
        u.img.nvDone = true ∧ u.img.nvError = true ∧ u.img.nvErrCode = cNvWriteFailed) ∧
      (∃ u, exec (.nvWrite slot host .running) s = .next u ∧ (u.img.slot k).valid = false ∧ u.img.slot (!k) = s.img.slot (!k) ∧
        u.img.nvBusy = true ∧ u.img.writing = some { slot := k, image := b, lastStep := false }))

/-- R283 to R286, R371: a request accepted while none is recorded is recorded, ends the structure and, for a change of owner,
both slots; one that the flash does not take reports NV_WRITE_FAILED. Every partition then reads 0, and when the scrub of such a
module is done every byte of a visible unit is zero and no line of one is poisoned; the request is done and a change counts one
epoch. -/
def Obligations.OwnerChanges : Prop :=
  ∀ (s : State),
    (∀ samples, samplesOk samples = true → s.fw.running ≠ 2 → s.scrubbing = false → s.pins.pwrGood = true → s.img.loading = none →
      (∃ u, exec (.change ⟨true, samples⟩) s = .next u ∧ u.owner.pending = true ∧ u.owner.change = true ∧ u.owner.restarts = 0 ∧
        u.img.image = none ∧ u.img.slotA.valid = false ∧ u.img.slotB.valid = false ∧ u.sec.ownerKey = none ∧
        (∀ p, p < 8 → (u.part p).tiles = 0 ∧ (u.part p).state = 0)) ∧
      (∃ u, exec (.scrub ⟨true, samples⟩) s = .next u ∧ u.owner.pending = true ∧ u.owner.change = false ∧ u.img.image = none ∧
        u.img.slotA = s.img.slotA ∧ u.img.slotB = s.img.slotB ∧ u.sec.ownerKey = s.sec.ownerKey ∧
        (∀ p, p < 8 → (u.part p).tiles = 0 ∧ (u.part p).state = 0)) ∧
      let e := s.wake.modOwner fun o => { o with error := true, errCode := cNvWriteFailed }
      exec (.change ⟨false, samples⟩) s = .next e ∧ exec (.scrub ⟨false, samples⟩) s = .next e) ∧
    (∀ units i, s.scrubbing = true → units.all (fun v => decide (v < 12 * Config.unitsPerStack)) = true →
      ∃ u, exec (.ownerChangeScrubDone units i) s = .next u ∧ u.owner.pending = false ∧
        ((∀ p, p < 8 → (s.part p).state = 0) → ∀ a, u.isWithdrawn (unitKey a) = false →
          memByte u.mem a = 0#8 ∧ smGet 0 u.poison a = 0) ∧
        u.owner.done = true ∧ u.pins.ready = true ∧ u.owner.unitsDone = s.owner.unitsTotal ∧
        (∀ v, v ∈ units → u.isWithdrawn v = true) ∧
        u.sec.epoch = (if s.owner.change then (s.sec.epoch + 1) % 2 ^ 64 else s.sec.epoch))

/-! ### Fabric -/

/-- R290, R291, R294 to R298, R300, R303, R306: a flit that the FEC and the CRC pass and that is next in sequence delivers the
packets that end in it, owes its sender the credit of each it discards, and retires what it acknowledges, one that they fail
asks for a replay; a packet leaves when its virtual channel has a credit, and with none ready an idle flit goes out; training
gives ACTIVE at the common level; a failed lane narrows an x8 port; a port that goes DOWN holds nothing; FROG is entered and
left. -/
def Obligations.FabricPorts : Prop :=
  ∀ (s : State) (n : Nat), n < 8 →
    let p := s.port n
    (∀ body tail : List Byte, body.length = 240 → tail.length = 16 → p.usable = true →
      let wire := body ++ tail
      let stop := s.modPort n fun y => { y with uncorrectable := satInc 16 y.uncorrectable, nakDue := true }
      (flitCorrected wire = none → exec (.flitReceive n body tail) s = .next stop) ∧
      (∀ d fixed, flitCorrected wire = some (d, fixed) →
        let t := leAt d 240 4
        let counted := min (p.fecCorrected + fixed) (2 ^ 32 - 1)
        (flitCrcOk d = false → ∃ u, exec (.flitReceive n body tail) s = .next u ∧
          u.port n = { p with fecCorrected := counted, uncorrectable := satInc 16 p.uncorrectable, nakDue := true }) ∧
        (flitCrcOk d = true → bits t 11 0 = p.rxNext →
          let b := p.rxStream ++ d.take 240
          let r := cutStream (b.length / 16) b
          ∃ u, exec (.flitReceive n body tail) s = .next u ∧
            (u.port n).ingress = p.ingress ++ r.1.filter (fun x => vcOk x && (p.state == 2 || x.vc == 3)) ∧
            (u.port n).owed = (r.1.filter (fun x => x.type != 0 && !(vcOk x && (p.state == 2 || x.vc == 3)))).foldl
              (fun m x => smSet 0 m x.vc (smGet 0 m x.vc + 1)) p.owed ∧
            (u.port n).rxStream = r.2 ∧ (u.port n).rxNext = (p.rxNext + 1) % 4096 ∧ (u.port n).fecCorrected = counted ∧
            (∀ e, e ∈ (u.port n).replayBuf ↔ e ∈ p.replayBuf ∧ ackCovers e.seq (bits t 23 12) = false) ∧
            (∀ m, m ≠ n → u.port m = s.port m) ∧ u = { s with fab := u.fab }))) ∧
    (p.usable = true → p.replayBuf ≠ [] → 200 ≤ s.now - p.unackedSince →
      exec (.replayTimeout n) s = .next (s.modPort n fun y => { y with replays := satInc 16 y.replays, unackedSince := s.now })) ∧
    (∀ x rest, p.state = 2 → p.egress = x :: rest → p.creditFor x = true → p.replayBuf.length + flitsOf x ≤ 512 →
      ∃ u, exec (.packetForward n) s = .next u ∧ (u.port n).egress = rest ∧
        (u.port n).replayBuf.flatMap (fun e => e.packets) = p.replayBuf.flatMap (fun e => e.packets) ++
          [if p.level = 1 then { x with detour := false } else x] ∧
        smGet 0 (u.port n).credits x.vc = smGet 0 p.credits x.vc - 1 ∧ u = { s with fab := u.fab }) ∧
    (p.egress = [] → p.ingress = [] → p.usable = true → p.replayBuf.length < 512 → exec (.packetForward n) s =
      .next (s.modPort n fun y => y.transmit s.now [] (fillBody []))) ∧
    (∀ x rest, p.egress = [] → p.ingress = x :: rest →
      let drained := fun (u : State) => u.modPort n fun y =>
        { y with ingress := rest, owed := smSet 0 y.owed x.vc (smGet 0 y.owed x.vc + 1) }
      (x.dest = s.fab.cfg.moduleAddr → exec (.packetForward n) s = .next (drained s)) ∧
      (∀ e d, x.dest ≠ s.fab.cfg.moduleAddr → s.egressOf x = some (e, d) → (s.port e).state = 2 →
        (s.port e).creditFor { x with detour := d } = true → (s.port e).replayBuf.length + flitsOf { x with detour := d } ≤ 512 →
        exec (.packetForward n) s = .next (drained (s.sendFlit e { x with detour := d })))) ∧
    (∀ t l, trainOk n t = true → t.running = false → stepInTime 1000 t.lockUs = true → stepInTime 20000 t.eqUs = true →
      linkLevel s.fab.cfg.maxLevel t.peerLo t.peerHi = some l → s.mayTrain n = true →
      let lanes := lanesPassing t.laneTest
      (lanes % 16 = 15 ∨ lanes / 16 = 15) →
      let good := fun (u : State) => (u.port n).state = 2 ∧ (u.port n).level = l ∧ (u.port n).fails = 0 ∧
        (u.port n).peerAddr = t.peerAddr ∧ (u.port n).replayBuf = [] ∧
        (u.port n).width4 = !(lanes % 16 == 15 && lanes / 16 == 15)
      (p.state = 1 ∨ (p.state = 0 ∧ p.fails = 0) → ∃ u, exec (.portTraining n t) s = .next u ∧ good u) ∧
      (p.state = 0 → p.fails ≠ 0 → (if p.fails < 3 then 10000000 else 100000000) ≤ s.now - p.failTime →
        ∃ u, exec (.trainingRetry n t) s = .next u ∧ good u) ∧
      (∃ u, exec (.retrain n t) s = .next u ∧ good u)) ∧
    (∀ t, trainOk n t = true → t.running = true → s.mayTrain n = true → p.state = 0 → p.fails = 0 →
      exec (.portTraining n t) s = .next (s.modPort n fun y => { y with state := 1 })) ∧
    (∀ lane, lane < 8 → p.state = 2 → p.width4 = false →
      (if lane < 4 then (p.laneFailed ||| 2 ^ lane) / 16 else (p.laneFailed ||| 2 ^ lane) % 16) = 0 →
      ∃ u, exec (.laneFailure n lane) s = .next u ∧ (u.port n).width4 = true ∧ (u.port n).upper = decide (lane < 4) ∧
        (u.port n).state = 2 ∧ (u.port n).laneFailed = p.laneFailed ||| 2 ^ lane ∧
        (p.replayBuf ≠ [] → (u.port n).replays = satInc 16 p.replays)) ∧
    (p.state ≠ 0 → ∃ u, exec (.portDown n) s = .next u ∧ u.port n = { p with
      state := 0, level := 0, replayBuf := [], egress := [], frogAsked := false, leaving := false, rxStream := [], owed := []
      nakDue := false }) ∧
    (p.state = 2 → p.frogAsked = true → (s.pwr.state = 2 ∨ s.pwr.state = 3) →
      exec (.frogEntry n) s = .next (s.modPort n fun y => { y with state := 3 })) ∧
    (p.state = 3 → (p.leaving = true ∨ ¬ (s.pwr.state = 2 ∨ s.pwr.state = 3)) → p.laneFailed = 0 →
      exec (.frogExit n) s = .next (s.modPort n fun y =>
        { y with state := 2, frogAsked := false, leaving := false, credits := fullCredits, owed := [] })) ∧
    (∀ tol, tol < 2 ^ 32 → exec (.advert n tol) s = .next (s.modPort n fun y => { y with peerTol := tol }))

/-- R314 to R318: a child's ceiling is kept; an epoch sets the job frequency and goes to every child; an abort that is new ends
the instance it names, or marks one not yet issued to end with its cause, and a repeated one changes nothing; a join that
completes the job at the root joins it; a leave and an expired join limit end every open instance. -/
def Obligations.JobPackets : Prop :=
  ∀ (s : State) (a job : Nat), a < 2 ^ 16 → job < 2 ^ 64 → s.inJob job = true →
    let f := s.fab
    let c := f.cfg
    (∀ step, step < 256 → c.jobChildren.contains a = true → ∃ u, exec (.ceiling a job step) s = .next u ∧
      smGet 256 u.fab.childCeil a = step ∧ u = { s with fab := u.fab, pwr := u.pwr, ras := u.ras, host := u.host }) ∧
    (∀ e v, e < 2 ^ 32 → v < 256 → s.locked = true → ∃ u, exec (.epoch job e v) s = .next u ∧ u.fab.jobFreq = v ∧
      u.fab.epochNo = e ∧ u.fab.lastEpoch = s.now ∧ u.fab.lockLost = false ∧
      u.fab.out = f.out ++ c.jobChildren.map (fun d => { dest := d, subtype := 2, fields := [job, e, v] })) ∧
    (s.locked = true → c.isRoot = true → c.jobId ≠ 0 → c.epochUs * Config.ticksPerUs ≤ s.now - f.lastEpoch →
      ∃ u, exec .epochTimer s = .next u ∧ u.fab.jobFreq = s.treeCeiling ∧ u.fab.epochNo = (f.epochNo + 1) % 2 ^ 32 ∧
        u.fab.lastEpoch = s.now) ∧
    (s.locked = true → f.lockLost = false → 4 * c.epochUs * Config.ticksPerUs ≤ s.now - f.lastEpoch →
      ∃ u, exec .freqLockLost s = .next u ∧ u.fab = { f with lockLost := true } ∧ u.pwr = s.pwr) ∧
    (∀ k i cause origin x, k < 64 → i < 256 → cause < 2 ^ 16 → origin < 2 ^ 16 → s.collCfg k = some x →
      (f.aborts.contains (origin, cause, k, i) = true → exec (.abort a job k i cause origin) s = .next s) ∧
      (f.aborts.contains (origin, cause, k, i) = false → (s.coll k).isOpen = true → (s.coll k).inst = i →
        ∃ u, exec (.abort a job k i cause origin) s = .next u ∧ (u.coll k).isOpen = false ∧ (u.coll k).inst = (i + 1) % 256 ∧
          u.fab.out = f.out ++ (s.othersThan a).map (fun d => { dest := d, subtype := 3, fields := [job, k, i, cause, origin] })) ∧
      (f.aborts.contains (origin, cause, k, i) = false → (s.coll k).isOpen = false ∨ (s.coll k).inst ≠ i →
        instPast (s.coll k).inst i = false → ∃ u, exec (.abort a job k i cause origin) s = .next u ∧
          smGet 0 (u.coll k).dead i = cause ∧ (u.coll k).isOpen = (s.coll k).isOpen)) ∧
    (∀ level count, level < 256 → count < 2 ^ 16 → c.jobChildren.contains a = true →
      (∃ u, exec (.join a job level count) s = .next u ∧ smGet (0, 0) u.fab.childJoin a = (level, count)) ∧
      (c.jobChildren = [a] → c.isRoot = true → f.joining = true → (s.part c.jobPart).rlActive = c.jobLevel → level = c.jobLevel →
        count ≠ 0 → count + 1 = c.jobMembers → ∃ u, exec (.join a job level count) s = .next u ∧ u.fab.jobState = 2)) ∧
    (∀ status, status < 2 ^ 16 → f.joining = true → ∃ u, exec (.joinResult job status) s = .next u ∧
      u.fab.jobState = (if status = 0 then 2 else 3)) ∧
    (∀ origin, origin < 2 ^ 16 → ∃ u, exec (.leave a job origin) s = .next u ∧ u.fab.jobState = 1 ∧
      ∀ k x, k < 64 → s.collCfg k = some x → (u.coll k).isOpen = false) ∧
    (f.joining = true → f.jobState ≠ 2 → f.joinLimit ≠ 0 → f.joinLimit * ticksPerMs ≤ s.now - f.joinSince →
      ∃ u, exec .joinLimitExpiry s = .next u ∧ ∀ k x, k < 64 → s.collCfg k = some x → (u.coll k).isOpen = false)

/-- R299, R308 to R314: a fresh contribution of a known child is added to the landing area group by group and a repeated one
only counts; a leaf stores the result data of a broadcast; acknowledgements retire packets; the sum of a member goes up; a
complete result enters its header entry and ends the instance, as a timeout ends it with its code. -/
def Obligations.CollectivePackets : Prop :=
  ∀ (s : State) (x : Packet) (z : CollCfg), packetOk x = true → s.collCfg x.coll = some z → s.scrubbing = false →
    let k := s.coll x.coll
    let key := peerKey x.src x.vc
    (s.judge x 1 = .fresh → x.offset ≠ 0xFFFFFFFF → k.ownDone = true → 36 * (x.offset + pktGroups x) ≤ z.half →
      (∀ i ps, s.setOf k.hdr = some (i, ps) → (∀ j, j < pktGroups x → s.rangeCode (z.bufAddr + 36 * (x.offset + j)) 36 = 0) →
      ∃ u, exec (.contributionArrival x) s = .next u ∧
        (∀ j, j < pktGroups x → u.loadLE (z.bufAddr + 36 * (x.offset + j)) 36 = packGroup (List.zipWith
          (fun v w => addM (groupPrime ps k.hdr (x.offset + j)) (fold v (groupPrime ps k.hdr (x.offset + j)))
            (fold w (groupPrime ps k.hdr (x.offset + j))))
          (unpackGroup (s.loadLE (z.bufAddr + 36 * (x.offset + j)) 36)) (unpackGroup (leAt x.body (36 * j) 36))) % 2 ^ 288) ∧
        (∀ b, b < z.bufAddr + 36 * x.offset ∨ z.bufAddr + 36 * (x.offset + pktGroups x) ≤ b → memByte u.mem b = memByte s.mem b) ∧
        smGet 0 (u.coll x.coll).landed x.src = smGet 0 k.landed x.src + pktGroups x)) ∧
    (s.judge x 1 = .duplicate → exec (.contributionArrival x) s =
      .next (({ s with fab := { s.fab with dup := min (s.fab.dup + 1) (2 ^ 64 - 1) } } : State).modPeer key
        fun y => { y with ackDue := true })) ∧
    (s.judge x 2 = .fresh → z.kind ≠ 3 → z.children = [] → x.offset ≠ 0xFFFFFFFF → 36 * (x.offset + pktGroups x) ≤ z.half →
      s.rangeCode (z.result + 36 * x.offset) (36 * pktGroups x) = 0 →
      ∃ u, exec (.dataArrival x) s = .next u ∧
        u.load (z.result + 36 * x.offset) (36 * pktGroups x) = x.body.take (36 * pktGroups x) ∧
        (u.coll x.coll).resLanded = k.resLanded + pktGroups x ∧ (u.peer key).ackDue = true) ∧
    (∀ peer vc m, peer < 2 ^ 16 → vc < 2 → m < 2 ^ 24 → (s.peer (peerKey peer vc)).txq = [] →
      ∃ u, exec (.landingAcknowledgement peer vc m) s = .next u ∧
        (∀ v, v ∈ (u.peer (peerKey peer vc)).unacked ↔
          v ∈ (s.peer (peerKey peer vc)).unacked ∧ 2 ^ 23 ≤ (m + 2 ^ 24 - v.1) % 2 ^ 24) ∧
        u = { s with fab := u.fab, parts := u.parts }) ∧
    (∀ peer vc e d, peer < 2 ^ 16 → vc < 2 → (s.peer (peerKey peer vc)).ackDue = true →
      let y : Packet := { type := 3, vc := 2, dest := peer, src := s.fab.cfg.moduleAddr, part := s.fab.cfg.jobPart }
      let y := { y with pseq := ((s.peer (peerKey peer vc)).rxNext + 2 ^ 24 - 1) % 2 ^ 24 }
      s.egressOf y = some (e, d) → ∃ u, exec (.landingAckSend peer vc) s = .next u ∧ (u.peer (peerKey peer vc)).ackDue = false ∧
        (u.port e).egress = (s.port e).egress ++ [{ y with detour := d }]) ∧
    (x.coll < 64 →
      (k.isOpen = true → z.kind = 1 → k.ownDone = true → k.sentUp = false → k.childrenDone z = true → k.landPoison = false →
        s.rangeCode z.bufAddr (36 * k.hdr.groups) = 0 → z.parent ≠ 0xFFFF →
        let t := (s.modColl x.coll fun _ => { k with sentUp := true }).touch z.bufAddr (36 * k.hdr.groups)
        let sum := toBytes 2 k.maxNoise ++ toBytes 2 k.poisonRank ++ toBytes 2 k.poisonCause ++ toBytes 1 (b2n k.flooded)
          ++ toBytes 5 0 ++ toBytes 4 k.hdr.groups
        exec (.collSendUp x.coll) s = .next (t.sendTo z.parent 0 (t.collPackets x.coll z.parent 1 0
          (toBytes 64 (headerBits k.hdr) ++ sum) (s.load z.bufAddr (36 * k.hdr.groups))))) ∧
      (∀ h, k.isOpen = true → z.kind ≠ 3 → k.resHdr = some h → k.resLanded = h.groups →
        s.rangeCode z.result (h.groups * 36) = 0 → h.bodyLimbs ≤ s.capacity k.part ((s.bound k.part k.entry).getD {}) h.logN →
        h.poison = false → ∃ u, exec (.collResultComplete x.coll) s = .next u ∧ (u.coll x.coll).isOpen = false ∧
          (u.coll x.coll).inst = (k.inst + 1) % 256 ∧
          u.hdr k.part k.entry = { h with valid := true, bodyAddr := (s.hdr k.part k.entry).bodyAddr }) ∧
      (k.isOpen = true → s.fab.collLimit ≠ 0 → s.fab.collLimit * Config.ticksPerUs ≤ s.now - k.since →
        exec (.collTimeout x.coll) s = .next (s.abortColl x.coll cCollTimeout) ∧
        ((s.abortColl x.coll cCollTimeout).coll x.coll).isOpen = false))

/-! ### Host interface -/

/-- R327, R333, R337, R338, R371: doorbells, queue configuration and the window of a function whose requests reach the module,
each inside its range, after the module has woken; a tail outside the ring stops the queue with DOORBELL_INVALID; a QCFG write
without ENABLE disables the queue and leaves the values in force. R325, R334 to R336: an open queue of a function that exists
takes its next entry in ring order, read by Table 12-11; an entry that fails a check completes at once with the code, and one
that passes waits to be performed. -/
def Obligations.HostQueues : Prop :=
  (∀ (s : State) (n q : Nat), n < 9 → q < 8 → s.fnOn n = true → s.fw.running ≠ 2 → (s.fn n).d3 = false →
    let z := s.wake
    let x := z.qp n q
    (z.fn n).tdi = 0 →
    (∀ tail, x.enable = true → x.error = false → tail < 2 ^ x.sqLog → tail < 2 ^ 16 →
      exec (.sqTail n q tail .plain) s = .next (z.modQp n q fun y => { y with tail := tail }).ltr) ∧
    (∀ tail, x.enable = true → x.error = false → 2 ^ x.sqLog ≤ tail → tail < 2 ^ 16 →
      ∃ u, exec (.sqTail n q tail .plain) s = .next u ∧
        u.qp n q = { x with error := true, errCode := cDoorbellInvalid } ∧ u.mem = s.mem) ∧
    (∀ head, x.enable = true → x.error = false → head < 2 ^ x.cqLog → head < 2 ^ 16 →
      (head + 2 ^ x.cqLog - x.head) % 2 ^ x.cqLog ≤ x.held →
      exec (.cqHead n q head .plain) s = .next (z.modQp n q fun y => { y with head := head })) ∧
    (∀ v : Word, x.enable = false → bit v.toNat 20 = true → qcfgBad v.toNat = false →
      exec (.qcfgWrite n q v .plain) s = .next (z.modQp n q fun y => { y with
        cfg := v.toNat &&& qcfgFields, sqLog := bits v.toNat 4 0, cqLog := bits v.toNat 12 8, vec := bits v.toNat 19 16
        intCount := bits v.toNat 31 24, intUs := bits v.toNat 47 32, enable := true, error := false, errCode := 0, sqHead := 0
        tail := 0, head := 0, cqTail := 0, phase := true, unsignalled := 0 }).ltr) ∧
    (∀ v : Word, bit v.toNat 20 = false →
      exec (.qcfgWrite n q v .plain) s = .next (z.modQp n q fun y => { y with cfg := v.toNat &&& qcfgFields, enable := false }).ltr) ∧
    (∀ v : Word, v.toNat % 2 ^ (z.fn n).barLog = 0 → ((z.fn n).barLog = 41 → v.toNat = 0) →
      exec (.winBaseWrite n v .plain) s = .next (z.modFn n fun y => { y with winBase := v.toNat }))) ∧
  (∀ (s : State) (n q : Nat) (w : BitVec 512), n < 9 → q < 8 → s.fnOn n = true → (s.fn n).d3 = false → (s.qp n q).fetches = true →
    let e := subEntryOf w
    (s.core (s.part (entryPart n e)).core).state = 0 →
    let h := ((s.qp n q).sqHead + 1) % 2 ^ (s.qp n q).sqLog
    let f := { s with host := { s.host with fetches := s.host.fetches + 1 } }.modQp n q fun y => { y with
      sqHead := h, desc := some { entry := e, part := entryPart n e, sqHead := h, order := s.host.fetches } }
    (e.opcode = w.toNat % 2 ^ 8 ∧ e.cid = w.toNat / 2 ^ 16 % 2 ^ 16 ∧ e.part = w.toNat / 2 ^ 32 % 8 ∧
      e.a0 = w.toNat / 2 ^ 64 % 2 ^ 64 ∧ e.a1 = w.toNat / 2 ^ 128 % 2 ^ 64 ∧ e.a2 = w.toNat / 2 ^ 192 % 2 ^ 64) ∧
    (f.entryCode n e = 0 → exec (.descriptorFetch n q (some w)) s = .next f.ltr) ∧
    (f.entryCode n e ≠ 0 → exec (.descriptorFetch n q (some w)) s =
      .next (f.post n q (f.entryCode n e) (f.failResult (entryPart n e) e.opcode))))

/-- R337: a completion entry is written to the ring in host memory, the slot advances, PHASE inverts at each wrap, and the
queue's descriptor has ended; nothing outside the host interface and the dwells of the power controller changes. -/
def Obligations.CompletionPosted : Prop :=
  ∀ (s : State) (n q status result : Nat) (d : Desc), (s.qp n q).desc = some d → d.entry.cid < 2 ^ 16 → d.sqHead < 2 ^ 16 →
    status < 2 ^ 16 → result < 2 ^ 64 →
    let x := s.qp n q
    let u := s.post n q status result
    memLE u.host.mem (x.cqBase + 16 * x.cqTail) 16 =
      result + d.entry.cid * 2 ^ 64 + d.sqHead * 2 ^ 80 + status * 2 ^ 96 + (if x.phase then 2 ^ 112 else 0) ∧
    (∀ a, a < x.cqBase + 16 * x.cqTail ∨ x.cqBase + 16 * x.cqTail + 16 ≤ a → memByte u.host.mem a = memByte s.host.mem a) ∧
    (u.qp n q).desc = none ∧ (u.qp n q).cqTail = (x.cqTail + 1) % 2 ^ x.cqLog ∧
    (u.qp n q).phase = (if (x.cqTail + 1) % 2 ^ x.cqLog = 0 then !x.phase else x.phase) ∧
    u = { s with host := u.host, pwr := u.pwr } ∧ (u.pwr = s.pwr ∨ u.pwr = s.stir.pwr)

/-- R132, R136, R336: the descriptors that act on a partition's packages and kernels, each fetched, not running, its service
core running: NOP completes; a package that loads is listed under its identifier; an idle package is unloaded; a RUN starts its
kernel. -/
def Obligations.PackageDescriptors : Prop :=
  ∀ (s : State) (n q : Nat) (d : Desc), n < 9 → q < 8 → (s.qp n q).desc = some d → d.running = false →
    (s.core (s.part d.part).core).state = 0 →
    let e := d.entry
    let p := d.part
    let z := (s.part p).seq
    (e.opcode = 0 → exec (.nopDescriptor n q) s = .next (s.post n q 0 0)) ∧
    (e.opcode = 2 → (s.loadPackage p e.a0).2.1 = 0 →
      ∃ u, exec (.loadPkg n q) s = .next u ∧ u = (s.loadPackage p e.a0).1.post n q 0 (s.loadPackage p e.a0).2.2 ∧
        (u.part p).pkgs.any (fun g => g.id == (s.loadPackage p e.a0).2.2) = true) ∧
    (∀ g, e.opcode = 3 → s.entryPackage p e = some g → (s.pseq p).kern = none → s.fab.cfg.jobPart ≠ p →
      ∃ u, exec (.unloadPkg n q) s = .next u ∧ (u.part p).pkgs = (s.part p).pkgs.filter (fun x => x.id != g.id) ∧
        (∀ k ∈ g.kernels, (u.seq z).kt k.ktab = 0) ∧ ((u.part p).pkgs = [] → (u.part p).rlActive = 0) ∧ (u.qp n q).desc = none) ∧
    (∀ g k, e.opcode = 1 → (s.seq z).state = 0 → s.firstRun d = true → s.entryPackage p e = some g →
      g.kernels[bits e.a1 5 0]? = some k → s.seqPart z = some p → ktValid ((s.seq z).kt k.ktab) = true → bits e.a1 31 8 ≠ 0 →
      ∃ u, exec (.run n q) s = .next u ∧ (u.seq z).state = 1 ∧ (u.seq z).kernel = k.ktab ∧ (u.seq z).replays = bits e.a1 31 8 ∧
        (u.seq z).noList = bit e.a1 32 ∧ (bit e.a1 32 = false → (u.seq z).replayBase = e.a2) ∧
        (bit e.a1 32 = true → ∀ i, i < 12 → (u.seq z).reg (4 + i) = k.defaults.getD i 0 % 2 ^ 64) ∧
        (u.qp n q).desc = some { d with running := true } ∧ u.mem = s.mem)

/-- R340: a copy in whose lines are good stores the host's bytes and nothing else in stack memory; a copy out whose lines are
good delivers the stack's bytes; each completes with the count. R141 to R143: a save that succeeds leaves an image at its
destination and completes with its length; a restore that succeeds gives the kernel parameters the image's values. -/
def Obligations.MemoryDescriptors : Prop :=
  (∀ (s : State) (n q : Nat) (d : Desc), n < 9 → q < 8 → (s.qp n q).desc = some d → d.running = false →
    (s.core (s.part d.part).core).state = 0 →
    let e := d.entry
    (∀ host : List Byte, e.opcode = 4 → host.length = e.a2 → s.rangeCode e.a1 e.a2 = 0 →
      ∃ u v : State, exec (.copyIn n q host) s = .next u ∧ u = v.post n q 0 e.a2 ∧
        u.load e.a1 e.a2 = host ∧ (∀ a, a < e.a1 ∨ e.a1 + e.a2 ≤ a → memByte u.mem a = memByte s.mem a) ∧
        (∀ l, smGet 0 u.poison l = smGet 0 s.poison l) ∧ u.tiles = s.tiles ∧ u.seqs = s.seqs ∧ v.host = s.host) ∧
    (∀ hostOk, e.opcode = 5 → e.a2 ≤ hostOk → s.rangeCode e.a0 e.a2 = 0 →
      let r := s.delivered ((piecesOf e.a0 e.a2).map fun y => e.a0 + y.1) true
      exec (.copyOut n q hostOk) s = .next ({ r with
        host := { s.host with mem := memWrite s.host.mem e.a1 (s.load e.a0 e.a2) } }.post n q 0 e.a2))) ∧
  (∀ (s : State) (n q : Nat) (d : Desc), n < 9 → q < 8 → (s.qp n q).desc = some d → d.running = false →
    (s.core (s.part d.part).core).state = 0 →
    let e := d.entry
    let p := d.part
    (e.opcode = 6 → (s.saveContext p e.a0 e.a1 e.a2).2.1 = 0 →
      ∃ u, exec (.ctxSave n q) s = .next u ∧ u = (s.saveContext p e.a0 e.a1 e.a2).1.post n q 0 (s.saveContext p e.a0 e.a1 e.a2).2.2 ∧
        u.loadLE e.a0 4 = 0x58435A4B ∧ u.loadLE (e.a0 + 4) 1 = 1 ∧ u.seqs = s.seqs) ∧
    (e.opcode = 7 → (s.restoreContext p e.a0).2 = 0 →
      ∃ u, exec (.ctxRestore n q) s = .next u ∧ u = (s.restoreContext p e.a0).1.post n q 0 0 ∧
        (∀ i, i < 12 → (u.pseq p).reg (4 + i) = leAt (s.load e.a0 224) (128 + 8 * i) 8) ∧ u.mem = s.mem))

/-- R322, R323, R325 to R327, R339, R390: an interrupt timer that has run out signals the ring's vector; a window access within
one open line, through BAR2 or over CXL.mem, reads or writes stack memory; the configuration of BAR2 and of the VFs, which
before the module is ready is answered with Request Retry Status. R321, R322, R328, R394: the link trains to a supported rate; a
function-level reset gives the function's page its reset values, abandons its descriptors, and for PF0 ends SR-IOV and is named
by RESET_CAUSE. R342: the module asks for 8 µs while a queue holds work, for 100 µs in A0 and A1 with none, and for nothing
otherwise. -/
def Obligations.HostLinkEvents : Prop :=
  (∀ (s : State) (n : Nat), n < 9 →
    (∀ q, q < 8 → (s.qp n q).unsignalled ≠ 0 → (s.qp n q).intUs ≠ 0 →
      (s.qp n q).intUs * Config.ticksPerUs ≤ s.now - (s.qp n q).firstTime →
      exec (.interruptTimer n q) s = .next ((s.modQp n q fun y => { y with unsignalled := 0 }).msi n (s.qp n q).vec)) ∧
    (∀ t x len a, s.fw.running ≠ 2 → x < 2 ^ 41 → len ≤ 4096 → 0 < len →
      let z := s.wake.stir
      (z.fn n).tdi = 0 →
      (t = .plain ∧ s.fnOn n = true ∧ (s.fn n).d3 = false ∧ x + len ≤ 2 ^ (z.fn n).barLog ∧ a = (z.fn n).winBase + x) ∨
        (t = .cxlMem ∧ n = 0 ∧ s.host.mode ≠ 0 ∧ s.host.hdm ≠ none ∧ x + len ≤ Config.stackTop ∧ a = x) →
      z.windowShut = false → a % 128 + len ≤ 128 → z.windowClosed n a = false → z.inNoise a = false → z.lineCode a = 0 →
      exec (.bar2Read n x len t) s = .next ((z.delivered [a] true).deliver [0, z.loadLE a len]) ∧
      ∀ data : List Byte, data.length = len →
        ∃ u, exec (.bar2Write n x data t) s = .next u ∧ u.load a len = data ∧
          (∀ b, b < a ∨ a + len ≤ b → memByte u.mem b = memByte s.mem b) ∧
          u = { z with mem := u.mem, poison := u.poison, memc := u.memc, parts := u.parts }) ∧
    (let z := { s.wake with host := { s.wake.host with retry := false } }
     let sized := fun (b : Nat) (x : Fn) => if x.barLog = b then x else { x with barLog := b, winBase := 0 }
     (∀ b, s.pins.ready = true → 32 ≤ b → b ≤ 41 →
       exec (.configurationAccess (.bar2Size 0 b)) s = .next (z.modFn 0 (sized b)) ∧
       (n ≠ 0 → (∀ i, i < 8 → z.tdiClosed (i + 1) = false) → exec (.configurationAccess (.bar2Size n b)) s =
         .next (z.each (upTo 8) fun i x => x.modFn (i + 1) (sized b)))) ∧
     (∀ k, s.pins.ready = true → s.host.numVf ≤ k → k ≤ 8 →
       exec (.configurationAccess (.numVfs k)) s = .next { z with host := { z.host with numVf := k } }) ∧
     (∀ c, s.pins.ready = false → cfgOk c = true →
       exec (.configurationAccess c) s = .next { s with host := { s.host with retry := true } }))) ∧
  (∀ (s : State),
    (∀ speed width, linkOk s.host.mode speed width = true → s.pins.refclk = true → s.host.speed ≤ speed → s.host.width ≤ width →
      exec (.linkRetrain speed width) s = .next { s with host := { s.host with speed := speed, width := width } }) ∧
    (∀ n, n < 9 → s.vfOn n = true → (s.part (n - 1)).tiles = 0 → (s.fn n).tdi = 0 →
      ∃ u, exec (.vfFunctionLevelReset n) s = .next u ∧
        u.fn n = { s.fn n with
          queues := [], winBase := 0, partChange := false, accessErr := false, errorRecord := false, adminDone := false, errCode := 0
          latch := [] } ∧
        (∀ k, k ≠ n → u.fn k = s.fn k) ∧ u = { s with host := u.host, pwr := u.pwr }) ∧
    ∃ u, exec .pf0FunctionLevelReset s = .next u ∧ u.host.numVf = 0 ∧ u.host.latTol = 0xFFFFFFFF ∧ u.ras.cause = 9 ∧
      (∀ q, q < 8 → (u.qp 0 q).desc = none ∧ (u.qp 0 q).enable = false)) ∧
  (∀ s : State,
    (s.queueBusy = true → s.ltr = { s.stir with host := { s.host with
      ltrValue := (Config.ltrEncoding 8).1, ltrScale := (Config.ltrEncoding 8).2, ltrReq := true } }) ∧
    (s.queueBusy = false → s.pwr.state ≤ 1 → s.ltr = { s with host := { s.host with
      ltrValue := (Config.ltrEncoding 100).1, ltrScale := (Config.ltrEncoding 100).2, ltrReq := true } }) ∧
    (s.queueBusy = false → 2 ≤ s.pwr.state → s.ltr.host.ltrReq = false))

/-! ### Registers -/

/-- R427: a write clears each counter field it covers and writes zero to, and leaves every other field; a 32-bit write covers
only its half. Each write wakes the module first (R371). -/
def Obligations.CounterWrites : Prop :=
  ∀ (s : State) (v : Word),
    let z := s.wake
    (∀ k, k < 12 →
      exec (.counterStackCountWrite k .whole v) s = .next (z.modStk k fun x => { x with
        corrected := if v.toNat % 2 ^ 32 = 0 then 0 else x.corrected
        uncorrectable := if v.toNat / 2 ^ 32 % 2 ^ 16 = 0 then 0 else x.uncorrectable
        spared := if v.toNat / 2 ^ 48 = 0 then 0 else x.spared }) ∧
      exec (.counterStackCountWrite k .low v) s = .next (z.modStk k fun x => { x with
        corrected := if v.toNat % 2 ^ 32 = 0 then 0 else x.corrected }) ∧
      exec (.counterStackCountWrite k .high v) s = .next (z.modStk k fun x => { x with
        uncorrectable := if v.toNat % 2 ^ 16 = 0 then 0 else x.uncorrectable
        spared := if v.toNat / 2 ^ 16 % 2 ^ 16 = 0 then 0 else x.spared })) ∧
    (∀ d, d < 2 →
      exec (.counterCacheStatusWrite d .whole v) s = .next (z.modCache d fun x => { x with
        corrected := if v.toNat % 2 ^ 32 = 0 then 0 else x.corrected
        uncorrectable := if v.toNat / 2 ^ 32 % 2 ^ 16 = 0 then 0 else x.uncorrectable }) ∧
      exec (.counterCacheStatusWrite d .low v) s = .next (z.modCache d fun x => { x with
        corrected := if v.toNat % 2 ^ 32 = 0 then 0 else x.corrected }) ∧
      exec (.counterCacheStatusWrite d .high v) s = .next (z.modCache d fun x => { x with
        uncorrectable := if v.toNat % 2 ^ 16 = 0 then 0 else x.uncorrectable })) ∧
    (∀ n, n < 8 →
      exec (.counterPortCountWrite n .whole v) s = .next (z.modPort n fun x => { x with
        fecCorrected := if v.toNat % 2 ^ 32 = 0 then 0 else x.fecCorrected
        replays := if v.toNat / 2 ^ 32 % 2 ^ 16 = 0 then 0 else x.replays
        uncorrectable := if v.toNat / 2 ^ 48 = 0 then 0 else x.uncorrectable }) ∧
      exec (.counterPortCountWrite n .low v) s = .next (z.modPort n fun x => { x with
        fecCorrected := if v.toNat % 2 ^ 32 = 0 then 0 else x.fecCorrected }) ∧
      exec (.counterPortCountWrite n .high v) s = .next (z.modPort n fun x => { x with
        replays := if v.toNat % 2 ^ 16 = 0 then 0 else x.replays
        uncorrectable := if v.toNat / 2 ^ 16 % 2 ^ 16 = 0 then 0 else x.uncorrectable }))

/-- R329, R371, R398: a PF0 read of a 64-bit register wakes the module and delivers its word; its low half latches the high
half, which the next read of the high half delivers whatever the register holds by then; a misaligned access, or one of another
size, records REG_ACCESS and reads zero or writes nothing. REPLAY_BASE stands for a register that keeps what the runtime
firmware writes; PF0 writes no sequencer register (R117). Without a running firmware bank no access of a function is served. -/
def Obligations.RegisterAccesses : Prop :=
  ∀ (s : State) (a : Nat), a < 2 ^ 41 →
    let z := s.wake
    (∀ size v, size ≤ 64 → s.fw.running = 2 → exec (.registerRead 0 a size .plain) s = .next s ∧
      exec (.registerWrite 0 a size v .plain) s = .next s) ∧
    (s.fw.running ≠ 2 → (s.fn 0).d3 = false → (s.fn 0).tdi = 0 →
      (a % 8 = 0 → ¬ (0x1000000 ≤ a ∧ a < 0x1400000) →
        exec (.registerRead 0 a 8 .plain) s = .next (z.deliver [z.regWord a])) ∧
      (a % 8 = 0 → ¬ (0x1000000 ≤ a ∧ a < 0x1400000) → latches a = true →
        exec (.registerRead 0 a 4 .plain) s = .next ((z.modFn 0 fun x => { x with
          latch := smSet 0 x.latch (a + 4) (z.regWord a / 2 ^ 32 + 1) }).deliver [z.regWord a % 2 ^ 32])) ∧
      (∀ w, a % 8 = 4 → smGet 0 (z.fn 0).latch a = w + 1 →
        exec (.registerRead 0 a 4 .plain) s = .next ((z.modFn 0 fun x => { x with latch := smSet 0 x.latch a 0 }).deliver [w])) ∧
      (∀ size, size ≤ 64 → accessOk a size = false →
        exec (.registerRead 0 a size .plain) s = .next ((z.regAccess 0 (a / 2 ^ 20)).deliver [0]) ∧
        ∀ v, exec (.registerWrite 0 a size v .plain) s = .next (z.regAccess 0 (a / 2 ^ 20))) ∧
      (∀ q v, q < 8 → z.isolatedAt (0x300020 + 0x10000 * q) = none →
        exec (.registerWrite byFirmware (0x300020 + 0x10000 * q) 8 v .plain) s =
          .next (z.modSeq q fun x => { x with replayBase := v.toNat }) ∧
        exec (.registerWrite 0 (0x300020 + 0x10000 * q) 8 v .plain) s = .next z))

/-! ### Management and security -/

/-- R343, R344, R393, R398: every management request is answered while core 0 runs, with the values its table gives; an update
writes the bank that is not running, and an activation with no package loaded restarts the firmware on the bank newly written,
or on the one the boot loader selects; the vendor commands read and write registers and pass a change of owner or a scrub on. -/
def Obligations.ManagementRequests : Prop :=
  ∀ (s : State), (s.core 0).state = 0 →
    (∀ eid, eid < 256 → ∃ u, exec (.setEndpointId eid) s = .next u ∧ u.sec.eid = eid ∧ u = { s with sec := u.sec } ∧
      exec .getEndpointId u =
        .next (u.mgmtAddress.2.respond "GET_ENDPOINT_ID" 0 [eid, if s.pins.mgmtSel then 1 else 0, u.mgmtAddress.1] []) ∧
      (s.pins.mgmtSel = true → u.mgmtAddress = (0x60 + s.pins.addrStrap % 4, u))) ∧
    exec .getMctpVersionSupport s = .next (s.respond "GET_MCTP_VERSION_SUPPORT" 0 [1, 3] []) ∧
    exec .getMessageTypeSupport s = .next (s.respond "GET_MESSAGE_TYPE_SUPPORT" 0 [0x00, 0x01, 0x05, 0x7E] []) ∧
    exec .getEndpointUuid s = .next (s.respond "GET_ENDPOINT_UUID" 0 [Config.endpointUuid % 2 ^ 128] []) ∧
    (∀ cmd, cmd < 256 → ∃ v, exec (.pldmBase cmd) s =
      .next (({ s with free := s.free + 1 } : State).respond "PLDM_BASE" 0 [cmd, v] [])) ∧
    (∀ i, i < 8 → exec (.pldmMonitoringAndControl true i) s = .next (s.respond "PLDM_SENSOR" 0 [i, (s.part i).state] [])) ∧
    (∀ k, k < 12 → exec (.pldmMonitoringAndControl false (3 + k)) s =
      .next (s.respond "PLDM_SENSOR" 0 [3 + k, tempBits (smGet 0 s.pwr.tempStack k)] [])) ∧
    exec (.pldmMonitoringAndControl false 18) s = .next (s.respond "PLDM_SENSOR" 0 [18, s.pwr.freq] []) ∧
    exec (.pldmMonitoringAndControl false 19) s = .next (s.respond "PLDM_SENSOR" 0 [19, s.capacityUnits] []) ∧
    exec .pldmFru s = .next (s.respond "PLDM_FRU" 0 [s.pins.order, s.pins.build, s.pins.serial] []) ∧
    (∀ bank, fwBankOk bank = true → s.pins.pwrGood = true → s.fw.writing = none →
      let t := s.updateTarget
      (s.fw.running < 2 → t = 1 - s.fw.running) ∧
      (∃ u, exec (.pldmFirmwareUpdate bank .ok) s = .next u ∧ u.fw.slot t = bank ∧ u.fw.slot (1 - t) = s.fw.slot (1 - t) ∧
        u.fw.written = some t ∧ u.fw.running = s.fw.running ∧ u.fw.writing = none) ∧
      (∃ u, exec (.pldmFirmwareUpdate bank .failed) s = .next u ∧ u.fw.slot t = {} ∧ u.fw.slot (1 - t) = s.fw.slot (1 - t) ∧
        u.fw.written ≠ some t ∧ u.fw.running = s.fw.running) ∧
      ∃ u, exec (.pldmFirmwareUpdate bank .running) s = .next u ∧ u.fw.slot t = {} ∧ u.fw.slot (1 - t) = s.fw.slot (1 - t) ∧
        u.fw.writing = some (t, bank)) ∧
    (∀ ok, (∀ p, p < 8 → (s.part p).pkgs = []) → s.fw.writing = none →
      let t := s.fw.written.getD (s.selectBank false)
      let runs := t < 2 ∧ s.bankOk (s.fw.slot t) = true ∧ ok = true
      ∃ u, exec (.firmwareActivation ok) s = .next u ∧ (runs → u.fw.running = t) ∧ (¬ runs → u.fw.running = s.fw.running) ∧
        u.ras.cause = 8 ∧ u.fw.written = none ∧ u.sec.sessions = [] ∧ u.sec.ideKeys = [] ∧ u.mem = s.mem ∧ u.img = s.img) ∧
    (∀ a, a < 2 ^ 32 → accessOk a (vendorSize a) = true → exec (.regRead a) s =
      .next ((s.readReg byMgmt a (vendorSize a)).1.respond "REG_READ" 0 [(s.readReg byMgmt a (vendorSize a)).2] [])) ∧
    (∀ a v, a < 2 ^ 32 → accessOk a (vendorSize a) = true → (a / 0x100000 = 2 ∨ a / 0x100000 = 7) → exec (.regWrite a v) s =
      .next (((s.fwWake a).storeReg byMgmt a (vendorSize a) v.toNat).respond "REG_WRITE" 0 [] [])) ∧
    (∀ samples, samplesOk samples = true →
      (s.scrubbing = false → s.pins.pwrGood = true →
        (∃ u, exec (.ownerChange ⟨true, samples⟩) s = .next u ∧ u.owner.pending = true ∧ u.owner.change = true ∧
          u.sec.out.getLast? = some { kind := "OWNER_CHANGE" }) ∧
        (∃ u, exec (.ownerScrub ⟨true, samples⟩) s = .next u ∧ u.owner.pending = true ∧ u.owner.change = false ∧
          u.sec.out.getLast? = some { kind := "OWNER_SCRUB" })) ∧
      (s.scrubbing = true → ∃ code, code ≠ 0 ∧ exec (.ownerChange ⟨true, samples⟩) s =
        .next (({ s with free := s.free + 1 } : State).respond "OWNER_CHANGE" code [] [])))

/-- R346 to R351: the requests without a session are answered, a signed one with the engine's code while the engine serves none
and with PK_MISMATCH where its two evaluations disagree; a key exchange opens the lowest free session of its transport, FINISH
establishes it, and a heartbeat, a key update, an IDE key and the end of a session act on that session alone. -/
def Obligations.SpdmRequests : Prop :=
  ∀ (s : State) (m : Bool), s.scrubbing = false →
    let drbg := s.sec.secOk = true ∧ s.sec.sourceOk = true
    let x := s.drbgRequest false 32
    let y := x.2.drbgRequest false 48
    let sign := fun (req : Nat) (vals : List Nat) (data : List Byte) =>
      data ++ x.1 ++ signBytes s.sec.aliasKey (Config.scalarOf y.1) (Config.transcript req vals (data ++ x.1))
    exec (.getVersion m) s =
      .next ((s.modSec fun c => { c with spdmVersion := 0 }).respond "VERSION" 0 [0x12, 0x13] []) ∧
    exec (.getCapabilities m) s = .next (s.respond "CAPABILITIES" 0 [1, 1, 1, 1, 1, 1, 1, 1, 1, 0, 0] []) ∧
    (∀ o : AlgOffer, o.version < 256 → 0x12 ≤ o.version →
      let v := if o.version = 0x12 then 0x12 else 0x13
      exec (.negotiateAlgorithms m o) s = .next ((s.modSec fun c => { c with spdmVersion := v }).respond "ALGORITHMS" 0
        [v, if o.sha384 then 1 else 0, if o.ecdsa then 1 else 0, if o.aesGcm then 1 else 0,
          if o.p384 then 2 else if o.p256 then 1 else 0] [])) ∧
    (∀ o l, o < 2 ^ 16 → l < 2 ^ 16 → exec (.getCertificate m 0 o l) s =
      .next (s.respond "CERTIFICATE" 0 [o, l] (((Config.certificateChain s.sec.identityKey s.sec.aliasKey s.fw.digests).drop o).take l))) ∧
    (∀ n, n < 2 ^ 256 → s.sec.engineCode = 0 → drbg →
      exec (.challenge ⟨m, false⟩ 0 n) s = .next (y.2.respond "CHALLENGE_AUTH" 0 [n] (sign 0x83 [n] [])) ∧
      (∀ i, 1 ≤ i → i ≤ 9 → exec (.getMeasurements ⟨m, false⟩ i n) s =
        .next (y.2.respond "MEASUREMENTS" 0 [9, i, n] (sign 0xE0 [9, i, n] (s.measurement i)))) ∧
      ∃ u, exec (.challenge ⟨m, true⟩ 0 n) s = .next u ∧ u.sec.mismatches = min 3 (s.sec.mismatches + 1) ∧
        u.sec.out.getLast? = some { kind := "ERROR", code := cPkMismatch }) ∧
    (∀ n, n < 2 ^ 256 → s.sec.engineCode ≠ 0 → exec (.challenge ⟨m, false⟩ 0 n) s = .next (s.respond "ERROR" s.sec.engineCode [] [])) ∧
    (∀ curve i, (curve = 1 ∨ curve = 2) → s.sec.engineCode = 0 → (upTo 4).find? (fun j => (s.sec.session m j).isNone) = some i → drbg →
      ∃ u key, exec (.keyExchange ⟨m, false⟩ curve) s = .next u ∧
        u.sec.sessions = s.sec.sessions ++ [{ sid := i, doe := m, lastBeat := s.now, secret := key }] ∧
        key = Config.scalarOf (s.drbgRequest false 48).1 ∧ u = { s with sec := u.sec, free := u.free }) ∧
    (∀ sid x, sid < 4 → s.sec.session m sid = some x →
      (x.established = false → ∃ u, exec (.finish m sid) s = .next u ∧
        (∃ y, u.sec.session m sid = some y ∧ y.established = true ∧ y.lastBeat = s.now) ∧
        (∀ d j, (d ≠ m ∨ j ≠ sid) → u.sec.session d j = s.sec.session d j)) ∧
      (x.established = true →
        (∃ u, exec (.heartbeat m sid) s = .next u ∧ (∃ y, u.sec.session m sid = some y ∧ y.lastBeat = s.now) ∧
          ∀ d j, (d ≠ m ∨ j ≠ sid) → u.sec.session d j = s.sec.session d j) ∧
        (drbg → ∃ u, exec (.keyUpdate m sid) s = .next u ∧
          u.sec.session m sid = some { x with secret := Config.scalarOf (s.drbgRequest false 48).1 } ∧
          ∀ d j, (d ≠ m ∨ j ≠ sid) → u.sec.session d j = s.sec.session d j) ∧
        (∃ u, exec (.endSession m sid) s = .next u ∧ u.sec.session m sid = none ∧
          ∀ d j, (d ≠ m ∨ j ≠ sid) → u.sec.session d j = s.sec.session d j) ∧
        (3000000000 ≤ s.now - x.lastBeat → ∃ u, exec (.heartbeatTimeout m sid) s = .next u ∧ u.sec.session m sid = none ∧
          u = { s with sec := u.sec }) ∧
        (∀ (n key : Nat) (b : Bool), m = true → n < 9 → key < 2 ^ 256 → (n = 0 ∨ s.vfOn n = true) →
          let i := 2 * n + if b then 1 else 0
          (drbg → ∃ u, exec (.ideKm sid n ⟨key, b, .program, false⟩) s = .next u ∧ smGet 0 u.sec.ideKeys i = key + 1 ∧
            (∀ j, j ≠ i → smGet 0 u.sec.ideKeys j = smGet 0 s.sec.ideKeys j) ∧ u.host = s.host) ∧
          (smGet 0 s.sec.ideKeys i ≠ 0 → ∃ u, exec (.ideKm sid n ⟨key, b, .go, false⟩) s = .next u ∧
            (u.fn n).ideSecure = true ∧ smGet 0 u.sec.ideUse n = (if b then 2 else 1) ∧ u.sec.ideKeys = s.sec.ideKeys) ∧
          ∃ u, exec (.ideKm sid n ⟨key, b, .stop, false⟩) s = .next u ∧ (u.fn n).ideSecure = false ∧
            smGet 0 u.sec.ideKeys i = 0 ∧ smGet 0 u.sec.ideUse n = 0)))

/-- R352, R353: inside an established session on DOE, an unlocked TDI whose stream is Secure and whose partition is up locks, a
locked one runs, and a stop returns it to UNLOCKED with its function page at reset values; a locked TDI whose partition is torn
down enters ERROR. -/
def Obligations.TdiStates : Prop :=
  ∀ (s : State) (sid n : Nat) (x : Session), sid < 4 → n < 9 → s.scrubbing = false → s.sec.session true sid = some x →
    x.established = true → s.host.mode = 0 → s.vfOn n = true →
    ((s.fn n).tdi = 0 → (s.fn n).ideSecure = true → s.isUp (n - 1) = true → exec (.lockInterfaceRequest sid n) s =
      .next ((s.modFn n fun y => { y with tdi := 1 }).respond "LOCK_INTERFACE_RESPONSE" 0 [n] [])) ∧
    (((s.fn n).tdi ≠ 0 ∨ (s.fn n).ideSecure = false ∨ s.isUp (n - 1) = false) → exec (.lockInterfaceRequest sid n) s =
      .next (s.respond "TDISP_ERROR" 0 [n] [])) ∧
    ((s.fn n).tdi = 1 → exec (.startInterfaceRequest sid n) s =
      .next ((s.modFn n fun y => { y with tdi := 2 }).respond "START_INTERFACE_RESPONSE" 0 [n] [])) ∧
    ((s.fn n).tdi ≠ 0 → ∃ u, exec (.stopInterfaceRequest sid n) s = .next u ∧
      u.fn n = { u.fn n with
        queues := [], winBase := 0, partChange := false, accessErr := false, errorRecord := false, adminDone := false, errCode := 0
        tdi := 0, latch := [] } ∧
      (u.fn n).barLog = (s.fn n).barLog ∧ (u.fn n).ideSecure = (s.fn n).ideSecure) ∧
    (((s.fn n).tdi = 1 ∨ (s.fn n).tdi = 2) → ∀ code, ((s.tearStart (n - 1) code).fn n).tdi = 3)

/-- R357 to R361, R365, R366: a request whose fields fail decode completes at once with PK_REQUEST; one the engine takes runs
for its fixed time, which depends on the operation and the operand length alone; one that arrives while the wipe runs waits for
its end. -/
def Obligations.PublicKeyRequests : Prop :=
  ∀ (s : State) (r : PkReq), pkOk r = true → s.sec.pkBusy = false → s.fw.running ≠ 2 →
    let asked := fun (op : Nat) => s.wake.modSec fun c => { c with
      pkOp := op, pkSlot := r.slot, pkCurve := r.curve, pkEcdh := r.ecdhKey, pkRsaLen := r.rsaLen }
    let start := fun (op curve : Nat) => (asked op).modSec fun c => { c with
      pkBusy := true, running := some { since := s.now, curve := curve, cycles := pkCycles op curve r.rsaLen } }
    let u := smGet {} s.sec.users r.slot
    (s.sec.wiping = false →
      (pkBad 1 r = false → s.sec.engineCode = 0 → exec (.ecdsaVerify r) s = .next (start 1 r.curve)) ∧
      (pkBad 4 r = false → s.sec.engineCode = 0 → exec (.gen r) s = .next (start 4 r.curve)) ∧
      (u.full = true → (u.curve = 1 ∨ u.curve = 2) → s.sec.engineCode = 0 →
        (pkBad 2 r = false → exec (.ecdsaSign r) s = .next (start 2 u.curve)) ∧
        (pkBad 3 r = false → exec (.ecdh r) s = .next (start 3 u.curve)) ∧
        (pkBad 5 r = false → exec (.readPublic r) s = .next (start 5 u.curve))) ∧
      (pkBad 6 r = false → s.sec.engineCode = 0 → ∃ curve, exec (.rsaVerify r) s = .next (start 6 curve)) ∧
      (pkBad 1 r = true → ∃ v, exec (.ecdsaVerify r) s = .next v ∧ v.sec.pkDone = true ∧ v.sec.pkErr = cPkRequest ∧
        v.sec.pkBusy = false ∧ v.sec.pkBuf = s.sec.pkBuf)) ∧
    (s.sec.wiping = true → exec (.ecdsaVerify r) s =
      .next ((asked 1).modSec fun c => { c with pkBusy := true, heldPk := some (1, r) }))

/-- R356 to R366: an operation completes after its fixed time with what its inputs give; a generation fills its slot with a key
whose scalar lies in range; engines that disagree give PK_MISMATCH, and the third time disable the engine; the microcode check
disables the engine; an installation puts a point of P-384 where no owner key is, and waits while a scrub or an operation of the
engine is under way; a sample enters the entropy tests. -/
def Obligations.SecurityEvents : Prop :=
  ∀ (s : State),
    (∀ z, s.sec.running = some z → pkTicks z.cycles ≤ s.now - z.since →
      (s.sec.heldInstall = false → s.sec.pkOp ≠ 2 → s.sec.pkOp ≠ 4 → (s.sec.compute z 0).1 = 0 →
        ∃ u, exec (.pkOperationDone false) s = .next u ∧
          u.sec = { s.sec with pkDone := true, pkErr := 0, pkBusy := false, running := none
                               pkBuf := memWrite s.sec.pkBuf 0 (s.sec.compute z 0).2 }) ∧
      (s.sec.pkOp = 4 → s.sec.slotOk 4 = true → s.sec.secOk = true → s.sec.sourceOk = true →
        let k := curveOf z.curve
        let d := Config.scalarOf (s.drbgRequest false k.len).1 % (k.n - 1) + 1
        1 ≤ d ∧ d ≤ k.n - 1 ∧ ∃ u, exec (.pkOperationDone false) s = .next u ∧
          smGet {} u.sec.users s.sec.pkSlot = { full := true, ecdh := s.sec.pkEcdh, curve := z.curve, d := d
                                                x := (ecPublic k d).1, y := (ecPublic k d).2 } ∧
          u.sec.pkErr = 0 ∧ u.sec.pkDone = true) ∧
      (∃ u, exec (.pkOperationDone true) s = .next u ∧ u.sec.pkErr = cPkMismatch ∧ u.sec.pkDone = true ∧ u.sec.pkBusy = false ∧
        u.sec.users = s.sec.users ∧ u.sec.mismatches = min 3 (s.sec.mismatches + 1) ∧
        (2 ≤ s.sec.mismatches → u.sec.pkReady = false))) ∧
    exec (.microcodeCheck true) s = .next s ∧
    (∃ u, exec (.microcodeCheck false) s = .next u ∧ u.sec.microcodeBad = true ∧ u.sec.pkReady = false) ∧
    (s.fw.running ≠ 2 → s.scrubbing = false → s.sec.running = none → s.sec.installCode = 0 → ∃ u, exec .installOwner s = .next u ∧
      u.sec.ownerKey = some (ofBytesBE (memBytes s.sec.ownerBuf 0 48), ofBytesBE (memBytes s.sec.ownerBuf 48 48)) ∧
      u.sec.done = true ∧ u.sec.errCode = 0) ∧
    (∀ k, s.fw.running ≠ 2 → s.scrubbing = false → s.sec.running = none → s.sec.engineCode = 0 → s.sec.ownerKey = some k →
      ∃ u, exec .installOwner s = .next u ∧ u.sec.ownerKey = some k ∧ u.sec.errCode = cOwnerKeyPresent) ∧
    (s.fw.running ≠ 2 → (s.scrubbing = true ∨ s.sec.running ≠ none) →
      exec .installOwner s = .next (s.wake.modSec fun c => { c with heldInstall := true })) ∧
    (∀ v, v < 256 → s.sec.sourceOk = true →
      (s.sec.lastSample ≠ v → s.sec.aptLength = 512 → exec (.entropySample v) s = .next (s.modSec fun c => { c with
        lastSample := v, repeats := 1, aptFirst := v, aptSame := 1, aptLength := 1 })) ∧
      (s.sec.lastSample ≠ v → 1 ≤ s.sec.aptLength → s.sec.aptLength < 512 → s.sec.aptSame < 61 → exec (.entropySample v) s =
        .next (s.modSec fun c => { c with
          lastSample := v, repeats := 1, aptSame := s.sec.aptSame + (if v = s.sec.aptFirst then 1 else 0)
          aptLength := s.sec.aptLength + 1 })) ∧
      ((s.sec.lastSample = v ∧ 5 ≤ s.sec.repeats) ∨
          (s.sec.aptFirst = v ∧ 61 ≤ s.sec.aptSame ∧ 1 ≤ s.sec.aptLength ∧ s.sec.aptLength < 512) →
        ∃ u, exec (.entropySample v) s = .next u ∧ u.sec.testFails = satInc 16 s.sec.testFails ∧ u.sec.repeats = 0 ∧
          u.sec.aptLength = 0))

/-! ### Power, resets, self-test -/

/-- R370 to R374, R376: the module enters the deepest state it is eligible for and leaves it when woken, its FROG ports ACTIVE
again with full credits; a write of BANK_SLEEP moves every bank without a receive ring, a drained bank powers off and loses its
rows, and a woken one reads zero with VALID = 0; a change of frequency ends at its target. -/
def Obligations.PowerStates : Prop :=
  ∀ (s : State),
    (s.pwr.exiting = false →
      (s.deepest = 1 → s.pwr.state = 0 → exec .enterA1 s = .next (s.modPwr fun x => { x with state := 1 }).ltr) ∧
      (s.deepest = 2 → s.pwr.state < 2 → ∃ u, exec .enterLizard s = .next u ∧ 
        u.pwr = { s.pwr with state := 2, changing := none, frozen := false } ∧
        (∀ n, n < 8 → u.port n = { s.port n with frogAsked := (s.port n).frogAsked || (s.port n).state == 2 })) ∧
      (s.deepest = 3 → s.pwr.state < 3 → ∃ u, exec .enterDeepLizard s = .next u ∧ 
        u.pwr = { s.pwr with state := 3, changing := none, frozen := false } ∧
        (∀ e ∈ s.memc.cached, smGet false u.memc.cached (lineOf e.1) = false ∧ smGet false u.memc.dirty (lineOf e.1) = false) ∧
        u.mem = s.mem)) ∧
    (1 ≤ s.pwr.state → s.pwr.state ≤ 3 → exec .powerStateExit s = .next (s.modPwr fun x => { x with exiting := true })) ∧
    (s.pwr.exiting = true → ∃ u, exec .powerStateExitDone s = .next u ∧ u.pwr.state = 0 ∧ u.pwr.exiting = false ∧
      (s.locked = false → (∀ n, n < 8 → (s.port n).state = 3 → (s.port n).laneFailed = 0) →
        (∀ n, n < 8 → (s.port n).state = 3 → u.port n = { s.port n with
          state := 2, frogAsked := false, leaving := false, credits := fullCredits, owed := [] }) ∧
        (∀ n, n < 8 → (s.port n).state ≠ 3 → u.port n = { s.port n with frogAsked := false }) ∧
        u = { s with pwr := u.pwr, fab := u.fab, host := u.host })) ∧
    (∀ t v, t < 64 → ∃ u, exec (.bankSleepWrite t v) s = .next u ∧
      (∀ b, b < 24 → let want := bit v.toNat b && !(s.ringBanks t).contains b
        bit (u.tile t).sleep b = want ∧ smGet 0 (u.tile t).banks b = bankNext (smGet 0 (s.tile t).banks b) want) ∧
      (∀ j, j ≠ t → u.tile j = s.tile j) ∧ (u.tile t).spad = (s.tile t).spad ∧ u = { s with tiles := u.tiles }) ∧
    (∀ t b, t < 64 → b < 24 →
      (smGet 0 (s.tile t).banks b = 1 → s.bankWriteCount t b = 0 → ∃ u, exec (.bankPowerOff t b) s = .next u ∧
        (u.tile t).banks = smSet 0 (s.tile t).banks b 2 ∧ u = { s with tiles := u.tiles } ∧
        (∀ a, memByte (u.tile t).spad a = if a / 128 / 2048 = b then 0#8 else memByte (s.tile t).spad a) ∧
        (∀ r, u.tag t r = if r / 2048 = b then {} else s.tag t r)) ∧
      (smGet 0 (s.tile t).banks b = 3 → ∃ u, exec (.bankWakeDone t b) s = .next u ∧
        smGet 0 (u.tile t).banks b = (if bit (s.tile t).sleep b then 1 else 0) ∧
        (∀ a, memByte (u.tile t).spad a = if a / 128 / 2048 = b then 0#8 else memByte (s.tile t).spad a) ∧
        (∀ r, u.tag t r = if r / 2048 = b then {} else s.tag t r))) ∧
    (s.pwr.changing = none → s.pwr.state < 2 → s.targetFreq ≠ s.pwr.freq → exec .frequencyChange s =
      .next (s.modPwr fun x => { x with
        changing := some s.targetFreq, changeAt := s.now, frozen := decide (s.targetFreq < x.freq) })) ∧
    (∀ f, s.pwr.changing = some f → ∃ u, exec .frequencyChangeEnd s = .next u ∧ u.pwr.freq = f ∧
      u.pwr.nDie0 = dutyOf f s.pwr.c0 ∧ u.pwr.nDie1 = dutyOf f s.pwr.c1 ∧
      (s.locked = false → u = { s with pwr := u.pwr, fab := u.fab }))

/-- R377 to R383: the duty in force is the larger of the thermal and the cap duty; a sample whose mean passes the cap sets the
least cap duty that keeps the estimate under it, with one record; a millisecond under the cap raises the ceiling by a step; a
hot die falls by four steps at the crossing and two after; a trip, at its trip point only, fails every partition and loses what
the stacks held; the ageing trim rises with an entry of its log. -/
def Obligations.PowerControl : Prop :=
  (∀ fixed dynamic cap n, n = capDuty fixed dynamic cap → n < 63 →
    64 * fixed + dynamic * (64 - n) ≤ 64 * cap ∧ ∀ m, m < n → 64 * cap < 64 * fixed + dynamic * (64 - m)) ∧
  ∀ (s : State),
    (∃ u, exec .dutyWindow s = .next u ∧ smGet 0 u.pwr.dutyFrozen 0 = max s.pwr.nDie0 s.pwr.nCap ∧
      smGet 0 u.pwr.dutyFrozen 1 = max s.pwr.nDie1 s.pwr.nCap ∧
      (∀ q k, (s.seq q).kern = some k → (u.seq q).kern = some { k with windowAt := (s.seq q).count }) ∧
      u = { s with pwr := u.pwr, seqs := u.seqs }) ∧
    (∀ a b i, a + b < 2 ^ 16 → i < 2 ^ 16 →
      let l := ((a + b) :: s.pwr.estimates).take 4
      (l.sum ≤ 4 * s.pwr.cap → ∃ u, exec (.powerSample a b i) s = .next u ∧ u = { s with pwr := u.pwr } ∧
        u.pwr.sampleW = a + b ∧ u.pwr.meanW = l.sum / 4 ∧ u.pwr.inputW = i ∧ u.pwr.nCap = s.pwr.nCap) ∧
      (4 * s.pwr.cap < l.sum → s.pwr.capHeld = false → ∃ u, exec (.powerSample a b i) s = .next u ∧
        u.pwr.nCap = capDuty a b s.pwr.cap ∧ u.pwr.cp = max 32 (s.pwr.freq - 1)) ∧
      (s.pwr.capHeld = true → ∃ u, exec (.capRecompute a b) s = .next u ∧ u.pwr.nCap = capDuty a b s.pwr.cap ∧
        (u.pwr.capHeld = true ↔ capDuty a b s.pwr.cap ≠ 0))) ∧
    (s.pwr.msStart + ticksPerMs ≤ s.now → s.pwr.msCount ≠ 0 → s.pwr.msSum ≤ (s.pwr.cap - 30) * s.pwr.msCount →
      s.pwr.cp < s.pwr.cmax → ∃ u, exec .capCeilingRaise s = .next u ∧ u.pwr.cp = s.pwr.cp + 1 ∧ u.pwr.msCount = 0) ∧
    (∀ d t, tempsOk d t = true → tempsReach s.pwr.policy t 0 = true →
      let c := fun (x : State) => if d = 0 then x.pwr.c0 else x.pwr.c1
      (smGet false s.pwr.hot d = false → ∃ u, exec (.thermalThrottle d t) s = .next u ∧ c u = max 32 (c s - 4) ∧
        smGet false u.pwr.hot d = true ∧ smGet 0 u.pwr.tempDie d = t.die) ∧
      (smGet false s.pwr.hot d = true →
        ∃ u, exec (.thermalStep d t) s = .next u ∧ c u = max 32 (c s - 2) ∧ smGet false u.pwr.hot d = true)) ∧
    (∀ stack index temp, index < (if stack = true then 12 else 2) → -32768 ≤ temp → temp < 32768 →
      (temp < tripPoint stack → exec (.trip stack index temp) s = .next s) ∧
      (tripPoint stack ≤ temp → s.pwr.state = 4 → exec (.trip stack index temp) s = .next (s.modPwr fun x => { x with
        tripSource := if stack then 2 else 1, tripIndex := index, tripTemp := temp })) ∧
      (tripPoint stack ≤ temp → s.pwr.state ≠ 4 → ∃ u, exec (.trip stack index temp) s = .next u ∧ u.pwr.state = 4 ∧ u.pins.thermTrip = true ∧ u.mem = [] ∧
        u.pwr.tripSource = (if stack then 2 else 1) ∧ u.pwr.tripIndex = index ∧ u.pwr.tripTemp = temp ∧
        ∀ p, p < 8 → (s.part p).tiles ≠ 0 → (u.part p).state = 4)) ∧
    (∀ cut, s.pwr.half0 < 95 → exec (.ageingTrim ⟨0, cut⟩) s = .next (s.modPwr fun x => { x with
      half0 := s.pwr.half0 + 5, ageLog := x.ageLog ++ [{ trim0 := s.pwr.half0 + 5, trim1 := s.pwr.half1, ok := !cut }] })) ∧
    (∀ cut, s.pwr.half1 < 95 → exec (.ageingTrim ⟨1, cut⟩) s = .next (s.modPwr fun x => { x with
      half1 := s.pwr.half1 + 5, ageLog := x.ageLog ++ [{ trim0 := s.pwr.half0, trim1 := s.pwr.half1 + 5, ok := !cut }] })) ∧
    (∀ v : Word, s.fw.running ≠ 2 → let w := bits v.toNat 15 0
      let z := s.wake
      (w = 0 ∨ (300 ≤ w ∧ w ≤ 1500) → exec (.pwrCtrlWrite v) s =
        .next (z.modPwr fun x => { x with capOvr := w, holdA0 := bit v.toNat 16 })) ∧
      (¬ (w = 0 ∨ (300 ≤ w ∧ w ≤ 1500)) → exec (.pwrCtrlWrite v) s = .next (z.regAccess 0 11)))

/-- R390 to R394, R382, R418 to R420: a cold start and a device reset record their cause and run start-up when the pins let
them; a reset in TRIPPED waits until every sensor is cool; a loss of input empties memory and keeps what flash and fuses hold. -/
def Obligations.DeviceResets : Prop :=
  ∀ (s : State) (i : StartIn), startOk i = true →
    let free := s.pins.perst = false ∧ s.pins.moduleReset = false
    (s.pins.perst = true → ∃ u, exec (.coldStart i) s = .next u ∧ u.ras = { cause := 1 } ∧ u.pins.waiting = some true ∧
      u.pins.ready = false ∧ u.parts = [] ∧ u.tiles = [] ∧ u.now = s.now) ∧
    (free → s.pins.pwrGood = true → s.selectBank i.bankFails ≠ 2 → s.requestRecorded = false →
      ∃ u, exec (.coldStart i) s = .next u ∧ u.ras.cause = 1 ∧ u.pins.ready = true ∧ u.pins.waiting = none ∧ u.mem = [] ∧
        u.fw.running = s.selectBank i.bankFails ∧ u.sec.ownerKey = s.sec.ownerKey) ∧
    (s.pwr.state ≠ 4 →
      (∃ u, exec (.deviceReset .perst i) s = .next u ∧ u.pins.perst = true ∧ u.ras.cause = 2 ∧ u.ras.resets = s.ras.resets + 1 ∧
        u.pins.ready = false ∧ u.parts = [] ∧ u.tiles = []) ∧
      (free → ∃ u, exec (.deviceReset .hotReset i) s = .next u ∧ u.ras.cause = 3 ∧ u.ras.resets = s.ras.resets + 1 ∧
        u.pins.waiting = none)) ∧
    (∀ c, s.pwr.state = 4 → s.mayReset c = true → exec (.deviceReset c i) s =
      .next { s with pins := { s.pins.trigger c with resetHeld := some c } }) ∧
    (s.pins.waiting = none → exec (.perstDeassertion i) s =
      .next { s with pins := { s.pins with perst := false, moduleReset := false } }) ∧
    (∀ full, s.pins.waiting = some full → (s.ras.cause ≠ 1 ∨ s.pins.pwrGood = true) →
      ∃ u, exec (.perstDeassertion i) s = .next u ∧ u.pins.perst = false ∧ u.pins.moduleReset = false ∧ u.pins.waiting = none) ∧
    (∀ c dies stks, s.pins.resetHeld = some c → dies.length = 2 → stks.length = 12 → dies.all tempOk = true →
      stks.all tempOk = true →
      (dies.all (fun (x : Int) => decide (x ≤ 1520)) = true → stks.all (fun (x : Int) => decide (x ≤ 1360)) = true →
        ∃ u, exec (.trippedResetRelease dies stks i) s = .next u ∧ u.pins.resetHeld = none ∧ u.pwr.state = 0 ∧
          u.ras.cause = causeNo c) ∧
      (dies.any (fun (x : Int) => decide (1520 < x)) = true → exec (.trippedResetRelease dies stks i) s = .next s)) ∧
    exec .pwrGoodDeassert s = .next { s with pins := { s.pins with pwrGood := false } } ∧
    (s.pins.waiting = none → exec (.pwrGoodAssert i) s = .next { s with pins := { s.pins with pwrGood := true } }) ∧
    (∃ u, exec .lossOfInput s = .next u ∧ u.mem = [] ∧ u.poison = [] ∧ u.pins.inputOn = false ∧ u.pins.pwrGood = false ∧
      (∀ k, s.isWithdrawn k = true → u.isWithdrawn k = true) ∧ u.img.slotA = s.img.slotA ∧ u.img.slotB = s.img.slotB ∧ u.sec.ownerKey = s.sec.ownerKey ∧
      u.sec.users = s.sec.users ∧ u.owner.record = s.owner.record) ∧
    exec .refclkLoss s = .next { s with pins := { s.pins with refclk := false } } ∧
    exec .refclkReturn s = .next { s with pins := { s.pins with refclk := true } }

/-- R398, R406: a core whose watchdog runs out is restarted by another core, or waits for it, and a second expiry within a
second is a device reset; a restart counts once; the rollback counter follows a bank that has run for a day. -/
def Obligations.ServiceCores : Prop :=
  ∀ (s : State) (i : StartIn), startOk i = true →
    (∀ c, c < 4 →
      ((s.core c).state = 0 → (∀ t, (s.core c).restartedAt = some t → 100000000 ≤ s.now - t) →
        ∃ u, exec (.watchdogExpiry c i) s = .next u ∧
          (u.core c).state = (if (s.core (restarterOf c)).state = 0 then 2 else 1) ∧ (u.core c).restarts = (s.core c).restarts) ∧
      (∀ t, (s.core c).state = 0 → (s.core c).restartedAt = some t → s.now - t < 100000000 → s.pwr.state ≠ 4 →
        ∃ u, exec (.watchdogExpiry c i) s = .next u ∧ u.ras.cause = 5 ∧ u.ras.resets = s.ras.resets + 1) ∧
      ((s.core c).state = 2 → ∃ u, exec (.coreRestartDone c) s = .next u ∧ (u.core c).state = 0 ∧
        (u.core c).restarts = satInc 8 (s.core c).restarts ∧ (u.core c).restartedAt = some s.now ∧
        ∀ d, d < 4 → restarterOf d = c → (s.core d).state = 1 → (u.core d).state = 2)) ∧
    (s.fw.running ≠ 2 → 8640000000000 ≤ s.now - s.fw.since → exec .rollbackCounterRaise s =
      .next { s with fw := { s.fw with fwRollback := max s.fw.fwRollback s.fw.bank.svn } })

/-- R400, R401, R407 to R409: a test whose target and state allow it starts, and ends with its verdict, the units tested at
reset values or zero, or with BIST_ABORTED, which a scrub and TRIPPED refuse; a new record takes slot HEAD, and in a full ring
replaces the oldest unread one, counted as lost; a write of RAS_TAIL inside the unread records marks them read and any other
changes no record. -/
def Obligations.SelfTestAndRecords : Prop :=
  (∀ (r : RasState) (e : ErrRec),
    smGet {} (r.store e).recs r.head = e ∧ (r.store e).head = (r.head + 1) % 1024 ∧
    (r.unread < 1024 → (r.store e).unread = r.unread + 1 ∧ (r.store e).tail = r.tail ∧ (r.store e).lost = r.lost) ∧
    (r.unread = 1024 → (r.store e).unread = 1024 ∧ (r.store e).tail = (r.tail + 1) % 1024 ∧ (r.store e).lost = satInc 16 r.lost) ∧
    (e.severity = 3 → r.fatals.length < 8 → (r.store e).fatals = r.fatals ++ [e]) ∧
    ((e.severity ≠ 3 ∨ 8 ≤ r.fatals.length) → (r.store e).fatals = r.fatals)) ∧
  ∀ (s : State), s.fw.running ≠ 2 →
    (∀ target, target < 2 ^ 16 → s.test.busy = false → s.fw.factoryBad = false → s.scrubbing = false → s.pwr.state ≠ 4 →
      let started := fun (k : Nat) (u : State) => u.test.busy = true ∧ u.test.cmd = k ∧ u.test.target = target ∧
        u.test.done = false ∧ u.tiles = s.tiles ∧ u.mem = s.mem
      (targetBad 1 target = false → s.testAllowed 1 target = true → ∃ u, exec (.logicBist target) s = .next u ∧ started 1 u) ∧
      (targetBad 2 target = false → s.testAllowed 2 target = true → ∃ u, exec (.arrayMemoryBist target) s = .next u ∧ started 2 u) ∧
      (targetBad 3 target = false → s.testAllowed 3 target = true → ∃ u, exec (.cacheMemoryBist target) s = .next u ∧ started 3 u) ∧
      (targetBad 4 target = false → s.testAllowed 4 target = true → ∃ u, exec (.stackMemoryBist target) s = .next u ∧ started 4 u)) ∧
    (s.test.busy = true → s.fw.factoryBad = false →
      (s.scrubbing = false → s.pwr.state ≠ 4 → ∃ u, exec (.bistAbort 0) s = .next u ∧ u.test.busy = false ∧ u.test.done = true ∧
        u.test.pass = false ∧ u.test.errCode = cBistAborted) ∧
      ((s.scrubbing = true ∨ s.pwr.state = 4) → ∃ u, exec (.bistAbort 0) s = .next u ∧ u.test = s.test)) ∧
    (∀ misr, s.test.busy = true → s.test.cmd = 4 → misr.all (fun (e : Nat × Nat) => decide (e.1 < 2) && decide (e.2 < 2 ^ 64)) = true →
      ∃ u, exec (.bistDone misr []) s = .next u ∧ u.test.pass = true ∧ u.test.busy = false ∧ u.test.failCount = 0 ∧
        ∀ a, memByte u.mem a =
          if stackNo a < 12 ∧ bit s.test.target (stackNo a) = true ∧ s.isWithdrawn (unitKey a) = false then 0#8 else memByte s.mem a) ∧
    (∀ v0 v1, v0 < 2 ^ 64 → v1 < 2 ^ 64 → s.test.busy = true → (s.test.cmd = 1 ∨ s.test.cmd = 2 ∨ s.test.cmd = 3) → s.test.target = 3 →
      ∃ u, exec (.bistDone [(0, v0), (1, v1)] []) s = .next u ∧ u.test.busy = false ∧
        (u.test.pass = true ↔ v0 = smGet 0 s.test.expect 0 ∧ v1 = smGet 0 s.test.expect 1)) ∧
    (∀ v : Word, let t := bits v.toNat 9 0
      let d := (t + 1024 - s.ras.tail) % 1024
      (t = s.ras.head → exec (.rasTailWrite v) s = .next { s.wake with ras := { s.ras with unread := 0, tail := t } }) ∧
      (t ≠ s.ras.head → d ≤ s.ras.unread → exec (.rasTailWrite v) s =
        .next { s.wake with ras := { s.ras with unread := s.ras.unread - d, tail := t } }) ∧
      (t ≠ s.ras.head → s.ras.unread < d → exec (.rasTailWrite v) s = .next (s.wake.regAccess 0 12))) ∧
    exec .fatalClear s = .next { s.wake with ras := { s.ras with fatals := [] } }
end

