-- ==== Sys2Proof/Laws/Flits.lean ====
section
/-! SUPPORT. A flit that is sent passes the receiver's FEC unchanged (R290, R291). -/

namespace Sys2Proof.Machine

/-- Dropping the first byte of what follows one. -/
theorem everyOther_cons (y : Byte) : ∀ l : List Byte, everyOther (y :: l) = y :: everyOther (l.drop 1)
  | [] => rfl
  | _ :: _ => rfl

/-- The symbols of an even stretch, then those of what follows it. -/
theorem everyOther_append : ∀ l m : List Byte, l.length % 2 = 0 → everyOther (l ++ m) = everyOther l ++ everyOther m
  | [], _, _ => rfl
  | [_], _, h => by simp at h
  | a :: b :: r, m, h => by
    have := everyOther_append r m (by simp at h; omega)
    simp [everyOther, this]

/-- After an odd stretch the next symbol is the second byte of what follows. -/
theorem everyOther_append_odd : ∀ l m : List Byte, l.length % 2 = 1 → everyOther (l ++ m) = everyOther l ++ everyOther (m.drop 1)
  | [], _, h => by simp at h
  | [a], m, _ => by simp [everyOther_cons, everyOther]
  | a :: b :: r, m, h => by
    have := everyOther_append_odd r m (by simp at h; omega)
    simp [everyOther, this]

/-- Symbols of a stretch. -/
theorem everyOther_length : ∀ l : List Byte, (everyOther l).length = (l.length + 1) / 2
  | [] => rfl
  | [_] => by simp [everyOther]
  | a :: b :: r => by
    have := everyOther_length r
    simp [everyOther, this]; omega

/-- The two codes of a weave. -/
theorem everyOther_weave : ∀ a b : List Byte, a.length = b.length →
    everyOther (weave a b) = a ∧ everyOther ((weave a b).drop 1) = b
  | [], [], _ => ⟨rfl, rfl⟩
  | [], _ :: _, h => by simp at h
  | _ :: _, [], h => by simp at h
  | x :: a, y :: b, h => by
    obtain ⟨h0, h1⟩ := everyOther_weave a b (by simpa using h)
    exact ⟨by simp [weave, everyOther, h0], by simp only [weave, List.drop_succ_cons, List.drop_zero, everyOther_cons, h1]⟩

/-- The two codes of a stretch weave back to it. -/
theorem weave_everyOther : ∀ l : List Byte, weave (everyOther l) (everyOther (l.drop 1)) = l
  | [] => rfl
  | [_] => rfl
  | a :: b :: r => by
    have := weave_everyOther r
    simp only [List.drop_succ_cons, List.drop_zero, everyOther, everyOther_cons, weave, this]

/-- Parity symbols are four. -/
theorem fecParity_length (l : List Byte) : (fecParity l).length = 4 := rfl

/-- 248 bytes and their parity pass both codes with nothing to correct. -/
theorem flitCorrected_coded (d : List Byte) (h : d.length = 248) :
    flitCorrected (d ++ weave (fecParity (fecSymbols 0 d)) (fecParity (fecSymbols 1 d))) =
      some (d ++ weave (fecParity (fecSymbols 0 d)) (fecParity (fecSymbols 1 d)), 0) := by
  obtain ⟨w0, w1⟩ := everyOther_weave (fecParity (fecSymbols 0 d)) (fecParity (fecSymbols 1 d)) rfl
  generalize hw : weave (fecParity (fecSymbols 0 d)) (fecParity (fecSymbols 1 d)) = w at *
  have s0 : fecSymbols 0 (d ++ w) = fecSymbols 0 d ++ fecParity (fecSymbols 0 d) := by
    simp only [fecSymbols, List.drop_zero] at *
    rw [everyOther_append _ _ (by omega), w0]
  have s1 : fecSymbols 1 (d ++ w) = fecSymbols 1 d ++ fecParity (fecSymbols 1 d) := by
    simp only [fecSymbols] at *
    rw [List.drop_append_of_le_length (by omega), everyOther_append_odd _ _ (by simp; omega), w1]
  have l0 : (fecSymbols 0 d).length = 124 := by simp [fecSymbols, everyOther_length, h]
  have l1 : (fecSymbols 1 d).length = 124 := by simp [fecSymbols, everyOther_length, h]
  have c0 : fecCorrect (fecSymbols 0 (d ++ w)) = some (fecSymbols 0 (d ++ w), 0) := by
    rw [fecCorrect, if_pos]; simp [fecWord, s0, l0]
  have c1 : fecCorrect (fecSymbols 1 (d ++ w)) = some (fecSymbols 1 (d ++ w), 0) := by
    rw [fecCorrect, if_pos]; simp [fecWord, s1, l1]
  simp only [flitCorrected, c0, c1]
  simp only [fecSymbols, List.drop_zero, weave_everyOther]

/-- A flit as it is sent passes the receiver's FEC with nothing corrected. -/
theorem flitCorrected_flitBytes (body : List Byte) (t : Nat) (h : body.length = 240) :
    flitCorrected (flitBytes body t) = some (flitBytes body t, 0) := by
  unfold flitBytes
  exact flitCorrected_coded _ (by simp [toBytes, h])

end Sys2Proof.Machine
end

