-- ==== Sys2Proof/Laws/Maps.lean ====
section
/-! SUPPORT. Laws of sparse maps and byte memory: reading after writing, and the canonical form. -/

namespace Sys2Proof.Machine

variable {α : Type}

theorem smGet_nil (d : α) (k : Nat) : smGet d [] k = d := rfl

/-- A key that is deleted reads as the default. -/
theorem smGet_smDel_self (d : α) (m : SMap α) (k : Nat) : smGet d (smDel m k) k = d := by
  induction m with
  | nil => rfl
  | cons e m ih =>
    by_cases h : e.1 = k
    · simpa [smDel, h] using ih
    · have : k ≠ e.1 := fun x => h x.symm
      simpa [smDel, h, smGet, this] using ih

/-- Deleting a key leaves the others. -/
theorem smGet_smDel_ne (d : α) (m : SMap α) {k j : Nat} (h : j ≠ k) : smGet d (smDel m k) j = smGet d m j := by
  induction m with
  | nil => rfl
  | cons e m ih =>
    by_cases he : e.1 = k
    · have : j ≠ e.1 := fun x => h (x.trans he)
      simpa [smDel, he, smGet, this, show j ≠ k from h] using ih
    · by_cases hj : j = e.1
      · simp [smDel, he, smGet, hj]
      · simpa [smDel, he, smGet, hj] using ih

/-- An inserted key reads as its value where no equal key stood. -/
theorem smGet_smIns_self (d : α) (m : SMap α) (k : Nat) (v : α) (h : ∀ e ∈ m, e.1 ≠ k) : smGet d (smIns m k v) k = v := by
  induction m with
  | nil => simp [smIns, smGet]
  | cons e m ih =>
    have he : k ≠ e.1 := fun x => h e (by simp) x.symm
    unfold smIns
    split
    · simp [smGet]
    · simp only [smGet, he, if_false]
      exact ih (fun x hx => h x (by simp [hx]))

/-- Inserting a key leaves the others. -/
theorem smGet_smIns_ne (d : α) (m : SMap α) {k j : Nat} (v : α) (h : j ≠ k) : smGet d (smIns m k v) j = smGet d m j := by
  induction m with
  | nil => simp [smIns, smGet, h]
  | cons e m ih =>
    unfold smIns
    split
    · simp [smGet, h]
    · simp only [smGet]
      split
      · rfl
      · exact ih

theorem not_mem_smDel (m : SMap α) (k : Nat) : ∀ e ∈ smDel m k, e.1 ≠ k := by
  intro e he
  simpa [smDel] using (List.mem_filter.mp he).2

/-- Reading a key after setting one. -/
@[simp] theorem smGet_smSet [DecidableEq α] (d : α) (m : SMap α) (k j : Nat) (v : α) :
    smGet d (smSet d m k v) j = if j = k then v else smGet d m j := by
  unfold smSet
  by_cases hj : j = k
  · subst hj
    split
    · next h => simp [smGet_smDel_self, h]
    · simp [smGet_smIns_self _ _ _ _ (not_mem_smDel m j)]
  · split
    · rw [smGet_smDel_ne d m hj]
    · rw [smGet_smIns_ne d _ v hj, smGet_smDel_ne d m hj]

/-! ### The canonical form -/

/-- A looser bound holds where a tighter one does. -/
theorem smRising_mono {b c : Nat} (m : SMap α) (h : smRising (some b) m = true) (hc : c ≤ b) : smRising (some c) m = true := by
  cases m with
  | nil => rfl
  | cons e m =>
    simp only [smRising, Bool.and_eq_true, decide_eq_true_eq] at h ⊢
    exact ⟨by omega, h.2⟩

/-- Rising from a bound, as rising from none with every key above it. -/
theorem smRising_none_of_some {b : Nat} (m : SMap α) (h : smRising (some b) m = true) : smRising none m = true := by
  cases m with
  | nil => rfl
  | cons e m =>
    simp only [smRising, Bool.and_eq_true] at h ⊢
    exact h.2

/-- Filtering keeps keys rising. -/
theorem smRising_filter (p : Nat × α → Bool) (b : Option Nat) (m : SMap α) (h : smRising b m = true) :
    smRising b (m.filter p) = true := by
  induction m generalizing b with
  | nil => simpa using h
  | cons e m ih =>
    have ht : smRising (some e.1) m = true := by
      cases b with
      | none => simpa [smRising] using h
      | some b =>
        simp only [smRising, Bool.and_eq_true] at h
        exact h.2
    by_cases hp : p e = true
    · simp only [List.filter_cons, hp, if_true]
      cases b with
      | none => simpa [smRising] using ih _ ht
      | some b =>
        simp only [smRising, Bool.and_eq_true] at h ⊢
        exact ⟨h.1, ih _ ht⟩
    · simp only [List.filter_cons, hp]
      cases b with
      | none =>
        have := ih (some e.1) ht
        exact smRising_none_of_some _ this
      | some b =>
        simp only [smRising, Bool.and_eq_true, decide_eq_true_eq] at h
        exact smRising_mono _ (ih _ ht) (by omega)

/-- Inserting an absent key keeps keys rising. -/
theorem smRising_smIns (b : Option Nat) (m : SMap α) (k : Nat) (v : α) (h : smRising b m = true)
    (hk : ∀ e ∈ m, e.1 ≠ k) (hb : ∀ x, b = some x → x < k) : smRising b (smIns m k v) = true := by
  induction m generalizing b with
  | nil =>
    cases b with
    | none => simp [smIns, smRising]
    | some x => simp [smIns, smRising, hb x rfl]
  | cons e m ih =>
    have ht : smRising (some e.1) m = true := by
      cases b with
      | none => simpa [smRising] using h
      | some x =>
        simp only [smRising, Bool.and_eq_true] at h
        exact h.2
    have hne : e.1 ≠ k := hk e (by simp)
    unfold smIns
    split
    · next hlt =>
      cases b with
      | none => simp [smRising, hlt, ht]
      | some x => simp [smRising, hlt, ht, hb x rfl]
    · next hge =>
      have hi : smRising (some e.1) (smIns m k v) = true :=
        ih (some e.1) ht (fun x hx => hk x (by simp [hx])) (fun x hx => by
          simp only [Option.some.injEq] at hx
          omega)
      cases b with
      | none => simpa [smRising] using hi
      | some x =>
        simp only [smRising, Bool.and_eq_true] at h ⊢
        exact ⟨h.1, hi⟩

/-- Members after an insertion. -/
theorem mem_smIns (m : SMap α) (k : Nat) (v : α) (e : Nat × α) (h : e ∈ smIns m k v) : e = (k, v) ∨ e ∈ m := by
  induction m with
  | nil => simpa [smIns] using h
  | cons x m ih =>
    unfold smIns at h
    split at h
    · simpa using h
    · rcases List.mem_cons.mp h with h | h
      · simp [h]
      · rcases ih h with h | h
        · exact .inl h
        · exact .inr (by simp [h])

/-- Setting a key keeps the canonical form. -/
theorem smWf_smSet [DecidableEq α] (d : α) (m : SMap α) (k : Nat) (v : α) (h : smWf d m = true) :
    smWf d (smSet d m k v) = true := by
  unfold smWf at h ⊢
  simp only [Bool.and_eq_true, List.all_eq_true, decide_eq_true_eq] at h ⊢
  have hd : smRising none (smDel m k) = true := smRising_filter _ _ _ h.1
  have hm : ∀ e ∈ smDel m k, e.2 ≠ d := fun e he => h.2 e (List.mem_filter.mp he).1
  unfold smSet
  split
  · exact ⟨hd, hm⟩
  · next hv =>
    refine ⟨smRising_smIns none _ k v hd (not_mem_smDel m k) (by simp), ?_⟩
    intro e he
    rcases mem_smIns _ _ _ _ he with rfl | he
    · exact hv
    · exact hm e he

/-- Filtering keeps the canonical form. -/
theorem smWf_filter [DecidableEq α] (d : α) (m : SMap α) (p : Nat × α → Bool) (h : smWf d m = true) :
    smWf d (m.filter p) = true := by
  unfold smWf at h ⊢
  simp only [Bool.and_eq_true, List.all_eq_true, decide_eq_true_eq] at h ⊢
  exact ⟨smRising_filter _ _ _ h.1, fun e he => h.2 e (List.mem_filter.mp he).1⟩

/-! ### Byte memory -/

/-- Reading a byte after writing one. -/
@[simp] theorem memByte_memPut (m : Mem) (a b : Nat) (v : Byte) :
    memByte (memPut m a v) b = if b = a then v else memByte m b := smGet_smSet 0 m a b v

/-- Reading a byte after writing bytes. -/
theorem memByte_memWrite (m : Mem) (a b : Nat) (d : List Byte) :
    memByte (memWrite m a d) b = if a ≤ b ∧ b < a + d.length then d.getD (b - a) 0 else memByte m b := by
  induction d generalizing m a with
  | nil =>
    have : ¬ (a ≤ b ∧ b < a + ([] : List Byte).length) := by simp
    rw [if_neg this, memWrite]
  | cons x d ih =>
    simp only [memWrite, ih, memByte_memPut, List.length_cons]
    by_cases h : b = a
    · subst h
      have : ¬ (b + 1 ≤ b ∧ b < b + 1 + d.length) := by omega
      rw [if_neg this]
      simp
    · by_cases h2 : a ≤ b ∧ b < a + (d.length + 1)
      · have h3 : a + 1 ≤ b ∧ b < a + 1 + d.length := by omega
        have h4 : b - a = (b - (a + 1)) + 1 := by omega
        simp [h2, h3, h4]
      · have h3 : ¬ (a + 1 ≤ b ∧ b < a + 1 + d.length) := by omega
        rw [if_neg h3, if_neg h2, if_neg h]

/-- Writing bytes keeps the canonical form. -/
theorem memWf_memWrite (m : Mem) (a : Nat) (d : List Byte) (h : Mem.wf m = true) : Mem.wf (memWrite m a d) = true := by
  induction d generalizing m a with
  | nil => simpa [memWrite] using h
  | cons x d ih => exact ih _ _ (smWf_smSet 0 m a x h)

/-- Writing a number keeps the canonical form. -/
theorem memWf_memPutLE (m : Mem) (a n v : Nat) (h : Mem.wf m = true) : Mem.wf (memPutLE m a n v) = true :=
  memWf_memWrite _ _ _ h

/-- Clearing a range keeps the canonical form. -/
theorem memWf_memClear (m : Mem) (a n : Nat) (h : Mem.wf m = true) : Mem.wf (memClear m a n) = true := smWf_filter 0 m _ h

end Sys2Proof.Machine
end

