-- ==== Sys2Proof/Laws/State.lean ====
section
/-! SUPPORT. What each update of a component reads as afterwards, field by field: no later proof unfolds a record update. -/

namespace Sys2Proof.Machine

set_option Elab.async false

variable (s : State)

/-! ### modSeq -/

@[simp] theorem State.modSeq_pending (q : Nat) (f : Seq → Seq) : (s.modSeq q f).pending = s.pending := rfl
@[simp] theorem State.modSeq_now (q : Nat) (f : Seq → Seq) : (s.modSeq q f).now = s.now := rfl
@[simp] theorem State.modSeq_free (q : Nat) (f : Seq → Seq) : (s.modSeq q f).free = s.free := rfl
@[simp] theorem State.modSeq_mem (q : Nat) (f : Seq → Seq) : (s.modSeq q f).mem = s.mem := rfl
@[simp] theorem State.modSeq_poison (q : Nat) (f : Seq → Seq) : (s.modSeq q f).poison = s.poison := rfl
@[simp] theorem State.modSeq_withdrawn (q : Nat) (f : Seq → Seq) : (s.modSeq q f).withdrawn = s.withdrawn := rfl
@[simp] theorem State.modSeq_tiles (q : Nat) (f : Seq → Seq) : (s.modSeq q f).tiles = s.tiles := rfl
@[simp] theorem State.modSeq_parts (q : Nat) (f : Seq → Seq) : (s.modSeq q f).parts = s.parts := rfl
@[simp] theorem State.modSeq_memc (q : Nat) (f : Seq → Seq) : (s.modSeq q f).memc = s.memc := rfl
@[simp] theorem State.modSeq_epMem (q : Nat) (f : Seq → Seq) : (s.modSeq q f).epMem = s.epMem := rfl
@[simp] theorem State.modSeq_img (q : Nat) (f : Seq → Seq) : (s.modSeq q f).img = s.img := rfl
@[simp] theorem State.modSeq_owner (q : Nat) (f : Seq → Seq) : (s.modSeq q f).owner = s.owner := rfl
@[simp] theorem State.modSeq_fab (q : Nat) (f : Seq → Seq) : (s.modSeq q f).fab = s.fab := rfl
@[simp] theorem State.modSeq_host (q : Nat) (f : Seq → Seq) : (s.modSeq q f).host = s.host := rfl
@[simp] theorem State.modSeq_sec (q : Nat) (f : Seq → Seq) : (s.modSeq q f).sec = s.sec := rfl
@[simp] theorem State.modSeq_pwr (q : Nat) (f : Seq → Seq) : (s.modSeq q f).pwr = s.pwr := rfl
@[simp] theorem State.modSeq_ras (q : Nat) (f : Seq → Seq) : (s.modSeq q f).ras = s.ras := rfl
@[simp] theorem State.modSeq_cores (q : Nat) (f : Seq → Seq) : (s.modSeq q f).cores = s.cores := rfl
@[simp] theorem State.modSeq_fw (q : Nat) (f : Seq → Seq) : (s.modSeq q f).fw = s.fw := rfl
@[simp] theorem State.modSeq_test (q : Nat) (f : Seq → Seq) : (s.modSeq q f).test = s.test := rfl
@[simp] theorem State.modSeq_progressLimit (q : Nat) (f : Seq → Seq) : (s.modSeq q f).progressLimit = s.progressLimit := rfl
@[simp] theorem State.modSeq_pins (q : Nat) (f : Seq → Seq) : (s.modSeq q f).pins = s.pins := rfl
@[simp] theorem State.modSeq_tile (q : Nat) (f : Seq → Seq) (i : Nat) : (s.modSeq q f).tile i = s.tile i := rfl
@[simp] theorem State.modSeq_part (q : Nat) (f : Seq → Seq) (i : Nat) : (s.modSeq q f).part i = s.part i := rfl
@[simp] theorem State.modSeq_core (q : Nat) (f : Seq → Seq) (i : Nat) : (s.modSeq q f).core i = s.core i := rfl
@[simp] theorem State.modSeq_stk (q : Nat) (f : Seq → Seq) (i : Nat) : (s.modSeq q f).stk i = s.stk i := rfl
@[simp] theorem State.modSeq_cache (q : Nat) (f : Seq → Seq) (i : Nat) : (s.modSeq q f).cache i = s.cache i := rfl
@[simp] theorem State.modSeq_fn (q : Nat) (f : Seq → Seq) (i : Nat) : (s.modSeq q f).fn i = s.fn i := rfl
@[simp] theorem State.modSeq_port (q : Nat) (f : Seq → Seq) (i : Nat) : (s.modSeq q f).port i = s.port i := rfl
@[simp] theorem State.modSeq_coll (q : Nat) (f : Seq → Seq) (i : Nat) : (s.modSeq q f).coll i = s.coll i := rfl
@[simp] theorem State.modSeq_seq (q : Nat) (f : Seq → Seq) (i : Nat) :
    (s.modSeq q f).seq i = if i = q then f (s.seq q) else s.seq i := smGet_smSet _ _ _ _ _

/-! ### modTile -/

@[simp] theorem State.modTile_pending (t : Nat) (f : Tile → Tile) : (s.modTile t f).pending = s.pending := rfl
@[simp] theorem State.modTile_now (t : Nat) (f : Tile → Tile) : (s.modTile t f).now = s.now := rfl
@[simp] theorem State.modTile_free (t : Nat) (f : Tile → Tile) : (s.modTile t f).free = s.free := rfl
@[simp] theorem State.modTile_mem (t : Nat) (f : Tile → Tile) : (s.modTile t f).mem = s.mem := rfl
@[simp] theorem State.modTile_poison (t : Nat) (f : Tile → Tile) : (s.modTile t f).poison = s.poison := rfl
@[simp] theorem State.modTile_withdrawn (t : Nat) (f : Tile → Tile) : (s.modTile t f).withdrawn = s.withdrawn := rfl
@[simp] theorem State.modTile_seqs (t : Nat) (f : Tile → Tile) : (s.modTile t f).seqs = s.seqs := rfl
@[simp] theorem State.modTile_parts (t : Nat) (f : Tile → Tile) : (s.modTile t f).parts = s.parts := rfl
@[simp] theorem State.modTile_memc (t : Nat) (f : Tile → Tile) : (s.modTile t f).memc = s.memc := rfl
@[simp] theorem State.modTile_epMem (t : Nat) (f : Tile → Tile) : (s.modTile t f).epMem = s.epMem := rfl
@[simp] theorem State.modTile_img (t : Nat) (f : Tile → Tile) : (s.modTile t f).img = s.img := rfl
@[simp] theorem State.modTile_owner (t : Nat) (f : Tile → Tile) : (s.modTile t f).owner = s.owner := rfl
@[simp] theorem State.modTile_fab (t : Nat) (f : Tile → Tile) : (s.modTile t f).fab = s.fab := rfl
@[simp] theorem State.modTile_host (t : Nat) (f : Tile → Tile) : (s.modTile t f).host = s.host := rfl
@[simp] theorem State.modTile_sec (t : Nat) (f : Tile → Tile) : (s.modTile t f).sec = s.sec := rfl
@[simp] theorem State.modTile_pwr (t : Nat) (f : Tile → Tile) : (s.modTile t f).pwr = s.pwr := rfl
@[simp] theorem State.modTile_ras (t : Nat) (f : Tile → Tile) : (s.modTile t f).ras = s.ras := rfl
@[simp] theorem State.modTile_cores (t : Nat) (f : Tile → Tile) : (s.modTile t f).cores = s.cores := rfl
@[simp] theorem State.modTile_fw (t : Nat) (f : Tile → Tile) : (s.modTile t f).fw = s.fw := rfl
@[simp] theorem State.modTile_test (t : Nat) (f : Tile → Tile) : (s.modTile t f).test = s.test := rfl
@[simp] theorem State.modTile_progressLimit (t : Nat) (f : Tile → Tile) : (s.modTile t f).progressLimit = s.progressLimit := rfl
@[simp] theorem State.modTile_pins (t : Nat) (f : Tile → Tile) : (s.modTile t f).pins = s.pins := rfl
@[simp] theorem State.modTile_seq (t : Nat) (f : Tile → Tile) (i : Nat) : (s.modTile t f).seq i = s.seq i := rfl
@[simp] theorem State.modTile_part (t : Nat) (f : Tile → Tile) (i : Nat) : (s.modTile t f).part i = s.part i := rfl
@[simp] theorem State.modTile_core (t : Nat) (f : Tile → Tile) (i : Nat) : (s.modTile t f).core i = s.core i := rfl
@[simp] theorem State.modTile_stk (t : Nat) (f : Tile → Tile) (i : Nat) : (s.modTile t f).stk i = s.stk i := rfl
@[simp] theorem State.modTile_cache (t : Nat) (f : Tile → Tile) (i : Nat) : (s.modTile t f).cache i = s.cache i := rfl
@[simp] theorem State.modTile_fn (t : Nat) (f : Tile → Tile) (i : Nat) : (s.modTile t f).fn i = s.fn i := rfl
@[simp] theorem State.modTile_port (t : Nat) (f : Tile → Tile) (i : Nat) : (s.modTile t f).port i = s.port i := rfl
@[simp] theorem State.modTile_coll (t : Nat) (f : Tile → Tile) (i : Nat) : (s.modTile t f).coll i = s.coll i := rfl
@[simp] theorem State.modTile_tile (t : Nat) (f : Tile → Tile) (i : Nat) :
    (s.modTile t f).tile i = if i = t then f (s.tile t) else s.tile i := smGet_smSet _ _ _ _ _

/-! ### modPart -/

@[simp] theorem State.modPart_pending (p : Nat) (f : Part → Part) : (s.modPart p f).pending = s.pending := rfl
@[simp] theorem State.modPart_now (p : Nat) (f : Part → Part) : (s.modPart p f).now = s.now := rfl
@[simp] theorem State.modPart_free (p : Nat) (f : Part → Part) : (s.modPart p f).free = s.free := rfl
@[simp] theorem State.modPart_mem (p : Nat) (f : Part → Part) : (s.modPart p f).mem = s.mem := rfl
@[simp] theorem State.modPart_poison (p : Nat) (f : Part → Part) : (s.modPart p f).poison = s.poison := rfl
@[simp] theorem State.modPart_withdrawn (p : Nat) (f : Part → Part) : (s.modPart p f).withdrawn = s.withdrawn := rfl
@[simp] theorem State.modPart_seqs (p : Nat) (f : Part → Part) : (s.modPart p f).seqs = s.seqs := rfl
@[simp] theorem State.modPart_tiles (p : Nat) (f : Part → Part) : (s.modPart p f).tiles = s.tiles := rfl
@[simp] theorem State.modPart_memc (p : Nat) (f : Part → Part) : (s.modPart p f).memc = s.memc := rfl
@[simp] theorem State.modPart_epMem (p : Nat) (f : Part → Part) : (s.modPart p f).epMem = s.epMem := rfl
@[simp] theorem State.modPart_img (p : Nat) (f : Part → Part) : (s.modPart p f).img = s.img := rfl
@[simp] theorem State.modPart_owner (p : Nat) (f : Part → Part) : (s.modPart p f).owner = s.owner := rfl
@[simp] theorem State.modPart_fab (p : Nat) (f : Part → Part) : (s.modPart p f).fab = s.fab := rfl
@[simp] theorem State.modPart_host (p : Nat) (f : Part → Part) : (s.modPart p f).host = s.host := rfl
@[simp] theorem State.modPart_sec (p : Nat) (f : Part → Part) : (s.modPart p f).sec = s.sec := rfl
@[simp] theorem State.modPart_pwr (p : Nat) (f : Part → Part) : (s.modPart p f).pwr = s.pwr := rfl
@[simp] theorem State.modPart_ras (p : Nat) (f : Part → Part) : (s.modPart p f).ras = s.ras := rfl
@[simp] theorem State.modPart_cores (p : Nat) (f : Part → Part) : (s.modPart p f).cores = s.cores := rfl
@[simp] theorem State.modPart_fw (p : Nat) (f : Part → Part) : (s.modPart p f).fw = s.fw := rfl
@[simp] theorem State.modPart_test (p : Nat) (f : Part → Part) : (s.modPart p f).test = s.test := rfl
@[simp] theorem State.modPart_progressLimit (p : Nat) (f : Part → Part) : (s.modPart p f).progressLimit = s.progressLimit := rfl
@[simp] theorem State.modPart_pins (p : Nat) (f : Part → Part) : (s.modPart p f).pins = s.pins := rfl
@[simp] theorem State.modPart_seq (p : Nat) (f : Part → Part) (i : Nat) : (s.modPart p f).seq i = s.seq i := rfl
@[simp] theorem State.modPart_tile (p : Nat) (f : Part → Part) (i : Nat) : (s.modPart p f).tile i = s.tile i := rfl
@[simp] theorem State.modPart_core (p : Nat) (f : Part → Part) (i : Nat) : (s.modPart p f).core i = s.core i := rfl
@[simp] theorem State.modPart_stk (p : Nat) (f : Part → Part) (i : Nat) : (s.modPart p f).stk i = s.stk i := rfl
@[simp] theorem State.modPart_cache (p : Nat) (f : Part → Part) (i : Nat) : (s.modPart p f).cache i = s.cache i := rfl
@[simp] theorem State.modPart_fn (p : Nat) (f : Part → Part) (i : Nat) : (s.modPart p f).fn i = s.fn i := rfl
@[simp] theorem State.modPart_port (p : Nat) (f : Part → Part) (i : Nat) : (s.modPart p f).port i = s.port i := rfl
@[simp] theorem State.modPart_coll (p : Nat) (f : Part → Part) (i : Nat) : (s.modPart p f).coll i = s.coll i := rfl
@[simp] theorem State.modPart_part (p : Nat) (f : Part → Part) (i : Nat) :
    (s.modPart p f).part i = if i = p then f (s.part p) else s.part i := smGet_smSet _ _ _ _ _

/-! ### modCore -/

@[simp] theorem State.modCore_pending (c : Nat) (f : Core → Core) : (s.modCore c f).pending = s.pending := rfl
@[simp] theorem State.modCore_now (c : Nat) (f : Core → Core) : (s.modCore c f).now = s.now := rfl
@[simp] theorem State.modCore_free (c : Nat) (f : Core → Core) : (s.modCore c f).free = s.free := rfl
@[simp] theorem State.modCore_mem (c : Nat) (f : Core → Core) : (s.modCore c f).mem = s.mem := rfl
@[simp] theorem State.modCore_poison (c : Nat) (f : Core → Core) : (s.modCore c f).poison = s.poison := rfl
@[simp] theorem State.modCore_withdrawn (c : Nat) (f : Core → Core) : (s.modCore c f).withdrawn = s.withdrawn := rfl
@[simp] theorem State.modCore_seqs (c : Nat) (f : Core → Core) : (s.modCore c f).seqs = s.seqs := rfl
@[simp] theorem State.modCore_tiles (c : Nat) (f : Core → Core) : (s.modCore c f).tiles = s.tiles := rfl
@[simp] theorem State.modCore_parts (c : Nat) (f : Core → Core) : (s.modCore c f).parts = s.parts := rfl
@[simp] theorem State.modCore_memc (c : Nat) (f : Core → Core) : (s.modCore c f).memc = s.memc := rfl
@[simp] theorem State.modCore_epMem (c : Nat) (f : Core → Core) : (s.modCore c f).epMem = s.epMem := rfl
@[simp] theorem State.modCore_img (c : Nat) (f : Core → Core) : (s.modCore c f).img = s.img := rfl
@[simp] theorem State.modCore_owner (c : Nat) (f : Core → Core) : (s.modCore c f).owner = s.owner := rfl
@[simp] theorem State.modCore_fab (c : Nat) (f : Core → Core) : (s.modCore c f).fab = s.fab := rfl
@[simp] theorem State.modCore_host (c : Nat) (f : Core → Core) : (s.modCore c f).host = s.host := rfl
@[simp] theorem State.modCore_sec (c : Nat) (f : Core → Core) : (s.modCore c f).sec = s.sec := rfl
@[simp] theorem State.modCore_pwr (c : Nat) (f : Core → Core) : (s.modCore c f).pwr = s.pwr := rfl
@[simp] theorem State.modCore_ras (c : Nat) (f : Core → Core) : (s.modCore c f).ras = s.ras := rfl
@[simp] theorem State.modCore_fw (c : Nat) (f : Core → Core) : (s.modCore c f).fw = s.fw := rfl
@[simp] theorem State.modCore_test (c : Nat) (f : Core → Core) : (s.modCore c f).test = s.test := rfl
@[simp] theorem State.modCore_progressLimit (c : Nat) (f : Core → Core) : (s.modCore c f).progressLimit = s.progressLimit := rfl
@[simp] theorem State.modCore_pins (c : Nat) (f : Core → Core) : (s.modCore c f).pins = s.pins := rfl
@[simp] theorem State.modCore_seq (c : Nat) (f : Core → Core) (i : Nat) : (s.modCore c f).seq i = s.seq i := rfl
@[simp] theorem State.modCore_tile (c : Nat) (f : Core → Core) (i : Nat) : (s.modCore c f).tile i = s.tile i := rfl
@[simp] theorem State.modCore_part (c : Nat) (f : Core → Core) (i : Nat) : (s.modCore c f).part i = s.part i := rfl
@[simp] theorem State.modCore_stk (c : Nat) (f : Core → Core) (i : Nat) : (s.modCore c f).stk i = s.stk i := rfl
@[simp] theorem State.modCore_cache (c : Nat) (f : Core → Core) (i : Nat) : (s.modCore c f).cache i = s.cache i := rfl
@[simp] theorem State.modCore_fn (c : Nat) (f : Core → Core) (i : Nat) : (s.modCore c f).fn i = s.fn i := rfl
@[simp] theorem State.modCore_port (c : Nat) (f : Core → Core) (i : Nat) : (s.modCore c f).port i = s.port i := rfl
@[simp] theorem State.modCore_coll (c : Nat) (f : Core → Core) (i : Nat) : (s.modCore c f).coll i = s.coll i := rfl
@[simp] theorem State.modCore_core (c : Nat) (f : Core → Core) (i : Nat) :
    (s.modCore c f).core i = if i = c then f (s.core c) else s.core i := smGet_smSet _ _ _ _ _

/-! ### modStk -/

@[simp] theorem State.modStk_pending (k : Nat) (f : Stack → Stack) : (s.modStk k f).pending = s.pending := rfl
@[simp] theorem State.modStk_now (k : Nat) (f : Stack → Stack) : (s.modStk k f).now = s.now := rfl
@[simp] theorem State.modStk_free (k : Nat) (f : Stack → Stack) : (s.modStk k f).free = s.free := rfl
@[simp] theorem State.modStk_mem (k : Nat) (f : Stack → Stack) : (s.modStk k f).mem = s.mem := rfl
@[simp] theorem State.modStk_poison (k : Nat) (f : Stack → Stack) : (s.modStk k f).poison = s.poison := rfl
@[simp] theorem State.modStk_withdrawn (k : Nat) (f : Stack → Stack) : (s.modStk k f).withdrawn = s.withdrawn := rfl
@[simp] theorem State.modStk_seqs (k : Nat) (f : Stack → Stack) : (s.modStk k f).seqs = s.seqs := rfl
@[simp] theorem State.modStk_tiles (k : Nat) (f : Stack → Stack) : (s.modStk k f).tiles = s.tiles := rfl
@[simp] theorem State.modStk_parts (k : Nat) (f : Stack → Stack) : (s.modStk k f).parts = s.parts := rfl
@[simp] theorem State.modStk_epMem (k : Nat) (f : Stack → Stack) : (s.modStk k f).epMem = s.epMem := rfl
@[simp] theorem State.modStk_img (k : Nat) (f : Stack → Stack) : (s.modStk k f).img = s.img := rfl
@[simp] theorem State.modStk_owner (k : Nat) (f : Stack → Stack) : (s.modStk k f).owner = s.owner := rfl
@[simp] theorem State.modStk_fab (k : Nat) (f : Stack → Stack) : (s.modStk k f).fab = s.fab := rfl
@[simp] theorem State.modStk_host (k : Nat) (f : Stack → Stack) : (s.modStk k f).host = s.host := rfl
@[simp] theorem State.modStk_sec (k : Nat) (f : Stack → Stack) : (s.modStk k f).sec = s.sec := rfl
@[simp] theorem State.modStk_pwr (k : Nat) (f : Stack → Stack) : (s.modStk k f).pwr = s.pwr := rfl
@[simp] theorem State.modStk_ras (k : Nat) (f : Stack → Stack) : (s.modStk k f).ras = s.ras := rfl
@[simp] theorem State.modStk_cores (k : Nat) (f : Stack → Stack) : (s.modStk k f).cores = s.cores := rfl
@[simp] theorem State.modStk_fw (k : Nat) (f : Stack → Stack) : (s.modStk k f).fw = s.fw := rfl
@[simp] theorem State.modStk_test (k : Nat) (f : Stack → Stack) : (s.modStk k f).test = s.test := rfl
@[simp] theorem State.modStk_progressLimit (k : Nat) (f : Stack → Stack) : (s.modStk k f).progressLimit = s.progressLimit := rfl
@[simp] theorem State.modStk_pins (k : Nat) (f : Stack → Stack) : (s.modStk k f).pins = s.pins := rfl
@[simp] theorem State.modStk_memc_caches (k : Nat) (f : Stack → Stack) : (s.modStk k f).memc.caches = s.memc.caches := rfl
@[simp] theorem State.modStk_memc_patrolHours (k : Nat) (f : Stack → Stack) : (s.modStk k f).memc.patrolHours = s.memc.patrolHours := rfl
@[simp] theorem State.modStk_memc_spareHold (k : Nat) (f : Stack → Stack) : (s.modStk k f).memc.spareHold = s.memc.spareHold := rfl
@[simp] theorem State.modStk_memc_holdSince (k : Nat) (f : Stack → Stack) : (s.modStk k f).memc.holdSince = s.memc.holdSince := rfl
@[simp] theorem State.modStk_memc_deferred (k : Nat) (f : Stack → Stack) : (s.modStk k f).memc.deferred = s.memc.deferred := rfl
@[simp] theorem State.modStk_memc_fixups (k : Nat) (f : Stack → Stack) : (s.modStk k f).memc.fixups = s.memc.fixups := rfl
@[simp] theorem State.modStk_memc_cached (k : Nat) (f : Stack → Stack) : (s.modStk k f).memc.cached = s.memc.cached := rfl
@[simp] theorem State.modStk_memc_dirty (k : Nat) (f : Stack → Stack) : (s.modStk k f).memc.dirty = s.memc.dirty := rfl
@[simp] theorem State.modStk_memc_under (k : Nat) (f : Stack → Stack) : (s.modStk k f).memc.under = s.memc.under := rfl
@[simp] theorem State.modStk_memc_fresh (k : Nat) (f : Stack → Stack) : (s.modStk k f).memc.fresh = s.memc.fresh := rfl
@[simp] theorem State.modStk_memc_healthUnits (k : Nat) (f : Stack → Stack) : (s.modStk k f).memc.healthUnits = s.memc.healthUnits := rfl
@[simp] theorem State.modStk_memc_healthStks (k : Nat) (f : Stack → Stack) : (s.modStk k f).memc.healthStks = s.memc.healthStks := rfl
@[simp] theorem State.modStk_memc_healthOpen (k : Nat) (f : Stack → Stack) : (s.modStk k f).memc.healthOpen = s.memc.healthOpen := rfl
@[simp] theorem State.modStk_seq (k : Nat) (f : Stack → Stack) (i : Nat) : (s.modStk k f).seq i = s.seq i := rfl
@[simp] theorem State.modStk_tile (k : Nat) (f : Stack → Stack) (i : Nat) : (s.modStk k f).tile i = s.tile i := rfl
@[simp] theorem State.modStk_part (k : Nat) (f : Stack → Stack) (i : Nat) : (s.modStk k f).part i = s.part i := rfl
@[simp] theorem State.modStk_core (k : Nat) (f : Stack → Stack) (i : Nat) : (s.modStk k f).core i = s.core i := rfl
@[simp] theorem State.modStk_cache (k : Nat) (f : Stack → Stack) (i : Nat) : (s.modStk k f).cache i = s.cache i := rfl
@[simp] theorem State.modStk_fn (k : Nat) (f : Stack → Stack) (i : Nat) : (s.modStk k f).fn i = s.fn i := rfl
@[simp] theorem State.modStk_port (k : Nat) (f : Stack → Stack) (i : Nat) : (s.modStk k f).port i = s.port i := rfl
@[simp] theorem State.modStk_coll (k : Nat) (f : Stack → Stack) (i : Nat) : (s.modStk k f).coll i = s.coll i := rfl
@[simp] theorem State.modStk_stk (k : Nat) (f : Stack → Stack) (i : Nat) :
    (s.modStk k f).stk i = if i = k then f (s.stk k) else s.stk i := smGet_smSet _ _ _ _ _

/-! ### modCache -/

@[simp] theorem State.modCache_pending (d : Nat) (f : Cache → Cache) : (s.modCache d f).pending = s.pending := rfl
@[simp] theorem State.modCache_now (d : Nat) (f : Cache → Cache) : (s.modCache d f).now = s.now := rfl
@[simp] theorem State.modCache_free (d : Nat) (f : Cache → Cache) : (s.modCache d f).free = s.free := rfl
@[simp] theorem State.modCache_mem (d : Nat) (f : Cache → Cache) : (s.modCache d f).mem = s.mem := rfl
@[simp] theorem State.modCache_poison (d : Nat) (f : Cache → Cache) : (s.modCache d f).poison = s.poison := rfl
@[simp] theorem State.modCache_withdrawn (d : Nat) (f : Cache → Cache) : (s.modCache d f).withdrawn = s.withdrawn := rfl
@[simp] theorem State.modCache_seqs (d : Nat) (f : Cache → Cache) : (s.modCache d f).seqs = s.seqs := rfl
@[simp] theorem State.modCache_tiles (d : Nat) (f : Cache → Cache) : (s.modCache d f).tiles = s.tiles := rfl
@[simp] theorem State.modCache_parts (d : Nat) (f : Cache → Cache) : (s.modCache d f).parts = s.parts := rfl
@[simp] theorem State.modCache_epMem (d : Nat) (f : Cache → Cache) : (s.modCache d f).epMem = s.epMem := rfl
@[simp] theorem State.modCache_img (d : Nat) (f : Cache → Cache) : (s.modCache d f).img = s.img := rfl
@[simp] theorem State.modCache_owner (d : Nat) (f : Cache → Cache) : (s.modCache d f).owner = s.owner := rfl
@[simp] theorem State.modCache_fab (d : Nat) (f : Cache → Cache) : (s.modCache d f).fab = s.fab := rfl
@[simp] theorem State.modCache_host (d : Nat) (f : Cache → Cache) : (s.modCache d f).host = s.host := rfl
@[simp] theorem State.modCache_sec (d : Nat) (f : Cache → Cache) : (s.modCache d f).sec = s.sec := rfl
@[simp] theorem State.modCache_pwr (d : Nat) (f : Cache → Cache) : (s.modCache d f).pwr = s.pwr := rfl
@[simp] theorem State.modCache_ras (d : Nat) (f : Cache → Cache) : (s.modCache d f).ras = s.ras := rfl
@[simp] theorem State.modCache_cores (d : Nat) (f : Cache → Cache) : (s.modCache d f).cores = s.cores := rfl
@[simp] theorem State.modCache_fw (d : Nat) (f : Cache → Cache) : (s.modCache d f).fw = s.fw := rfl
@[simp] theorem State.modCache_test (d : Nat) (f : Cache → Cache) : (s.modCache d f).test = s.test := rfl
@[simp] theorem State.modCache_progressLimit (d : Nat) (f : Cache → Cache) : (s.modCache d f).progressLimit = s.progressLimit := rfl
@[simp] theorem State.modCache_pins (d : Nat) (f : Cache → Cache) : (s.modCache d f).pins = s.pins := rfl
@[simp] theorem State.modCache_memc_stks (d : Nat) (f : Cache → Cache) : (s.modCache d f).memc.stks = s.memc.stks := rfl
@[simp] theorem State.modCache_memc_patrolHours (d : Nat) (f : Cache → Cache) : (s.modCache d f).memc.patrolHours = s.memc.patrolHours := rfl
@[simp] theorem State.modCache_memc_spareHold (d : Nat) (f : Cache → Cache) : (s.modCache d f).memc.spareHold = s.memc.spareHold := rfl
@[simp] theorem State.modCache_memc_holdSince (d : Nat) (f : Cache → Cache) : (s.modCache d f).memc.holdSince = s.memc.holdSince := rfl
@[simp] theorem State.modCache_memc_deferred (d : Nat) (f : Cache → Cache) : (s.modCache d f).memc.deferred = s.memc.deferred := rfl
@[simp] theorem State.modCache_memc_fixups (d : Nat) (f : Cache → Cache) : (s.modCache d f).memc.fixups = s.memc.fixups := rfl
@[simp] theorem State.modCache_memc_cached (d : Nat) (f : Cache → Cache) : (s.modCache d f).memc.cached = s.memc.cached := rfl
@[simp] theorem State.modCache_memc_dirty (d : Nat) (f : Cache → Cache) : (s.modCache d f).memc.dirty = s.memc.dirty := rfl
@[simp] theorem State.modCache_memc_under (d : Nat) (f : Cache → Cache) : (s.modCache d f).memc.under = s.memc.under := rfl
@[simp] theorem State.modCache_memc_fresh (d : Nat) (f : Cache → Cache) : (s.modCache d f).memc.fresh = s.memc.fresh := rfl
@[simp] theorem State.modCache_memc_healthUnits (d : Nat) (f : Cache → Cache) : (s.modCache d f).memc.healthUnits = s.memc.healthUnits := rfl
@[simp] theorem State.modCache_memc_healthStks (d : Nat) (f : Cache → Cache) : (s.modCache d f).memc.healthStks = s.memc.healthStks := rfl
@[simp] theorem State.modCache_memc_healthOpen (d : Nat) (f : Cache → Cache) : (s.modCache d f).memc.healthOpen = s.memc.healthOpen := rfl
@[simp] theorem State.modCache_seq (d : Nat) (f : Cache → Cache) (i : Nat) : (s.modCache d f).seq i = s.seq i := rfl
@[simp] theorem State.modCache_tile (d : Nat) (f : Cache → Cache) (i : Nat) : (s.modCache d f).tile i = s.tile i := rfl
@[simp] theorem State.modCache_part (d : Nat) (f : Cache → Cache) (i : Nat) : (s.modCache d f).part i = s.part i := rfl
@[simp] theorem State.modCache_core (d : Nat) (f : Cache → Cache) (i : Nat) : (s.modCache d f).core i = s.core i := rfl
@[simp] theorem State.modCache_stk (d : Nat) (f : Cache → Cache) (i : Nat) : (s.modCache d f).stk i = s.stk i := rfl
@[simp] theorem State.modCache_fn (d : Nat) (f : Cache → Cache) (i : Nat) : (s.modCache d f).fn i = s.fn i := rfl
@[simp] theorem State.modCache_port (d : Nat) (f : Cache → Cache) (i : Nat) : (s.modCache d f).port i = s.port i := rfl
@[simp] theorem State.modCache_coll (d : Nat) (f : Cache → Cache) (i : Nat) : (s.modCache d f).coll i = s.coll i := rfl
@[simp] theorem State.modCache_cache (d : Nat) (f : Cache → Cache) (i : Nat) :
    (s.modCache d f).cache i = if i = d then f (s.cache d) else s.cache i := smGet_smSet _ _ _ _ _

/-! ### modFn -/

@[simp] theorem State.modFn_pending (n : Nat) (f : Fn → Fn) : (s.modFn n f).pending = s.pending := rfl
@[simp] theorem State.modFn_now (n : Nat) (f : Fn → Fn) : (s.modFn n f).now = s.now := rfl
@[simp] theorem State.modFn_free (n : Nat) (f : Fn → Fn) : (s.modFn n f).free = s.free := rfl
@[simp] theorem State.modFn_mem (n : Nat) (f : Fn → Fn) : (s.modFn n f).mem = s.mem := rfl
@[simp] theorem State.modFn_poison (n : Nat) (f : Fn → Fn) : (s.modFn n f).poison = s.poison := rfl
@[simp] theorem State.modFn_withdrawn (n : Nat) (f : Fn → Fn) : (s.modFn n f).withdrawn = s.withdrawn := rfl
@[simp] theorem State.modFn_seqs (n : Nat) (f : Fn → Fn) : (s.modFn n f).seqs = s.seqs := rfl
@[simp] theorem State.modFn_tiles (n : Nat) (f : Fn → Fn) : (s.modFn n f).tiles = s.tiles := rfl
@[simp] theorem State.modFn_parts (n : Nat) (f : Fn → Fn) : (s.modFn n f).parts = s.parts := rfl
@[simp] theorem State.modFn_memc (n : Nat) (f : Fn → Fn) : (s.modFn n f).memc = s.memc := rfl
@[simp] theorem State.modFn_epMem (n : Nat) (f : Fn → Fn) : (s.modFn n f).epMem = s.epMem := rfl
@[simp] theorem State.modFn_img (n : Nat) (f : Fn → Fn) : (s.modFn n f).img = s.img := rfl
@[simp] theorem State.modFn_owner (n : Nat) (f : Fn → Fn) : (s.modFn n f).owner = s.owner := rfl
@[simp] theorem State.modFn_fab (n : Nat) (f : Fn → Fn) : (s.modFn n f).fab = s.fab := rfl
@[simp] theorem State.modFn_sec (n : Nat) (f : Fn → Fn) : (s.modFn n f).sec = s.sec := rfl
@[simp] theorem State.modFn_pwr (n : Nat) (f : Fn → Fn) : (s.modFn n f).pwr = s.pwr := rfl
@[simp] theorem State.modFn_ras (n : Nat) (f : Fn → Fn) : (s.modFn n f).ras = s.ras := rfl
@[simp] theorem State.modFn_cores (n : Nat) (f : Fn → Fn) : (s.modFn n f).cores = s.cores := rfl
@[simp] theorem State.modFn_fw (n : Nat) (f : Fn → Fn) : (s.modFn n f).fw = s.fw := rfl
@[simp] theorem State.modFn_test (n : Nat) (f : Fn → Fn) : (s.modFn n f).test = s.test := rfl
@[simp] theorem State.modFn_progressLimit (n : Nat) (f : Fn → Fn) : (s.modFn n f).progressLimit = s.progressLimit := rfl
@[simp] theorem State.modFn_pins (n : Nat) (f : Fn → Fn) : (s.modFn n f).pins = s.pins := rfl
@[simp] theorem State.modFn_host_speed (n : Nat) (f : Fn → Fn) : (s.modFn n f).host.speed = s.host.speed := rfl
@[simp] theorem State.modFn_host_width (n : Nat) (f : Fn → Fn) : (s.modFn n f).host.width = s.host.width := rfl
@[simp] theorem State.modFn_host_mode (n : Nat) (f : Fn → Fn) : (s.modFn n f).host.mode = s.host.mode := rfl
@[simp] theorem State.modFn_host_numVf (n : Nat) (f : Fn → Fn) : (s.modFn n f).host.numVf = s.host.numVf := rfl
@[simp] theorem State.modFn_host_latTol (n : Nat) (f : Fn → Fn) : (s.modFn n f).host.latTol = s.host.latTol := rfl
@[simp] theorem State.modFn_host_ltrValue (n : Nat) (f : Fn → Fn) : (s.modFn n f).host.ltrValue = s.host.ltrValue := rfl
@[simp] theorem State.modFn_host_ltrScale (n : Nat) (f : Fn → Fn) : (s.modFn n f).host.ltrScale = s.host.ltrScale := rfl
@[simp] theorem State.modFn_host_ltrReq (n : Nat) (f : Fn → Fn) : (s.modFn n f).host.ltrReq = s.host.ltrReq := rfl
@[simp] theorem State.modFn_host_errCode (n : Nat) (f : Fn → Fn) : (s.modFn n f).host.errCode = s.host.errCode := rfl
@[simp] theorem State.modFn_host_errFn (n : Nat) (f : Fn → Fn) : (s.modFn n f).host.errFn = s.host.errFn := rfl
@[simp] theorem State.modFn_host_fetches (n : Nat) (f : Fn → Fn) : (s.modFn n f).host.fetches = s.host.fetches := rfl
@[simp] theorem State.modFn_host_mem (n : Nat) (f : Fn → Fn) : (s.modFn n f).host.mem = s.host.mem := rfl
@[simp] theorem State.modFn_host_msix (n : Nat) (f : Fn → Fn) : (s.modFn n f).host.msix = s.host.msix := rfl
@[simp] theorem State.modFn_host_readData (n : Nat) (f : Fn → Fn) : (s.modFn n f).host.readData = s.host.readData := rfl
@[simp] theorem State.modFn_seq (n : Nat) (f : Fn → Fn) (i : Nat) : (s.modFn n f).seq i = s.seq i := rfl
@[simp] theorem State.modFn_tile (n : Nat) (f : Fn → Fn) (i : Nat) : (s.modFn n f).tile i = s.tile i := rfl
@[simp] theorem State.modFn_part (n : Nat) (f : Fn → Fn) (i : Nat) : (s.modFn n f).part i = s.part i := rfl
@[simp] theorem State.modFn_core (n : Nat) (f : Fn → Fn) (i : Nat) : (s.modFn n f).core i = s.core i := rfl
@[simp] theorem State.modFn_stk (n : Nat) (f : Fn → Fn) (i : Nat) : (s.modFn n f).stk i = s.stk i := rfl
@[simp] theorem State.modFn_cache (n : Nat) (f : Fn → Fn) (i : Nat) : (s.modFn n f).cache i = s.cache i := rfl
@[simp] theorem State.modFn_port (n : Nat) (f : Fn → Fn) (i : Nat) : (s.modFn n f).port i = s.port i := rfl
@[simp] theorem State.modFn_coll (n : Nat) (f : Fn → Fn) (i : Nat) : (s.modFn n f).coll i = s.coll i := rfl
@[simp] theorem State.modFn_fn (n : Nat) (f : Fn → Fn) (i : Nat) :
    (s.modFn n f).fn i = if i = n then f (s.fn n) else s.fn i := smGet_smSet _ _ _ _ _

/-! ### modQp -/

@[simp] theorem State.modQp_pending (n q : Nat) (f : QPair → QPair) : (s.modQp n q f).pending = s.pending := rfl
@[simp] theorem State.modQp_now (n q : Nat) (f : QPair → QPair) : (s.modQp n q f).now = s.now := rfl
@[simp] theorem State.modQp_free (n q : Nat) (f : QPair → QPair) : (s.modQp n q f).free = s.free := rfl
@[simp] theorem State.modQp_mem (n q : Nat) (f : QPair → QPair) : (s.modQp n q f).mem = s.mem := rfl
@[simp] theorem State.modQp_poison (n q : Nat) (f : QPair → QPair) : (s.modQp n q f).poison = s.poison := rfl
@[simp] theorem State.modQp_withdrawn (n q : Nat) (f : QPair → QPair) : (s.modQp n q f).withdrawn = s.withdrawn := rfl
@[simp] theorem State.modQp_seqs (n q : Nat) (f : QPair → QPair) : (s.modQp n q f).seqs = s.seqs := rfl
@[simp] theorem State.modQp_tiles (n q : Nat) (f : QPair → QPair) : (s.modQp n q f).tiles = s.tiles := rfl
@[simp] theorem State.modQp_parts (n q : Nat) (f : QPair → QPair) : (s.modQp n q f).parts = s.parts := rfl
@[simp] theorem State.modQp_memc (n q : Nat) (f : QPair → QPair) : (s.modQp n q f).memc = s.memc := rfl
@[simp] theorem State.modQp_epMem (n q : Nat) (f : QPair → QPair) : (s.modQp n q f).epMem = s.epMem := rfl
@[simp] theorem State.modQp_img (n q : Nat) (f : QPair → QPair) : (s.modQp n q f).img = s.img := rfl
@[simp] theorem State.modQp_owner (n q : Nat) (f : QPair → QPair) : (s.modQp n q f).owner = s.owner := rfl
@[simp] theorem State.modQp_fab (n q : Nat) (f : QPair → QPair) : (s.modQp n q f).fab = s.fab := rfl
@[simp] theorem State.modQp_sec (n q : Nat) (f : QPair → QPair) : (s.modQp n q f).sec = s.sec := rfl
@[simp] theorem State.modQp_pwr (n q : Nat) (f : QPair → QPair) : (s.modQp n q f).pwr = s.pwr := rfl
@[simp] theorem State.modQp_ras (n q : Nat) (f : QPair → QPair) : (s.modQp n q f).ras = s.ras := rfl
@[simp] theorem State.modQp_cores (n q : Nat) (f : QPair → QPair) : (s.modQp n q f).cores = s.cores := rfl
@[simp] theorem State.modQp_fw (n q : Nat) (f : QPair → QPair) : (s.modQp n q f).fw = s.fw := rfl
@[simp] theorem State.modQp_test (n q : Nat) (f : QPair → QPair) : (s.modQp n q f).test = s.test := rfl
@[simp] theorem State.modQp_progressLimit (n q : Nat) (f : QPair → QPair) : (s.modQp n q f).progressLimit = s.progressLimit := rfl
@[simp] theorem State.modQp_pins (n q : Nat) (f : QPair → QPair) : (s.modQp n q f).pins = s.pins := rfl
@[simp] theorem State.modQp_host_speed (n q : Nat) (f : QPair → QPair) : (s.modQp n q f).host.speed = s.host.speed := rfl
@[simp] theorem State.modQp_host_width (n q : Nat) (f : QPair → QPair) : (s.modQp n q f).host.width = s.host.width := rfl
@[simp] theorem State.modQp_host_mode (n q : Nat) (f : QPair → QPair) : (s.modQp n q f).host.mode = s.host.mode := rfl
@[simp] theorem State.modQp_host_numVf (n q : Nat) (f : QPair → QPair) : (s.modQp n q f).host.numVf = s.host.numVf := rfl
@[simp] theorem State.modQp_host_latTol (n q : Nat) (f : QPair → QPair) : (s.modQp n q f).host.latTol = s.host.latTol := rfl
@[simp] theorem State.modQp_host_ltrValue (n q : Nat) (f : QPair → QPair) : (s.modQp n q f).host.ltrValue = s.host.ltrValue := rfl
@[simp] theorem State.modQp_host_ltrScale (n q : Nat) (f : QPair → QPair) : (s.modQp n q f).host.ltrScale = s.host.ltrScale := rfl
@[simp] theorem State.modQp_host_ltrReq (n q : Nat) (f : QPair → QPair) : (s.modQp n q f).host.ltrReq = s.host.ltrReq := rfl
@[simp] theorem State.modQp_host_errCode (n q : Nat) (f : QPair → QPair) : (s.modQp n q f).host.errCode = s.host.errCode := rfl
@[simp] theorem State.modQp_host_errFn (n q : Nat) (f : QPair → QPair) : (s.modQp n q f).host.errFn = s.host.errFn := rfl
@[simp] theorem State.modQp_host_fetches (n q : Nat) (f : QPair → QPair) : (s.modQp n q f).host.fetches = s.host.fetches := rfl
@[simp] theorem State.modQp_host_mem (n q : Nat) (f : QPair → QPair) : (s.modQp n q f).host.mem = s.host.mem := rfl
@[simp] theorem State.modQp_host_msix (n q : Nat) (f : QPair → QPair) : (s.modQp n q f).host.msix = s.host.msix := rfl
@[simp] theorem State.modQp_host_readData (n q : Nat) (f : QPair → QPair) : (s.modQp n q f).host.readData = s.host.readData := rfl
@[simp] theorem State.modQp_seq (n q : Nat) (f : QPair → QPair) (i : Nat) : (s.modQp n q f).seq i = s.seq i := rfl
@[simp] theorem State.modQp_tile (n q : Nat) (f : QPair → QPair) (i : Nat) : (s.modQp n q f).tile i = s.tile i := rfl
@[simp] theorem State.modQp_part (n q : Nat) (f : QPair → QPair) (i : Nat) : (s.modQp n q f).part i = s.part i := rfl
@[simp] theorem State.modQp_core (n q : Nat) (f : QPair → QPair) (i : Nat) : (s.modQp n q f).core i = s.core i := rfl
@[simp] theorem State.modQp_stk (n q : Nat) (f : QPair → QPair) (i : Nat) : (s.modQp n q f).stk i = s.stk i := rfl
@[simp] theorem State.modQp_cache (n q : Nat) (f : QPair → QPair) (i : Nat) : (s.modQp n q f).cache i = s.cache i := rfl
@[simp] theorem State.modQp_port (n q : Nat) (f : QPair → QPair) (i : Nat) : (s.modQp n q f).port i = s.port i := rfl
@[simp] theorem State.modQp_coll (n q : Nat) (f : QPair → QPair) (i : Nat) : (s.modQp n q f).coll i = s.coll i := rfl
@[simp] theorem State.modQp_fn_of_ne (n q : Nat) (f : QPair → QPair) (i : Nat) (h : i ≠ n) :
    (s.modQp n q f).fn i = s.fn i := by
  unfold State.modQp; rw [State.modFn_fn, if_neg h]
@[simp] theorem State.modQp_qp (n q : Nat) (f : QPair → QPair) (i j : Nat) :
    (s.modQp n q f).qp i j = if i = n ∧ j = q then f (s.qp n q) else s.qp i j := by
  unfold State.qp State.modQp
  rw [State.modFn_fn]
  by_cases hi : i = n
  · subst hi; simp
  · simp [hi]

/-! ### modPort -/

@[simp] theorem State.modPort_pending (n : Nat) (f : Port → Port) : (s.modPort n f).pending = s.pending := rfl
@[simp] theorem State.modPort_now (n : Nat) (f : Port → Port) : (s.modPort n f).now = s.now := rfl
@[simp] theorem State.modPort_free (n : Nat) (f : Port → Port) : (s.modPort n f).free = s.free := rfl
@[simp] theorem State.modPort_mem (n : Nat) (f : Port → Port) : (s.modPort n f).mem = s.mem := rfl
@[simp] theorem State.modPort_poison (n : Nat) (f : Port → Port) : (s.modPort n f).poison = s.poison := rfl
@[simp] theorem State.modPort_withdrawn (n : Nat) (f : Port → Port) : (s.modPort n f).withdrawn = s.withdrawn := rfl
@[simp] theorem State.modPort_seqs (n : Nat) (f : Port → Port) : (s.modPort n f).seqs = s.seqs := rfl
@[simp] theorem State.modPort_tiles (n : Nat) (f : Port → Port) : (s.modPort n f).tiles = s.tiles := rfl
@[simp] theorem State.modPort_parts (n : Nat) (f : Port → Port) : (s.modPort n f).parts = s.parts := rfl
@[simp] theorem State.modPort_memc (n : Nat) (f : Port → Port) : (s.modPort n f).memc = s.memc := rfl
@[simp] theorem State.modPort_epMem (n : Nat) (f : Port → Port) : (s.modPort n f).epMem = s.epMem := rfl
@[simp] theorem State.modPort_img (n : Nat) (f : Port → Port) : (s.modPort n f).img = s.img := rfl
@[simp] theorem State.modPort_owner (n : Nat) (f : Port → Port) : (s.modPort n f).owner = s.owner := rfl
@[simp] theorem State.modPort_host (n : Nat) (f : Port → Port) : (s.modPort n f).host = s.host := rfl
@[simp] theorem State.modPort_sec (n : Nat) (f : Port → Port) : (s.modPort n f).sec = s.sec := rfl
@[simp] theorem State.modPort_pwr (n : Nat) (f : Port → Port) : (s.modPort n f).pwr = s.pwr := rfl
@[simp] theorem State.modPort_ras (n : Nat) (f : Port → Port) : (s.modPort n f).ras = s.ras := rfl
@[simp] theorem State.modPort_cores (n : Nat) (f : Port → Port) : (s.modPort n f).cores = s.cores := rfl
@[simp] theorem State.modPort_fw (n : Nat) (f : Port → Port) : (s.modPort n f).fw = s.fw := rfl
@[simp] theorem State.modPort_test (n : Nat) (f : Port → Port) : (s.modPort n f).test = s.test := rfl
@[simp] theorem State.modPort_progressLimit (n : Nat) (f : Port → Port) : (s.modPort n f).progressLimit = s.progressLimit := rfl
@[simp] theorem State.modPort_pins (n : Nat) (f : Port → Port) : (s.modPort n f).pins = s.pins := rfl
@[simp] theorem State.modPort_fab_cfg (n : Nat) (f : Port → Port) : (s.modPort n f).fab.cfg = s.fab.cfg := rfl
@[simp] theorem State.modPort_fab_jobState (n : Nat) (f : Port → Port) : (s.modPort n f).fab.jobState = s.fab.jobState := rfl
@[simp] theorem State.modPort_fab_jobFreq (n : Nat) (f : Port → Port) : (s.modPort n f).fab.jobFreq = s.fab.jobFreq := rfl
@[simp] theorem State.modPort_fab_ownCeiling (n : Nat) (f : Port → Port) : (s.modPort n f).fab.ownCeiling = s.fab.ownCeiling := rfl
@[simp] theorem State.modPort_fab_epochLow (n : Nat) (f : Port → Port) : (s.modPort n f).fab.epochLow = s.fab.epochLow := rfl
@[simp] theorem State.modPort_fab_epochNo (n : Nat) (f : Port → Port) : (s.modPort n f).fab.epochNo = s.fab.epochNo := rfl
@[simp] theorem State.modPort_fab_lastEpoch (n : Nat) (f : Port → Port) : (s.modPort n f).fab.lastEpoch = s.fab.lastEpoch := rfl
@[simp] theorem State.modPort_fab_lockLost (n : Nat) (f : Port → Port) : (s.modPort n f).fab.lockLost = s.fab.lockLost := rfl
@[simp] theorem State.modPort_fab_collLimit (n : Nat) (f : Port → Port) : (s.modPort n f).fab.collLimit = s.fab.collLimit := rfl
@[simp] theorem State.modPort_fab_joinLimit (n : Nat) (f : Port → Port) : (s.modPort n f).fab.joinLimit = s.fab.joinLimit := rfl
@[simp] theorem State.modPort_fab_dup (n : Nat) (f : Port → Port) : (s.modPort n f).fab.dup = s.fab.dup := rfl
@[simp] theorem State.modPort_fab_childCeil (n : Nat) (f : Port → Port) : (s.modPort n f).fab.childCeil = s.fab.childCeil := rfl
@[simp] theorem State.modPort_fab_childJoin (n : Nat) (f : Port → Port) : (s.modPort n f).fab.childJoin = s.fab.childJoin := rfl
@[simp] theorem State.modPort_fab_sentCeil (n : Nat) (f : Port → Port) : (s.modPort n f).fab.sentCeil = s.fab.sentCeil := rfl
@[simp] theorem State.modPort_fab_joinSince (n : Nat) (f : Port → Port) : (s.modPort n f).fab.joinSince = s.fab.joinSince := rfl
@[simp] theorem State.modPort_fab_joining (n : Nat) (f : Port → Port) : (s.modPort n f).fab.joining = s.fab.joining := rfl
@[simp] theorem State.modPort_fab_aborts (n : Nat) (f : Port → Port) : (s.modPort n f).fab.aborts = s.fab.aborts := rfl
@[simp] theorem State.modPort_fab_colls (n : Nat) (f : Port → Port) : (s.modPort n f).fab.colls = s.fab.colls := rfl
@[simp] theorem State.modPort_fab_peers (n : Nat) (f : Port → Port) : (s.modPort n f).fab.peers = s.fab.peers := rfl
@[simp] theorem State.modPort_fab_out (n : Nat) (f : Port → Port) : (s.modPort n f).fab.out = s.fab.out := rfl
@[simp] theorem State.modPort_seq (n : Nat) (f : Port → Port) (i : Nat) : (s.modPort n f).seq i = s.seq i := rfl
@[simp] theorem State.modPort_tile (n : Nat) (f : Port → Port) (i : Nat) : (s.modPort n f).tile i = s.tile i := rfl
@[simp] theorem State.modPort_part (n : Nat) (f : Port → Port) (i : Nat) : (s.modPort n f).part i = s.part i := rfl
@[simp] theorem State.modPort_core (n : Nat) (f : Port → Port) (i : Nat) : (s.modPort n f).core i = s.core i := rfl
@[simp] theorem State.modPort_stk (n : Nat) (f : Port → Port) (i : Nat) : (s.modPort n f).stk i = s.stk i := rfl
@[simp] theorem State.modPort_cache (n : Nat) (f : Port → Port) (i : Nat) : (s.modPort n f).cache i = s.cache i := rfl
@[simp] theorem State.modPort_fn (n : Nat) (f : Port → Port) (i : Nat) : (s.modPort n f).fn i = s.fn i := rfl
@[simp] theorem State.modPort_coll (n : Nat) (f : Port → Port) (i : Nat) : (s.modPort n f).coll i = s.coll i := rfl
@[simp] theorem State.modPort_port (n : Nat) (f : Port → Port) (i : Nat) :
    (s.modPort n f).port i = if i = n then f (s.port n) else s.port i := smGet_smSet _ _ _ _ _

/-! ### modColl -/

@[simp] theorem State.modColl_pending (c : Nat) (f : Coll → Coll) : (s.modColl c f).pending = s.pending := rfl
@[simp] theorem State.modColl_now (c : Nat) (f : Coll → Coll) : (s.modColl c f).now = s.now := rfl
@[simp] theorem State.modColl_free (c : Nat) (f : Coll → Coll) : (s.modColl c f).free = s.free := rfl
@[simp] theorem State.modColl_mem (c : Nat) (f : Coll → Coll) : (s.modColl c f).mem = s.mem := rfl
@[simp] theorem State.modColl_poison (c : Nat) (f : Coll → Coll) : (s.modColl c f).poison = s.poison := rfl
@[simp] theorem State.modColl_withdrawn (c : Nat) (f : Coll → Coll) : (s.modColl c f).withdrawn = s.withdrawn := rfl
@[simp] theorem State.modColl_seqs (c : Nat) (f : Coll → Coll) : (s.modColl c f).seqs = s.seqs := rfl
@[simp] theorem State.modColl_tiles (c : Nat) (f : Coll → Coll) : (s.modColl c f).tiles = s.tiles := rfl
@[simp] theorem State.modColl_parts (c : Nat) (f : Coll → Coll) : (s.modColl c f).parts = s.parts := rfl
@[simp] theorem State.modColl_memc (c : Nat) (f : Coll → Coll) : (s.modColl c f).memc = s.memc := rfl
@[simp] theorem State.modColl_epMem (c : Nat) (f : Coll → Coll) : (s.modColl c f).epMem = s.epMem := rfl
@[simp] theorem State.modColl_img (c : Nat) (f : Coll → Coll) : (s.modColl c f).img = s.img := rfl
@[simp] theorem State.modColl_owner (c : Nat) (f : Coll → Coll) : (s.modColl c f).owner = s.owner := rfl
@[simp] theorem State.modColl_host (c : Nat) (f : Coll → Coll) : (s.modColl c f).host = s.host := rfl
@[simp] theorem State.modColl_sec (c : Nat) (f : Coll → Coll) : (s.modColl c f).sec = s.sec := rfl
@[simp] theorem State.modColl_pwr (c : Nat) (f : Coll → Coll) : (s.modColl c f).pwr = s.pwr := rfl
@[simp] theorem State.modColl_ras (c : Nat) (f : Coll → Coll) : (s.modColl c f).ras = s.ras := rfl
@[simp] theorem State.modColl_cores (c : Nat) (f : Coll → Coll) : (s.modColl c f).cores = s.cores := rfl
@[simp] theorem State.modColl_fw (c : Nat) (f : Coll → Coll) : (s.modColl c f).fw = s.fw := rfl
@[simp] theorem State.modColl_test (c : Nat) (f : Coll → Coll) : (s.modColl c f).test = s.test := rfl
@[simp] theorem State.modColl_progressLimit (c : Nat) (f : Coll → Coll) : (s.modColl c f).progressLimit = s.progressLimit := rfl
@[simp] theorem State.modColl_pins (c : Nat) (f : Coll → Coll) : (s.modColl c f).pins = s.pins := rfl
@[simp] theorem State.modColl_fab_cfg (c : Nat) (f : Coll → Coll) : (s.modColl c f).fab.cfg = s.fab.cfg := rfl
@[simp] theorem State.modColl_fab_ports (c : Nat) (f : Coll → Coll) : (s.modColl c f).fab.ports = s.fab.ports := rfl
@[simp] theorem State.modColl_fab_jobState (c : Nat) (f : Coll → Coll) : (s.modColl c f).fab.jobState = s.fab.jobState := rfl
@[simp] theorem State.modColl_fab_jobFreq (c : Nat) (f : Coll → Coll) : (s.modColl c f).fab.jobFreq = s.fab.jobFreq := rfl
@[simp] theorem State.modColl_fab_ownCeiling (c : Nat) (f : Coll → Coll) : (s.modColl c f).fab.ownCeiling = s.fab.ownCeiling := rfl
@[simp] theorem State.modColl_fab_epochLow (c : Nat) (f : Coll → Coll) : (s.modColl c f).fab.epochLow = s.fab.epochLow := rfl
@[simp] theorem State.modColl_fab_epochNo (c : Nat) (f : Coll → Coll) : (s.modColl c f).fab.epochNo = s.fab.epochNo := rfl
@[simp] theorem State.modColl_fab_lastEpoch (c : Nat) (f : Coll → Coll) : (s.modColl c f).fab.lastEpoch = s.fab.lastEpoch := rfl
@[simp] theorem State.modColl_fab_lockLost (c : Nat) (f : Coll → Coll) : (s.modColl c f).fab.lockLost = s.fab.lockLost := rfl
@[simp] theorem State.modColl_fab_collLimit (c : Nat) (f : Coll → Coll) : (s.modColl c f).fab.collLimit = s.fab.collLimit := rfl
@[simp] theorem State.modColl_fab_joinLimit (c : Nat) (f : Coll → Coll) : (s.modColl c f).fab.joinLimit = s.fab.joinLimit := rfl
@[simp] theorem State.modColl_fab_dup (c : Nat) (f : Coll → Coll) : (s.modColl c f).fab.dup = s.fab.dup := rfl
@[simp] theorem State.modColl_fab_childCeil (c : Nat) (f : Coll → Coll) : (s.modColl c f).fab.childCeil = s.fab.childCeil := rfl
@[simp] theorem State.modColl_fab_childJoin (c : Nat) (f : Coll → Coll) : (s.modColl c f).fab.childJoin = s.fab.childJoin := rfl
@[simp] theorem State.modColl_fab_sentCeil (c : Nat) (f : Coll → Coll) : (s.modColl c f).fab.sentCeil = s.fab.sentCeil := rfl
@[simp] theorem State.modColl_fab_joinSince (c : Nat) (f : Coll → Coll) : (s.modColl c f).fab.joinSince = s.fab.joinSince := rfl
@[simp] theorem State.modColl_fab_joining (c : Nat) (f : Coll → Coll) : (s.modColl c f).fab.joining = s.fab.joining := rfl
@[simp] theorem State.modColl_fab_aborts (c : Nat) (f : Coll → Coll) : (s.modColl c f).fab.aborts = s.fab.aborts := rfl
@[simp] theorem State.modColl_fab_peers (c : Nat) (f : Coll → Coll) : (s.modColl c f).fab.peers = s.fab.peers := rfl
@[simp] theorem State.modColl_fab_out (c : Nat) (f : Coll → Coll) : (s.modColl c f).fab.out = s.fab.out := rfl
@[simp] theorem State.modColl_seq (c : Nat) (f : Coll → Coll) (i : Nat) : (s.modColl c f).seq i = s.seq i := rfl
@[simp] theorem State.modColl_tile (c : Nat) (f : Coll → Coll) (i : Nat) : (s.modColl c f).tile i = s.tile i := rfl
@[simp] theorem State.modColl_part (c : Nat) (f : Coll → Coll) (i : Nat) : (s.modColl c f).part i = s.part i := rfl
@[simp] theorem State.modColl_core (c : Nat) (f : Coll → Coll) (i : Nat) : (s.modColl c f).core i = s.core i := rfl
@[simp] theorem State.modColl_stk (c : Nat) (f : Coll → Coll) (i : Nat) : (s.modColl c f).stk i = s.stk i := rfl
@[simp] theorem State.modColl_cache (c : Nat) (f : Coll → Coll) (i : Nat) : (s.modColl c f).cache i = s.cache i := rfl
@[simp] theorem State.modColl_fn (c : Nat) (f : Coll → Coll) (i : Nat) : (s.modColl c f).fn i = s.fn i := rfl
@[simp] theorem State.modColl_port (c : Nat) (f : Coll → Coll) (i : Nat) : (s.modColl c f).port i = s.port i := rfl
@[simp] theorem State.modColl_coll (c : Nat) (f : Coll → Coll) (i : Nat) :
    (s.modColl c f).coll i = if i = c then f (s.coll c) else s.coll i := smGet_smSet _ _ _ _ _

/-! ### modLedger -/

@[simp] theorem State.modLedger_pending (p : Nat) (f : Ledger → Ledger) : (s.modLedger p f).pending = s.pending := rfl
@[simp] theorem State.modLedger_now (p : Nat) (f : Ledger → Ledger) : (s.modLedger p f).now = s.now := rfl
@[simp] theorem State.modLedger_free (p : Nat) (f : Ledger → Ledger) : (s.modLedger p f).free = s.free := rfl
@[simp] theorem State.modLedger_mem (p : Nat) (f : Ledger → Ledger) : (s.modLedger p f).mem = s.mem := rfl
@[simp] theorem State.modLedger_poison (p : Nat) (f : Ledger → Ledger) : (s.modLedger p f).poison = s.poison := rfl
@[simp] theorem State.modLedger_withdrawn (p : Nat) (f : Ledger → Ledger) : (s.modLedger p f).withdrawn = s.withdrawn := rfl
@[simp] theorem State.modLedger_seqs (p : Nat) (f : Ledger → Ledger) : (s.modLedger p f).seqs = s.seqs := rfl
@[simp] theorem State.modLedger_tiles (p : Nat) (f : Ledger → Ledger) : (s.modLedger p f).tiles = s.tiles := rfl
@[simp] theorem State.modLedger_memc (p : Nat) (f : Ledger → Ledger) : (s.modLedger p f).memc = s.memc := rfl
@[simp] theorem State.modLedger_epMem (p : Nat) (f : Ledger → Ledger) : (s.modLedger p f).epMem = s.epMem := rfl
@[simp] theorem State.modLedger_img (p : Nat) (f : Ledger → Ledger) : (s.modLedger p f).img = s.img := rfl
@[simp] theorem State.modLedger_owner (p : Nat) (f : Ledger → Ledger) : (s.modLedger p f).owner = s.owner := rfl
@[simp] theorem State.modLedger_fab (p : Nat) (f : Ledger → Ledger) : (s.modLedger p f).fab = s.fab := rfl
@[simp] theorem State.modLedger_host (p : Nat) (f : Ledger → Ledger) : (s.modLedger p f).host = s.host := rfl
@[simp] theorem State.modLedger_sec (p : Nat) (f : Ledger → Ledger) : (s.modLedger p f).sec = s.sec := rfl
@[simp] theorem State.modLedger_pwr (p : Nat) (f : Ledger → Ledger) : (s.modLedger p f).pwr = s.pwr := rfl
@[simp] theorem State.modLedger_ras (p : Nat) (f : Ledger → Ledger) : (s.modLedger p f).ras = s.ras := rfl
@[simp] theorem State.modLedger_cores (p : Nat) (f : Ledger → Ledger) : (s.modLedger p f).cores = s.cores := rfl
@[simp] theorem State.modLedger_fw (p : Nat) (f : Ledger → Ledger) : (s.modLedger p f).fw = s.fw := rfl
@[simp] theorem State.modLedger_test (p : Nat) (f : Ledger → Ledger) : (s.modLedger p f).test = s.test := rfl
@[simp] theorem State.modLedger_progressLimit (p : Nat) (f : Ledger → Ledger) : (s.modLedger p f).progressLimit = s.progressLimit := rfl
@[simp] theorem State.modLedger_pins (p : Nat) (f : Ledger → Ledger) : (s.modLedger p f).pins = s.pins := rfl
@[simp] theorem State.modLedger_seq (p : Nat) (f : Ledger → Ledger) (i : Nat) : (s.modLedger p f).seq i = s.seq i := rfl
@[simp] theorem State.modLedger_tile (p : Nat) (f : Ledger → Ledger) (i : Nat) : (s.modLedger p f).tile i = s.tile i := rfl
@[simp] theorem State.modLedger_core (p : Nat) (f : Ledger → Ledger) (i : Nat) : (s.modLedger p f).core i = s.core i := rfl
@[simp] theorem State.modLedger_stk (p : Nat) (f : Ledger → Ledger) (i : Nat) : (s.modLedger p f).stk i = s.stk i := rfl
@[simp] theorem State.modLedger_cache (p : Nat) (f : Ledger → Ledger) (i : Nat) : (s.modLedger p f).cache i = s.cache i := rfl
@[simp] theorem State.modLedger_fn (p : Nat) (f : Ledger → Ledger) (i : Nat) : (s.modLedger p f).fn i = s.fn i := rfl
@[simp] theorem State.modLedger_port (p : Nat) (f : Ledger → Ledger) (i : Nat) : (s.modLedger p f).port i = s.port i := rfl
@[simp] theorem State.modLedger_coll (p : Nat) (f : Ledger → Ledger) (i : Nat) : (s.modLedger p f).coll i = s.coll i := rfl
@[simp] theorem State.modLedger_part (p : Nat) (f : Ledger → Ledger) (i : Nat) :
    (s.modLedger p f).part i = if i = p then { s.part p with ledger := f (s.part p).ledger } else s.part i :=
  smGet_smSet _ _ _ _ _

/-! ### modMsg -/

@[simp] theorem State.modMsg_pending (p : Nat) (f : MsgState → MsgState) : (s.modMsg p f).pending = s.pending := rfl
@[simp] theorem State.modMsg_now (p : Nat) (f : MsgState → MsgState) : (s.modMsg p f).now = s.now := rfl
@[simp] theorem State.modMsg_free (p : Nat) (f : MsgState → MsgState) : (s.modMsg p f).free = s.free := rfl
@[simp] theorem State.modMsg_mem (p : Nat) (f : MsgState → MsgState) : (s.modMsg p f).mem = s.mem := rfl
@[simp] theorem State.modMsg_poison (p : Nat) (f : MsgState → MsgState) : (s.modMsg p f).poison = s.poison := rfl
@[simp] theorem State.modMsg_withdrawn (p : Nat) (f : MsgState → MsgState) : (s.modMsg p f).withdrawn = s.withdrawn := rfl
@[simp] theorem State.modMsg_seqs (p : Nat) (f : MsgState → MsgState) : (s.modMsg p f).seqs = s.seqs := rfl
@[simp] theorem State.modMsg_tiles (p : Nat) (f : MsgState → MsgState) : (s.modMsg p f).tiles = s.tiles := rfl
@[simp] theorem State.modMsg_memc (p : Nat) (f : MsgState → MsgState) : (s.modMsg p f).memc = s.memc := rfl
@[simp] theorem State.modMsg_epMem (p : Nat) (f : MsgState → MsgState) : (s.modMsg p f).epMem = s.epMem := rfl
@[simp] theorem State.modMsg_img (p : Nat) (f : MsgState → MsgState) : (s.modMsg p f).img = s.img := rfl
@[simp] theorem State.modMsg_owner (p : Nat) (f : MsgState → MsgState) : (s.modMsg p f).owner = s.owner := rfl
@[simp] theorem State.modMsg_fab (p : Nat) (f : MsgState → MsgState) : (s.modMsg p f).fab = s.fab := rfl
@[simp] theorem State.modMsg_host (p : Nat) (f : MsgState → MsgState) : (s.modMsg p f).host = s.host := rfl
@[simp] theorem State.modMsg_sec (p : Nat) (f : MsgState → MsgState) : (s.modMsg p f).sec = s.sec := rfl
@[simp] theorem State.modMsg_pwr (p : Nat) (f : MsgState → MsgState) : (s.modMsg p f).pwr = s.pwr := rfl
@[simp] theorem State.modMsg_ras (p : Nat) (f : MsgState → MsgState) : (s.modMsg p f).ras = s.ras := rfl
@[simp] theorem State.modMsg_cores (p : Nat) (f : MsgState → MsgState) : (s.modMsg p f).cores = s.cores := rfl
@[simp] theorem State.modMsg_fw (p : Nat) (f : MsgState → MsgState) : (s.modMsg p f).fw = s.fw := rfl
@[simp] theorem State.modMsg_test (p : Nat) (f : MsgState → MsgState) : (s.modMsg p f).test = s.test := rfl
@[simp] theorem State.modMsg_progressLimit (p : Nat) (f : MsgState → MsgState) : (s.modMsg p f).progressLimit = s.progressLimit := rfl
@[simp] theorem State.modMsg_pins (p : Nat) (f : MsgState → MsgState) : (s.modMsg p f).pins = s.pins := rfl
@[simp] theorem State.modMsg_seq (p : Nat) (f : MsgState → MsgState) (i : Nat) : (s.modMsg p f).seq i = s.seq i := rfl
@[simp] theorem State.modMsg_tile (p : Nat) (f : MsgState → MsgState) (i : Nat) : (s.modMsg p f).tile i = s.tile i := rfl
@[simp] theorem State.modMsg_core (p : Nat) (f : MsgState → MsgState) (i : Nat) : (s.modMsg p f).core i = s.core i := rfl
@[simp] theorem State.modMsg_stk (p : Nat) (f : MsgState → MsgState) (i : Nat) : (s.modMsg p f).stk i = s.stk i := rfl
@[simp] theorem State.modMsg_cache (p : Nat) (f : MsgState → MsgState) (i : Nat) : (s.modMsg p f).cache i = s.cache i := rfl
@[simp] theorem State.modMsg_fn (p : Nat) (f : MsgState → MsgState) (i : Nat) : (s.modMsg p f).fn i = s.fn i := rfl
@[simp] theorem State.modMsg_port (p : Nat) (f : MsgState → MsgState) (i : Nat) : (s.modMsg p f).port i = s.port i := rfl
@[simp] theorem State.modMsg_coll (p : Nat) (f : MsgState → MsgState) (i : Nat) : (s.modMsg p f).coll i = s.coll i := rfl
@[simp] theorem State.modMsg_part (p : Nat) (f : MsgState → MsgState) (i : Nat) :
    (s.modMsg p f).part i = if i = p then { s.part p with msg := f (s.part p).msg } else s.part i :=
  smGet_smSet _ _ _ _ _

/-! ### modImg -/

@[simp] theorem State.modImg_pending (f : ImageState → ImageState) : (s.modImg f).pending = s.pending := rfl
@[simp] theorem State.modImg_now (f : ImageState → ImageState) : (s.modImg f).now = s.now := rfl
@[simp] theorem State.modImg_free (f : ImageState → ImageState) : (s.modImg f).free = s.free := rfl
@[simp] theorem State.modImg_mem (f : ImageState → ImageState) : (s.modImg f).mem = s.mem := rfl
@[simp] theorem State.modImg_poison (f : ImageState → ImageState) : (s.modImg f).poison = s.poison := rfl
@[simp] theorem State.modImg_withdrawn (f : ImageState → ImageState) : (s.modImg f).withdrawn = s.withdrawn := rfl
@[simp] theorem State.modImg_seqs (f : ImageState → ImageState) : (s.modImg f).seqs = s.seqs := rfl
@[simp] theorem State.modImg_tiles (f : ImageState → ImageState) : (s.modImg f).tiles = s.tiles := rfl
@[simp] theorem State.modImg_parts (f : ImageState → ImageState) : (s.modImg f).parts = s.parts := rfl
@[simp] theorem State.modImg_memc (f : ImageState → ImageState) : (s.modImg f).memc = s.memc := rfl
@[simp] theorem State.modImg_epMem (f : ImageState → ImageState) : (s.modImg f).epMem = s.epMem := rfl
@[simp] theorem State.modImg_owner (f : ImageState → ImageState) : (s.modImg f).owner = s.owner := rfl
@[simp] theorem State.modImg_fab (f : ImageState → ImageState) : (s.modImg f).fab = s.fab := rfl
@[simp] theorem State.modImg_host (f : ImageState → ImageState) : (s.modImg f).host = s.host := rfl
@[simp] theorem State.modImg_sec (f : ImageState → ImageState) : (s.modImg f).sec = s.sec := rfl
@[simp] theorem State.modImg_pwr (f : ImageState → ImageState) : (s.modImg f).pwr = s.pwr := rfl
@[simp] theorem State.modImg_ras (f : ImageState → ImageState) : (s.modImg f).ras = s.ras := rfl
@[simp] theorem State.modImg_cores (f : ImageState → ImageState) : (s.modImg f).cores = s.cores := rfl
@[simp] theorem State.modImg_fw (f : ImageState → ImageState) : (s.modImg f).fw = s.fw := rfl
@[simp] theorem State.modImg_test (f : ImageState → ImageState) : (s.modImg f).test = s.test := rfl
@[simp] theorem State.modImg_progressLimit (f : ImageState → ImageState) : (s.modImg f).progressLimit = s.progressLimit := rfl
@[simp] theorem State.modImg_pins (f : ImageState → ImageState) : (s.modImg f).pins = s.pins := rfl
@[simp] theorem State.modImg_seq (f : ImageState → ImageState) (i : Nat) : (s.modImg f).seq i = s.seq i := rfl
@[simp] theorem State.modImg_tile (f : ImageState → ImageState) (i : Nat) : (s.modImg f).tile i = s.tile i := rfl
@[simp] theorem State.modImg_part (f : ImageState → ImageState) (i : Nat) : (s.modImg f).part i = s.part i := rfl
@[simp] theorem State.modImg_core (f : ImageState → ImageState) (i : Nat) : (s.modImg f).core i = s.core i := rfl
@[simp] theorem State.modImg_stk (f : ImageState → ImageState) (i : Nat) : (s.modImg f).stk i = s.stk i := rfl
@[simp] theorem State.modImg_cache (f : ImageState → ImageState) (i : Nat) : (s.modImg f).cache i = s.cache i := rfl
@[simp] theorem State.modImg_fn (f : ImageState → ImageState) (i : Nat) : (s.modImg f).fn i = s.fn i := rfl
@[simp] theorem State.modImg_port (f : ImageState → ImageState) (i : Nat) : (s.modImg f).port i = s.port i := rfl
@[simp] theorem State.modImg_coll (f : ImageState → ImageState) (i : Nat) : (s.modImg f).coll i = s.coll i := rfl
@[simp] theorem State.modImg_img (f : ImageState → ImageState) : (s.modImg f).img = f s.img := rfl

/-! ### modOwner -/

@[simp] theorem State.modOwner_pending (f : OwnerState → OwnerState) : (s.modOwner f).pending = s.pending := rfl
@[simp] theorem State.modOwner_now (f : OwnerState → OwnerState) : (s.modOwner f).now = s.now := rfl
@[simp] theorem State.modOwner_free (f : OwnerState → OwnerState) : (s.modOwner f).free = s.free := rfl
@[simp] theorem State.modOwner_mem (f : OwnerState → OwnerState) : (s.modOwner f).mem = s.mem := rfl
@[simp] theorem State.modOwner_poison (f : OwnerState → OwnerState) : (s.modOwner f).poison = s.poison := rfl
@[simp] theorem State.modOwner_withdrawn (f : OwnerState → OwnerState) : (s.modOwner f).withdrawn = s.withdrawn := rfl
@[simp] theorem State.modOwner_seqs (f : OwnerState → OwnerState) : (s.modOwner f).seqs = s.seqs := rfl
@[simp] theorem State.modOwner_tiles (f : OwnerState → OwnerState) : (s.modOwner f).tiles = s.tiles := rfl
@[simp] theorem State.modOwner_parts (f : OwnerState → OwnerState) : (s.modOwner f).parts = s.parts := rfl
@[simp] theorem State.modOwner_memc (f : OwnerState → OwnerState) : (s.modOwner f).memc = s.memc := rfl
@[simp] theorem State.modOwner_epMem (f : OwnerState → OwnerState) : (s.modOwner f).epMem = s.epMem := rfl
@[simp] theorem State.modOwner_img (f : OwnerState → OwnerState) : (s.modOwner f).img = s.img := rfl
@[simp] theorem State.modOwner_fab (f : OwnerState → OwnerState) : (s.modOwner f).fab = s.fab := rfl
@[simp] theorem State.modOwner_host (f : OwnerState → OwnerState) : (s.modOwner f).host = s.host := rfl
@[simp] theorem State.modOwner_sec (f : OwnerState → OwnerState) : (s.modOwner f).sec = s.sec := rfl
@[simp] theorem State.modOwner_pwr (f : OwnerState → OwnerState) : (s.modOwner f).pwr = s.pwr := rfl
@[simp] theorem State.modOwner_ras (f : OwnerState → OwnerState) : (s.modOwner f).ras = s.ras := rfl
@[simp] theorem State.modOwner_cores (f : OwnerState → OwnerState) : (s.modOwner f).cores = s.cores := rfl
@[simp] theorem State.modOwner_fw (f : OwnerState → OwnerState) : (s.modOwner f).fw = s.fw := rfl
@[simp] theorem State.modOwner_test (f : OwnerState → OwnerState) : (s.modOwner f).test = s.test := rfl
@[simp] theorem State.modOwner_progressLimit (f : OwnerState → OwnerState) : (s.modOwner f).progressLimit = s.progressLimit := rfl
@[simp] theorem State.modOwner_pins (f : OwnerState → OwnerState) : (s.modOwner f).pins = s.pins := rfl
@[simp] theorem State.modOwner_seq (f : OwnerState → OwnerState) (i : Nat) : (s.modOwner f).seq i = s.seq i := rfl
@[simp] theorem State.modOwner_tile (f : OwnerState → OwnerState) (i : Nat) : (s.modOwner f).tile i = s.tile i := rfl
@[simp] theorem State.modOwner_part (f : OwnerState → OwnerState) (i : Nat) : (s.modOwner f).part i = s.part i := rfl
@[simp] theorem State.modOwner_core (f : OwnerState → OwnerState) (i : Nat) : (s.modOwner f).core i = s.core i := rfl
@[simp] theorem State.modOwner_stk (f : OwnerState → OwnerState) (i : Nat) : (s.modOwner f).stk i = s.stk i := rfl
@[simp] theorem State.modOwner_cache (f : OwnerState → OwnerState) (i : Nat) : (s.modOwner f).cache i = s.cache i := rfl
@[simp] theorem State.modOwner_fn (f : OwnerState → OwnerState) (i : Nat) : (s.modOwner f).fn i = s.fn i := rfl
@[simp] theorem State.modOwner_port (f : OwnerState → OwnerState) (i : Nat) : (s.modOwner f).port i = s.port i := rfl
@[simp] theorem State.modOwner_coll (f : OwnerState → OwnerState) (i : Nat) : (s.modOwner f).coll i = s.coll i := rfl
@[simp] theorem State.modOwner_owner (f : OwnerState → OwnerState) : (s.modOwner f).owner = f s.owner := rfl

/-! ### modPwr -/

@[simp] theorem State.modPwr_pending (f : PwrState → PwrState) : (s.modPwr f).pending = s.pending := rfl
@[simp] theorem State.modPwr_now (f : PwrState → PwrState) : (s.modPwr f).now = s.now := rfl
@[simp] theorem State.modPwr_free (f : PwrState → PwrState) : (s.modPwr f).free = s.free := rfl
@[simp] theorem State.modPwr_mem (f : PwrState → PwrState) : (s.modPwr f).mem = s.mem := rfl
@[simp] theorem State.modPwr_poison (f : PwrState → PwrState) : (s.modPwr f).poison = s.poison := rfl
@[simp] theorem State.modPwr_withdrawn (f : PwrState → PwrState) : (s.modPwr f).withdrawn = s.withdrawn := rfl
@[simp] theorem State.modPwr_seqs (f : PwrState → PwrState) : (s.modPwr f).seqs = s.seqs := rfl
@[simp] theorem State.modPwr_tiles (f : PwrState → PwrState) : (s.modPwr f).tiles = s.tiles := rfl
@[simp] theorem State.modPwr_parts (f : PwrState → PwrState) : (s.modPwr f).parts = s.parts := rfl
@[simp] theorem State.modPwr_memc (f : PwrState → PwrState) : (s.modPwr f).memc = s.memc := rfl
@[simp] theorem State.modPwr_epMem (f : PwrState → PwrState) : (s.modPwr f).epMem = s.epMem := rfl
@[simp] theorem State.modPwr_img (f : PwrState → PwrState) : (s.modPwr f).img = s.img := rfl
@[simp] theorem State.modPwr_owner (f : PwrState → PwrState) : (s.modPwr f).owner = s.owner := rfl
@[simp] theorem State.modPwr_fab (f : PwrState → PwrState) : (s.modPwr f).fab = s.fab := rfl
@[simp] theorem State.modPwr_host (f : PwrState → PwrState) : (s.modPwr f).host = s.host := rfl
@[simp] theorem State.modPwr_sec (f : PwrState → PwrState) : (s.modPwr f).sec = s.sec := rfl
@[simp] theorem State.modPwr_ras (f : PwrState → PwrState) : (s.modPwr f).ras = s.ras := rfl
@[simp] theorem State.modPwr_cores (f : PwrState → PwrState) : (s.modPwr f).cores = s.cores := rfl
@[simp] theorem State.modPwr_fw (f : PwrState → PwrState) : (s.modPwr f).fw = s.fw := rfl
@[simp] theorem State.modPwr_test (f : PwrState → PwrState) : (s.modPwr f).test = s.test := rfl
@[simp] theorem State.modPwr_progressLimit (f : PwrState → PwrState) : (s.modPwr f).progressLimit = s.progressLimit := rfl
@[simp] theorem State.modPwr_pins (f : PwrState → PwrState) : (s.modPwr f).pins = s.pins := rfl
@[simp] theorem State.modPwr_seq (f : PwrState → PwrState) (i : Nat) : (s.modPwr f).seq i = s.seq i := rfl
@[simp] theorem State.modPwr_tile (f : PwrState → PwrState) (i : Nat) : (s.modPwr f).tile i = s.tile i := rfl
@[simp] theorem State.modPwr_part (f : PwrState → PwrState) (i : Nat) : (s.modPwr f).part i = s.part i := rfl
@[simp] theorem State.modPwr_core (f : PwrState → PwrState) (i : Nat) : (s.modPwr f).core i = s.core i := rfl
@[simp] theorem State.modPwr_stk (f : PwrState → PwrState) (i : Nat) : (s.modPwr f).stk i = s.stk i := rfl
@[simp] theorem State.modPwr_cache (f : PwrState → PwrState) (i : Nat) : (s.modPwr f).cache i = s.cache i := rfl
@[simp] theorem State.modPwr_fn (f : PwrState → PwrState) (i : Nat) : (s.modPwr f).fn i = s.fn i := rfl
@[simp] theorem State.modPwr_port (f : PwrState → PwrState) (i : Nat) : (s.modPwr f).port i = s.port i := rfl
@[simp] theorem State.modPwr_coll (f : PwrState → PwrState) (i : Nat) : (s.modPwr f).coll i = s.coll i := rfl
@[simp] theorem State.modPwr_pwr (f : PwrState → PwrState) : (s.modPwr f).pwr = f s.pwr := rfl

/-! ### modSec -/

@[simp] theorem State.modSec_pending (f : SecState → SecState) : (s.modSec f).pending = s.pending := rfl
@[simp] theorem State.modSec_now (f : SecState → SecState) : (s.modSec f).now = s.now := rfl
@[simp] theorem State.modSec_free (f : SecState → SecState) : (s.modSec f).free = s.free := rfl
@[simp] theorem State.modSec_mem (f : SecState → SecState) : (s.modSec f).mem = s.mem := rfl
@[simp] theorem State.modSec_poison (f : SecState → SecState) : (s.modSec f).poison = s.poison := rfl
@[simp] theorem State.modSec_withdrawn (f : SecState → SecState) : (s.modSec f).withdrawn = s.withdrawn := rfl
@[simp] theorem State.modSec_seqs (f : SecState → SecState) : (s.modSec f).seqs = s.seqs := rfl
@[simp] theorem State.modSec_tiles (f : SecState → SecState) : (s.modSec f).tiles = s.tiles := rfl
@[simp] theorem State.modSec_parts (f : SecState → SecState) : (s.modSec f).parts = s.parts := rfl
@[simp] theorem State.modSec_memc (f : SecState → SecState) : (s.modSec f).memc = s.memc := rfl
@[simp] theorem State.modSec_epMem (f : SecState → SecState) : (s.modSec f).epMem = s.epMem := rfl
@[simp] theorem State.modSec_img (f : SecState → SecState) : (s.modSec f).img = s.img := rfl
@[simp] theorem State.modSec_owner (f : SecState → SecState) : (s.modSec f).owner = s.owner := rfl
@[simp] theorem State.modSec_fab (f : SecState → SecState) : (s.modSec f).fab = s.fab := rfl
@[simp] theorem State.modSec_host (f : SecState → SecState) : (s.modSec f).host = s.host := rfl
@[simp] theorem State.modSec_pwr (f : SecState → SecState) : (s.modSec f).pwr = s.pwr := rfl
@[simp] theorem State.modSec_ras (f : SecState → SecState) : (s.modSec f).ras = s.ras := rfl
@[simp] theorem State.modSec_cores (f : SecState → SecState) : (s.modSec f).cores = s.cores := rfl
@[simp] theorem State.modSec_fw (f : SecState → SecState) : (s.modSec f).fw = s.fw := rfl
@[simp] theorem State.modSec_test (f : SecState → SecState) : (s.modSec f).test = s.test := rfl
@[simp] theorem State.modSec_progressLimit (f : SecState → SecState) : (s.modSec f).progressLimit = s.progressLimit := rfl
@[simp] theorem State.modSec_pins (f : SecState → SecState) : (s.modSec f).pins = s.pins := rfl
@[simp] theorem State.modSec_seq (f : SecState → SecState) (i : Nat) : (s.modSec f).seq i = s.seq i := rfl
@[simp] theorem State.modSec_tile (f : SecState → SecState) (i : Nat) : (s.modSec f).tile i = s.tile i := rfl
@[simp] theorem State.modSec_part (f : SecState → SecState) (i : Nat) : (s.modSec f).part i = s.part i := rfl
@[simp] theorem State.modSec_core (f : SecState → SecState) (i : Nat) : (s.modSec f).core i = s.core i := rfl
@[simp] theorem State.modSec_stk (f : SecState → SecState) (i : Nat) : (s.modSec f).stk i = s.stk i := rfl
@[simp] theorem State.modSec_cache (f : SecState → SecState) (i : Nat) : (s.modSec f).cache i = s.cache i := rfl
@[simp] theorem State.modSec_fn (f : SecState → SecState) (i : Nat) : (s.modSec f).fn i = s.fn i := rfl
@[simp] theorem State.modSec_port (f : SecState → SecState) (i : Nat) : (s.modSec f).port i = s.port i := rfl
@[simp] theorem State.modSec_coll (f : SecState → SecState) (i : Nat) : (s.modSec f).coll i = s.coll i := rfl
@[simp] theorem State.modSec_sec (f : SecState → SecState) : (s.modSec f).sec = f s.sec := rfl

/-! ### modTest -/

@[simp] theorem State.modTest_pending (f : TestState → TestState) : (s.modTest f).pending = s.pending := rfl
@[simp] theorem State.modTest_now (f : TestState → TestState) : (s.modTest f).now = s.now := rfl
@[simp] theorem State.modTest_free (f : TestState → TestState) : (s.modTest f).free = s.free := rfl
@[simp] theorem State.modTest_mem (f : TestState → TestState) : (s.modTest f).mem = s.mem := rfl
@[simp] theorem State.modTest_poison (f : TestState → TestState) : (s.modTest f).poison = s.poison := rfl
@[simp] theorem State.modTest_withdrawn (f : TestState → TestState) : (s.modTest f).withdrawn = s.withdrawn := rfl
@[simp] theorem State.modTest_seqs (f : TestState → TestState) : (s.modTest f).seqs = s.seqs := rfl
@[simp] theorem State.modTest_tiles (f : TestState → TestState) : (s.modTest f).tiles = s.tiles := rfl
@[simp] theorem State.modTest_parts (f : TestState → TestState) : (s.modTest f).parts = s.parts := rfl
@[simp] theorem State.modTest_memc (f : TestState → TestState) : (s.modTest f).memc = s.memc := rfl
@[simp] theorem State.modTest_epMem (f : TestState → TestState) : (s.modTest f).epMem = s.epMem := rfl
@[simp] theorem State.modTest_img (f : TestState → TestState) : (s.modTest f).img = s.img := rfl
@[simp] theorem State.modTest_owner (f : TestState → TestState) : (s.modTest f).owner = s.owner := rfl
@[simp] theorem State.modTest_fab (f : TestState → TestState) : (s.modTest f).fab = s.fab := rfl
@[simp] theorem State.modTest_host (f : TestState → TestState) : (s.modTest f).host = s.host := rfl
@[simp] theorem State.modTest_sec (f : TestState → TestState) : (s.modTest f).sec = s.sec := rfl
@[simp] theorem State.modTest_pwr (f : TestState → TestState) : (s.modTest f).pwr = s.pwr := rfl
@[simp] theorem State.modTest_ras (f : TestState → TestState) : (s.modTest f).ras = s.ras := rfl
@[simp] theorem State.modTest_cores (f : TestState → TestState) : (s.modTest f).cores = s.cores := rfl
@[simp] theorem State.modTest_fw (f : TestState → TestState) : (s.modTest f).fw = s.fw := rfl
@[simp] theorem State.modTest_progressLimit (f : TestState → TestState) : (s.modTest f).progressLimit = s.progressLimit := rfl
@[simp] theorem State.modTest_pins (f : TestState → TestState) : (s.modTest f).pins = s.pins := rfl
@[simp] theorem State.modTest_seq (f : TestState → TestState) (i : Nat) : (s.modTest f).seq i = s.seq i := rfl
@[simp] theorem State.modTest_tile (f : TestState → TestState) (i : Nat) : (s.modTest f).tile i = s.tile i := rfl
@[simp] theorem State.modTest_part (f : TestState → TestState) (i : Nat) : (s.modTest f).part i = s.part i := rfl
@[simp] theorem State.modTest_core (f : TestState → TestState) (i : Nat) : (s.modTest f).core i = s.core i := rfl
@[simp] theorem State.modTest_stk (f : TestState → TestState) (i : Nat) : (s.modTest f).stk i = s.stk i := rfl
@[simp] theorem State.modTest_cache (f : TestState → TestState) (i : Nat) : (s.modTest f).cache i = s.cache i := rfl
@[simp] theorem State.modTest_fn (f : TestState → TestState) (i : Nat) : (s.modTest f).fn i = s.fn i := rfl
@[simp] theorem State.modTest_port (f : TestState → TestState) (i : Nat) : (s.modTest f).port i = s.port i := rfl
@[simp] theorem State.modTest_coll (f : TestState → TestState) (i : Nat) : (s.modTest f).coll i = s.coll i := rfl
@[simp] theorem State.modTest_test (f : TestState → TestState) : (s.modTest f).test = f s.test := rfl

end Sys2Proof.Machine
end

