-- ==== Sys2Proof/Laws/Ops.lean ====
section
/-! SUPPORT. What the shared operations can do, said once each: what every operation keeps (the queue, the withdrawn units, the
canonical forms), and what the accesses to stack memory read and leave. -/

namespace Sys2Proof.Machine

/-! ### What an operation keeps -/

/-- What no effect of the model undoes between two states: the sender's queue is the same, a withdrawn unit stays withdrawn, and
canonical memories stay canonical. -/
structure Kept (s u : State) : Prop where
  pending : u.pending = s.pending
  withdrawn : ∀ k, s.isWithdrawn k = true → u.isWithdrawn k = true
  canonical : s.canonical = true → u.canonical = true

theorem Kept.refl (s : State) : Kept s s := ⟨rfl, fun _ h => h, fun h => h⟩

theorem Kept.trans {s t u : State} (a : Kept s t) (b : Kept t u) : Kept s u :=
  ⟨b.pending.trans a.pending, fun k h => b.withdrawn k (a.withdrawn k h), fun h => b.canonical (a.canonical h)⟩

/-- An effect that touches neither the queue nor the memories keeps everything. -/
theorem Kept.of_eq {s u : State} (hp : u.pending = s.pending) (hm : u.mem = s.mem) (hx : u.poison = s.poison)
    (hw : u.withdrawn = s.withdrawn) : Kept s u := by
  refine ⟨hp, fun k h => ?_, fun h => ?_⟩
  · simpa [State.isWithdrawn, hw] using h
  · simpa [State.canonical, hm, hx, hw] using h

/-- An effect on the memories keeps everything where it keeps the queue and the withdrawn units and leaves memory and poison
canonical. -/
theorem Kept.of_mem {s u : State} (hp : u.pending = s.pending) (hw : u.withdrawn = s.withdrawn)
    (hm : Mem.wf s.mem = true → Mem.wf u.mem = true) (hx : smWf 0 s.poison = true → smWf 0 u.poison = true) : Kept s u := by
  refine ⟨hp, fun k h => ?_, fun h => ?_⟩
  · simpa [State.isWithdrawn, hw] using h
  · simp only [State.canonical, Bool.and_eq_true] at h ⊢
    exact ⟨⟨hm h.1.1, hx h.1.2⟩, hw ▸ h.2⟩

/-- A choice between two effects that keep everything. -/
theorem Kept.ite {s u v : State} {c : Prop} [Decidable c] (a : c → Kept s u) (b : ¬ c → Kept s v) : Kept s (if c then u else v) := by
  split
  · exact a ‹_›
  · exact b ‹_›

/-- A fold of effects that each keep everything. -/
theorem Kept.foldl {α : Type} (f : State → α → State) (hf : ∀ x a, Kept x (f x a)) (l : List α) (s : State) :
    Kept s (l.foldl f s) := by
  induction l generalizing s with
  | nil => exact Kept.refl s
  | cons a l ih => exact (hf s a).trans (ih _)

/-- A fold over numbers. -/
theorem Kept.each (f : Nat → State → State) (hf : ∀ i x, Kept x (f i x)) (l : List Nat) (s : State) : Kept s (s.each l f) :=
  Kept.foldl _ (fun x i => hf i x) l s

/-- A guarded effect that keeps everything: what its next state holds. -/
theorem Kept.of_guarded {b : Bool} {s t u : State} (h : guarded b t = .next u) (k : Kept s t) : Kept s u := by
  unfold guarded at h
  split at h
  · cases h; exact k
  · cases h

section
variable (s : State)

@[simp] theorem kept_modSeq (q : Nat) (f : Seq → Seq) : Kept s (s.modSeq q f) := Kept.of_eq rfl rfl rfl rfl
@[simp] theorem kept_modTile (t : Nat) (f : Tile → Tile) : Kept s (s.modTile t f) := Kept.of_eq rfl rfl rfl rfl
@[simp] theorem kept_modPart (p : Nat) (f : Part → Part) : Kept s (s.modPart p f) := Kept.of_eq rfl rfl rfl rfl
@[simp] theorem kept_modStk (k : Nat) (f : Stack → Stack) : Kept s (s.modStk k f) := Kept.of_eq rfl rfl rfl rfl
@[simp] theorem kept_modCache (d : Nat) (f : Cache → Cache) : Kept s (s.modCache d f) := Kept.of_eq rfl rfl rfl rfl
@[simp] theorem kept_modFn (n : Nat) (f : Fn → Fn) : Kept s (s.modFn n f) := Kept.of_eq rfl rfl rfl rfl
@[simp] theorem kept_modQp (n q : Nat) (f : QPair → QPair) : Kept s (s.modQp n q f) := Kept.of_eq rfl rfl rfl rfl
@[simp] theorem kept_modPort (n : Nat) (f : Port → Port) : Kept s (s.modPort n f) := Kept.of_eq rfl rfl rfl rfl
@[simp] theorem kept_modColl (c : Nat) (f : Coll → Coll) : Kept s (s.modColl c f) := Kept.of_eq rfl rfl rfl rfl
@[simp] theorem kept_modCore (c : Nat) (f : Core → Core) : Kept s (s.modCore c f) := Kept.of_eq rfl rfl rfl rfl
@[simp] theorem kept_modLedger (p : Nat) (f : Ledger → Ledger) : Kept s (s.modLedger p f) := Kept.of_eq rfl rfl rfl rfl
@[simp] theorem kept_modMsg (p : Nat) (f : MsgState → MsgState) : Kept s (s.modMsg p f) := Kept.of_eq rfl rfl rfl rfl
@[simp] theorem kept_modImg (f : ImageState → ImageState) : Kept s (s.modImg f) := Kept.of_eq rfl rfl rfl rfl
@[simp] theorem kept_modOwner (f : OwnerState → OwnerState) : Kept s (s.modOwner f) := Kept.of_eq rfl rfl rfl rfl
@[simp] theorem kept_modPwr (f : PwrState → PwrState) : Kept s (s.modPwr f) := Kept.of_eq rfl rfl rfl rfl
@[simp] theorem kept_modSec (f : SecState → SecState) : Kept s (s.modSec f) := Kept.of_eq rfl rfl rfl rfl
@[simp] theorem kept_modTest (f : TestState → TestState) : Kept s (s.modTest f) := Kept.of_eq rfl rfl rfl rfl
@[simp] theorem kept_modKern (q : Nat) (f : Kern → Kern) : Kept s (s.modKern q f) := Kept.of_eq rfl rfl rfl rfl
@[simp] theorem kept_modSlot (t i : Nat) (f : Slot → Slot) : Kept s (s.modSlot t i f) := Kept.of_eq rfl rfl rfl rfl
@[simp] theorem kept_modRun (t i : Nat) (f : StreamRun → StreamRun) : Kept s (s.modRun t i f) := Kept.of_eq rfl rfl rfl rfl
@[simp] theorem kept_modHdr (p e : Nat) (f : Header → Header) : Kept s (s.modHdr p e f) := Kept.of_eq rfl rfl rfl rfl
@[simp] theorem kept_draw : Kept s s.draw.2 := Kept.of_eq rfl rfl rfl rfl
@[simp] theorem kept_msi (n v : Nat) : Kept s (s.msi n v) := Kept.ite (fun _ => kept_modFn ..) (fun _ => Kept.of_eq rfl rfl rfl rfl)
@[simp] theorem kept_stir : Kept s s.stir := Kept.of_eq rfl rfl rfl rfl
@[simp] theorem kept_ltr : Kept s s.ltr := Kept.ite (fun _ => Kept.of_eq rfl rfl rfl rfl) (fun _ => Kept.of_eq rfl rfl rfl rfl)
@[simp] theorem kept_abandon (n q : Nat) : Kept s (s.abandon n q) := Kept.of_eq rfl rfl rfl rfl
@[simp] theorem kept_deliver (l : List Nat) : Kept s (s.deliver l) := Kept.of_eq rfl rfl rfl rfl

/-- A function event that vector 15 signals where its bit rises. -/
@[simp] theorem kept_evPart (n : Nat) : Kept s (s.evPart n) := Kept.ite (fun _ => .refl s) (fun _ => (kept_modFn ..).trans (kept_msi ..))
@[simp] theorem kept_evAdmin : Kept s s.evAdmin := Kept.ite (fun _ => .refl s) (fun _ => (kept_modFn ..).trans (kept_msi ..))
@[simp] theorem kept_evRecord : Kept s s.evRecord := Kept.ite (fun _ => .refl s) (fun _ => (kept_modFn ..).trans (kept_msi ..))
@[simp] theorem kept_evAccess (n code : Nat) : Kept s (s.evAccess n code) := by
  unfold State.evAccess
  refine Kept.ite (fun _ => Kept.of_eq rfl rfl rfl rfl) (fun _ => Kept.trans ?_ (kept_msi ..))
  exact Kept.of_eq rfl rfl rfl rfl

@[simp] theorem kept_record (code : Nat) (l : ErrLoc) : Kept s (s.record code l) := by
  unfold State.record
  split
  · exact Kept.of_eq rfl rfl rfl rfl
  · refine Kept.trans ?_ (kept_evRecord _)
    refine Kept.ite (fun _ => ?_) (fun _ => ?_) <;> exact Kept.of_eq rfl rfl rfl rfl

@[simp] theorem kept_report (code : Nat) (l : ErrLoc) : Kept s (s.report code l) := Kept.ite (fun _ => kept_record ..) (fun _ => .refl s)

@[simp] theorem kept_regAccess (n block : Nat) : Kept s (s.regAccess n block) := (kept_record ..).trans (kept_evAccess ..)

/-! ### Writes to stack memory -/

@[simp] theorem kept_delivered (l : List Nat) (b : Bool) : Kept s (s.delivered l b) := Kept.of_eq rfl rfl rfl rfl
@[simp] theorem kept_touch (a n : Nat) : Kept s (s.touch a n) := Kept.of_eq rfl rfl rfl rfl
@[simp] theorem kept_dropLines (p : Nat → Bool) : Kept s (s.dropLines p) := Kept.of_eq rfl rfl rfl rfl

/-- A line's write keeps the queue and the withdrawn units, and its memories canonical. -/
@[simp] theorem kept_storeLine (a : Nat) (d : List Byte) : Kept s (s.storeLine a d).1 := by
  unfold State.storeLine
  dsimp only
  split
  · exact .refl s
  · split
    · exact kept_delivered ..
    · refine Kept.of_mem rfl rfl (fun h => memWf_memWrite _ _ _ h) (fun h => ?_)
      dsimp only
      split
      · exact smWf_smSet _ _ _ _ h
      · exact h

theorem kept_storeLines (n : Nat) (a : Nat) (d : List Byte) : Kept s (State.storeLines n s a d).1 := by
  induction n generalizing s a d with
  | zero => exact .refl s
  | succ n ih =>
    unfold State.storeLines
    split
    · exact .refl s
    · exact (kept_storeLine ..).trans (ih _ _ _)

@[simp] theorem kept_store (a : Nat) (d : List Byte) : Kept s (s.store a d).1 := kept_storeLines ..

@[simp] theorem kept_store! (a : Nat) (d : List Byte) : Kept s (s.store! a d) := kept_storeLines ..

@[simp] theorem kept_storeLineP (p a : Nat) (d : List Byte) : Kept s (s.storeLineP p a d).1 := by
  unfold State.storeLineP
  dsimp only
  exact ((kept_modLedger s p _).trans (kept_storeLine _ a d)).trans (kept_modLedger _ p _)

theorem kept_storeLinesP (p n a : Nat) (d : List Byte) : Kept s (State.storeLinesP p n s a d).1 := by
  induction n generalizing s a d with
  | zero => exact .refl s
  | succ n ih =>
    unfold State.storeLinesP
    split
    · exact .refl s
    · exact (kept_storeLineP ..).trans (ih _ _ _)

@[simp] theorem kept_storeP (p a : Nat) (d : List Byte) : Kept s (s.storeP p a d).1 := kept_storeLinesP ..

@[simp] theorem kept_poisonLine (a cause : Nat) : Kept s (s.poisonLine a cause) :=
  Kept.of_mem rfl rfl (fun h => h) (fun h => smWf_smSet _ _ _ _ h)

@[simp] theorem kept_storeH (a : Nat) (d : List Byte) : Kept s (s.storeH a d).1 := by
  unfold State.storeH
  split
  · exact kept_storeP ..
  · exact kept_store ..

@[simp] theorem kept_poisonStack (a cause : Nat) : Kept s (s.poisonStack a cause) :=
  Kept.ite (fun _ => Kept.of_eq rfl rfl rfl rfl) (fun _ => kept_poisonLine ..)

@[simp] theorem kept_evict (a : Nat) : Kept s (s.evict a) := by
  unfold State.evict
  dsimp only
  split
  · exact (kept_poisonLine s a _).trans (Kept.of_eq rfl rfl rfl rfl)
  · exact Kept.of_eq rfl rfl rfl rfl

/-- A write-back of lines changes poison and the memory controllers alone. -/
@[simp] theorem kept_writeBack (p : Nat → Bool) : Kept s (s.writeBack p) := Kept.foldl _ (fun _ _ => kept_evict ..) _ _

@[simp] theorem kept_retirePages : Kept s s.retirePages :=
  Kept.each _ (fun _ _ => Kept.ite (fun _ => .refl _) (fun _ => (kept_modMsg ..).trans (kept_modLedger ..))) _ _

@[simp] theorem kept_zeroRange (a n : Nat) : Kept s (s.zeroRange a n) := by
  unfold State.zeroRange
  dsimp only
  split
  · refine Kept.trans ?_ (kept_modLedger ..)
    exact Kept.of_mem rfl rfl (fun h => smWf_filter _ _ _ h) (fun h => smWf_filter _ _ _ h)
  · exact Kept.of_mem rfl rfl (fun h => smWf_filter _ _ _ h) (fun h => smWf_filter _ _ _ h)

@[simp] theorem kept_zeroStack (k : Nat) : Kept s (s.zeroStack k) :=
  Kept.of_mem rfl rfl (fun h => smWf_filter _ _ _ h) (fun h => smWf_filter _ _ _ h)

/-- Withdrawing a unit withdraws no other back (R226). -/
@[simp] theorem kept_withdrawUnit (k u : Nat) : Kept s (s.withdrawUnit k u) := by
  unfold State.withdrawUnit
  refine Kept.ite (fun _ => .refl s) (fun _ => Kept.trans (Kept.trans ?_ (kept_retirePages _)) (kept_record ..))
  refine Kept.trans ?_ (kept_dropLines ..)
  refine ⟨rfl, fun j h => ?_, fun h => ?_⟩
  · simp only [State.isWithdrawn, smGet_smSet] at h ⊢
    split
    · rfl
    · exact h
  · simp only [State.canonical, Bool.and_eq_true] at h ⊢
    exact ⟨h.1, smWf_smSet _ _ _ _ h.2⟩

/-- A message to the host withdraws nothing. -/
theorem withdrawn_msi (n v : Nat) : (s.msi n v).withdrawn = s.withdrawn := by
  unfold State.msi
  split <;> rfl

theorem withdrawn_evRecord : s.evRecord.withdrawn = s.withdrawn := by
  unfold State.evRecord
  split
  · rfl
  · exact withdrawn_msi ..

/-- A record withdraws nothing. -/
theorem withdrawn_record (code : Nat) (l : ErrLoc) : (s.record code l).withdrawn = s.withdrawn := by
  unfold State.record
  split
  · rfl
  · dsimp only
    rw [withdrawn_evRecord]
    split <;> rfl

/-- Retiring spill pages withdraws nothing. -/
theorem withdrawn_retirePages : s.retirePages.withdrawn = s.withdrawn := by
  have h : ∀ (l : List Nat) (f : Nat → State → State), (∀ i x, (f i x).withdrawn = x.withdrawn) →
      ∀ x : State, (x.each l f).withdrawn = x.withdrawn := fun l f hf => by
    induction l with
    | nil => intro x; rfl
    | cons a l ih => intro x; exact (ih _).trans (hf a x)
  exact h _ _ (fun i x => by dsimp only; split <;> rfl) s

/-- What a unit's withdrawal withdraws: that unit. -/
theorem isWithdrawn_withdrawUnit (k u j : Nat) :
    (s.withdrawUnit k u).isWithdrawn j = (s.isWithdrawn j || decide (j = k * Config.unitsPerStack + u)) := by
  unfold State.withdrawUnit
  by_cases h : s.isWithdrawn (k * Config.unitsPerStack + u) = true
  · rw [if_pos h]
    by_cases hj : j = k * Config.unitsPerStack + u
    · subst hj; simp [h]
    · simp [hj]
  · rw [if_neg h]
    simp only [State.isWithdrawn, withdrawn_record, withdrawn_retirePages, State.dropLines, smGet_smSet]
    by_cases hj : j = k * Config.unitsPerStack + u <;> simp [hj]

/-- A mass scrub keeps the bytes of withdrawn units alone (R221, R286). -/
@[simp] theorem kept_scrubMemory (l : List Nat) : Kept s (s.scrubMemory l) := by
  unfold State.scrubMemory
  refine Kept.trans (Kept.foldl (fun (x : State) u => x.withdrawUnit (u / Config.unitsPerStack) (u % Config.unitsPerStack))
    (fun _ _ => kept_withdrawUnit ..) l s) ?_
  exact Kept.of_mem rfl rfl (fun h => smWf_filter _ _ _ h) (fun h => smWf_filter _ _ _ h)

/-- The record of a requester's memory fault. -/
@[simp] theorem kept_memFault (p r : Nat) (l : List Nat) (code : Nat) : Kept s (s.memFault p r l code) :=
  Kept.ite (fun _ => kept_record ..) (fun _ => .refl s)

/-! ### Tokens and completions -/

@[simp] theorem kept_tileLedger (t : Nat) (f : Ledger → Ledger) : Kept s (s.tileLedger t f) := by
  unfold State.tileLedger
  split
  · exact kept_modLedger ..
  · exact .refl s

@[simp] theorem kept_emitTile (t q : Nat) (k : Token) : Kept s (s.emitTile t q k) :=
  Kept.ite (fun _ => (kept_modTile ..).trans (kept_tileLedger ..)) (fun _ => kept_modTile ..)

@[simp] theorem kept_refill (t q : Nat) : Kept s (s.refill t q) := by
  unfold State.refill
  split
  · exact .refl s
  · exact Kept.ite (fun _ => (kept_modTile ..).trans (kept_tileLedger ..)) (fun _ => .refl s)

@[simp] theorem kept_takeToken (t q : Nat) : Kept s (s.takeToken t q) :=
  ((kept_modTile ..).trans (kept_tileLedger ..)).trans (kept_refill ..)

@[simp] theorem kept_emitPart (p q : Nat) (k : Token) : Kept s (s.emitPart p q k) := Kept.each _ (fun _ _ => kept_emitTile ..) _ _

@[simp] theorem kept_emitRuntime (p : Nat) (k : Token) : Kept s (s.emitRuntime p k) :=
  Kept.ite (fun _ => kept_modLedger ..) (fun _ => kept_modPart ..)

@[simp] theorem kept_flushQueues (p : Nat) : Kept s (s.flushQueues p) :=
  Kept.each _ (fun _ _ => (kept_modTile ..).trans (kept_modLedger ..)) _ _

@[simp] theorem kept_refillAll (p : Nat) : Kept s (s.refillAll p) :=
  Kept.each _ (fun _ _ => Kept.foldl _ (fun _ _ => Kept.each _ (fun _ _ => kept_refill ..) _ _) _ _) _ _

@[simp] theorem kept_flushTokens (p : Nat) : Kept s (s.flushTokens p) := (kept_flushQueues ..).trans (kept_refillAll ..)

@[simp] theorem kept_dropTokens (p : Nat) : Kept s (s.dropTokens p) :=
  (kept_flushQueues ..).trans (Kept.each _ (fun _ _ => kept_modTile ..) _ _)

@[simp] theorem kept_signal (n q : Nat) : Kept s (s.signal n q) := Kept.ite (fun _ => (kept_modQp ..).trans (kept_msi ..)) (fun _ => .refl s)

@[simp] theorem kept_post (n q status result : Nat) : Kept s (s.post n q status result) := by
  unfold State.post
  dsimp only
  split
  · exact .refl s
  · refine Kept.trans (Kept.trans ?_ (kept_signal ..)) (kept_ltr _)
    exact Kept.of_eq rfl rfl rfl rfl

@[simp] theorem kept_postOwner (o : RunOwner) (status result : Nat) : Kept s (s.postOwner o status result) := by
  unfold State.postOwner
  split
  · exact Kept.ite (fun _ => kept_post ..) (fun _ => .refl s)
  · exact .refl s

end

/-! ### Accesses to stack memory -/

section
variable (s : State)

/-- A write within a line that meets no error performs whole (R219). -/
theorem storeLine_good {a : Nat} {d : List Byte} (h : s.decodeCode a = 0)
    (hp : smGet 0 s.poison (lineOf a) = 0 ∨ d.length = 128) :
    (s.storeLine a d).2 = 0 ∧ (s.storeLine a d).1.mem = memWrite s.mem a d := by
  have h2 : ¬ (smGet 0 s.poison (lineOf a) ≠ 0 ∧ d.length < 128) := by
    rcases hp with hp | hp
    · simp [hp]
    · omega
  unfold State.storeLine
  simp only [h, ne_eq, not_true_eq_false, if_false]
  rw [if_neg h2]
  exact ⟨rfl, rfl⟩

/-- A write that its address decode turns away changes nothing (R204, R206). -/
theorem storeLine_bad {a : Nat} (d : List Byte) (h : s.decodeCode a ≠ 0) : s.storeLine a d = (s, s.decodeCode a) := by
  unfold State.storeLine
  simp [h]

/-- A write of part of a poisoned line is not performed (R219): its requester is told. -/
theorem storeLine_poisoned {a : Nat} {d : List Byte} (h : s.decodeCode a = 0) (hp : smGet 0 s.poison (lineOf a) ≠ 0)
    (hd : d.length < 128) : s.storeLine a d = (s.delivered [a] true, s.partialCode a) := by
  unfold State.storeLine
  simp [h, hp, hd]

/-- A line's write answers 0 or leaves memory and poison as they were. -/
theorem storeLine_code (a : Nat) (d : List Byte) :
    (s.storeLine a d).2 = 0 ∨ ((s.storeLine a d).1.mem = s.mem ∧ (s.storeLine a d).1.poison = s.poison) := by
  unfold State.storeLine
  dsimp only
  split
  · exact .inr ⟨rfl, rfl⟩
  · split
    · exact .inr ⟨rfl, rfl⟩
    · exact .inl rfl

/-- Every byte outside the range of a line's write reads as before. -/
theorem memByte_storeLine_outside {a b : Nat} (d : List Byte) (h : b < a ∨ a + d.length ≤ b) :
    memByte (s.storeLine a d).1.mem b = memByte s.mem b := by
  unfold State.storeLine
  dsimp only
  split
  · rfl
  · split
    · rfl
    · rw [memByte_memWrite, if_neg (by omega)]

/-- Every byte outside the range of a write reads as before, whichever of its lines fail. -/
theorem memByte_storeLines_outside (n : Nat) {a b : Nat} (d : List Byte) (h : b < a ∨ a + d.length ≤ b) :
    memByte (State.storeLines n s a d).1.mem b = memByte s.mem b := by
  induction n generalizing s a d with
  | zero => rfl
  | succ n ih =>
    unfold State.storeLines
    split
    · rfl
    · dsimp only
      rw [ih, memByte_storeLine_outside]
      · simp only [List.length_take]; omega
      · simp only [List.length_drop]; omega

/-- Every byte outside the range of a write reads as before. -/
theorem memByte_store_outside {a b : Nat} (d : List Byte) (h : b < a ∨ a + d.length ≤ b) :
    memByte (s.store a d).1.mem b = memByte s.mem b := memByte_storeLines_outside s _ d h

/-- A write changes stack memory, poison and the memory controllers' line marks, and nothing else. -/
theorem storeLine_frame (a : Nat) (d : List Byte) :
    (s.storeLine a d).1 = { s with mem := (s.storeLine a d).1.mem, poison := (s.storeLine a d).1.poison,
                                   memc := (s.storeLine a d).1.memc } := by
  unfold State.storeLine
  dsimp only
  split
  · rfl
  · split <;> rfl

theorem storeLines_frame (n a : Nat) (d : List Byte) :
    (State.storeLines n s a d).1 = { s with mem := (State.storeLines n s a d).1.mem, poison := (State.storeLines n s a d).1.poison,
                                            memc := (State.storeLines n s a d).1.memc } := by
  induction n generalizing s a d with
  | zero => rfl
  | succ n ih =>
    unfold State.storeLines
    split
    · rfl
    · dsimp only
      rw [ih, storeLine_frame]

/-- A write changes stack memory, poison and the memory controllers' line marks, and nothing else. -/
theorem store_frame (a : Nat) (d : List Byte) :
    (s.store a d).1 = { s with mem := (s.store a d).1.mem, poison := (s.store a d).1.poison, memc := (s.store a d).1.memc } :=
  storeLines_frame s _ a d

/-- A write that stays in one line is that line's write. -/
theorem store_one_line {a : Nat} {d : List Byte} (hd : d ≠ []) (h : a % 128 + d.length ≤ 128) : s.store a d = s.storeLine a d := by
  have ht : d.take (128 - a % 128) = d := List.take_of_length_le (by omega)
  have hr : d.drop (128 - a % 128) = [] := List.drop_eq_nil_of_le (by omega)
  unfold State.store State.storeLines
  rw [if_neg (by simpa using hd)]
  simp only [ht, hr]
  obtain ⟨m, hm⟩ : ∃ m, d.length = m + 1 := ⟨d.length - 1, by
    have : d.length ≠ 0 := by simpa using hd
    omega⟩
  rw [hm]
  unfold State.storeLines
  simp only [List.isEmpty_nil, if_true]
  split
  · rfl
  · next h0 => exact Prod.ext rfl (by show 0 = _; omega)

end

/-! ### Streams of a partition's tiles -/

/-- Tiles of a partition are numbered in a row (Table 4-1). -/
theorem mem_partTiles (s : State) (p t : Nat) :
    t ∈ s.partTiles p ↔ p * (s.part p).tiles ≤ t ∧ t < p * (s.part p).tiles + (s.part p).tiles := by
  have hu : ∀ n i, i ∈ upTo n ↔ i < n := fun n i => by simp [upTo]
  simp only [State.partTiles, List.mem_map, hu]
  constructor
  · rintro ⟨i, hi, rfl⟩; omega
  · intro h; exact ⟨t - p * (s.part p).tiles, by omega, by omega⟩

/-- A field of a number that is written in fields. -/
theorem bits_field {w lo v hi h l : Nat} (hw : w = lo + (v + hi * 2 ^ (h + 1 - l)) * 2 ^ l) (hlo : lo < 2 ^ l)
    (hv : v < 2 ^ (h + 1 - l)) : bits w h l = v := by
  rw [bits, Nat.shiftRight_eq_div_pow, hw, Nat.add_mul_div_right _ _ (Nat.two_pow_pos l), Nat.div_eq_of_lt hlo, Nat.zero_add,
    Nat.add_mul_mod_self_right, Nat.mod_eq_of_lt hv]

/-- A bit as a field of one bit. -/
theorem bit_eq_bits (w i : Nat) : bit w i = decide (bits w i i = 1) := by
  simp [bit, bits, Nat.testBit_eq_decide_div_mod_eq, Nat.shiftRight_eq_div_pow]

/-- The fields of an endpoint command are those of its 128 bits (R239). -/
theorem epCmdOf_bits (p ep idx k : Nat) (c : EpCmd) (h : epOkArgs p ep idx c = true) (h1 : 1 ≤ k) (h5 : k ≤ 5) :
    epCmdOf (epCmdBits k c) = (c.badCmd.getD k, c) := by
  obtain ⟨index, setf, flag, row, len, doneQ, reserved, badCmd⟩ := c
  simp only [epOkArgs, Bool.and_eq_true, decide_eq_true_eq] at h
  obtain ⟨⟨⟨⟨⟨⟨⟨⟨⟨_, _⟩, _⟩, hi⟩, hf⟩, hr⟩, hl⟩, hd⟩, hv⟩, hb⟩ := h
  have hk : badCmd.getD k < 16 := by
    cases badCmd with
    | none => simp; omega
    | some b => simp at hb; simp; omega
  have hs : b2n setf < 2 := by cases setf <;> decide
  have hw : epCmdBits k ⟨index, setf, flag, row, len, doneQ, reserved, badCmd⟩ =
      badCmd.getD k + index * 2 ^ 4 + b2n setf * 2 ^ 8 + flag * 2 ^ 9 + reserved % 4 * 2 ^ 14 + row * 2 ^ 16 + len * 2 ^ 32
        + reserved / 4 % 4 * 2 ^ 46 + doneQ * 2 ^ 48 + reserved / 16 * 2 ^ 52 := by
    simp only [epCmdBits, pack, bits, Nat.shiftLeft_eq, Nat.shiftRight_eq_div_pow]; omega
  generalize epCmdBits k ⟨index, setf, flag, row, len, doneQ, reserved, badCmd⟩ = w at *
  generalize hq : badCmd.getD k = q at *
  generalize hz : b2n setf = z at *
  have hr0 : reserved % 4 < 4 := Nat.mod_lt _ (by omega)
  have hr1 : reserved / 4 % 4 < 4 := Nat.mod_lt _ (by omega)
  have hr2 : reserved / 16 < 2 ^ 76 := by omega
  have hrs : reserved % 4 + 4 * (reserved / 4 % 4) + 16 * (reserved / 16) = reserved := by omega
  generalize reserved % 4 = r0 at *
  generalize reserved / 4 % 4 = r1 at *
  generalize reserved / 16 = r2 at *
  simp only [Nat.reducePow] at hw hl hr hr2
  have e0 : bits w 3 0 = q := bits_field
    (lo := 0)
    (hi := index + z * 16 + flag * 32 + r0 * 1024 + row * 4096 + len * 268435456 + r1 * 4398046511104
      + doneQ * 17592186044416 + r2 * 281474976710656)
    (by simp only [hw, Nat.reducePow, Nat.reduceAdd, Nat.reduceSub]; omega) (by omega) (by omega)
  have e1 : bits w 7 4 = index := bits_field
    (lo := q)
    (hi := z + flag * 2 + r0 * 64 + row * 256 + len * 16777216 + r1 * 274877906944 + doneQ * 1099511627776
      + r2 * 17592186044416)
    (by simp only [hw, Nat.reducePow, Nat.reduceAdd, Nat.reduceSub]; omega) (by omega) (by omega)
  have e2 : bits w 8 8 = z := bits_field
    (lo := q + index * 16)
    (hi := flag + r0 * 32 + row * 128 + len * 8388608 + r1 * 137438953472 + doneQ * 549755813888 + r2 * 8796093022208)
    (by simp only [hw, Nat.reducePow, Nat.reduceAdd, Nat.reduceSub]; omega) (by omega) (by omega)
  have e3 : bits w 13 9 = flag := bits_field
    (lo := q + index * 16 + z * 256)
    (hi := r0 + row * 4 + len * 262144 + r1 * 4294967296 + doneQ * 17179869184 + r2 * 274877906944)
    (by simp only [hw, Nat.reducePow, Nat.reduceAdd, Nat.reduceSub]; omega) (by omega) (by omega)
  have e4 : bits w 15 14 = r0 := bits_field
    (lo := q + index * 16 + z * 256 + flag * 512)
    (hi := row + len * 65536 + r1 * 1073741824 + doneQ * 4294967296 + r2 * 68719476736)
    (by simp only [hw, Nat.reducePow, Nat.reduceAdd, Nat.reduceSub]; omega) (by omega) (by omega)
  have e5 : bits w 31 16 = row := bits_field
    (lo := q + index * 16 + z * 256 + flag * 512 + r0 * 16384)
    (hi := len + r1 * 16384 + doneQ * 65536 + r2 * 1048576)
    (by simp only [hw, Nat.reducePow, Nat.reduceAdd, Nat.reduceSub]; omega) (by omega) (by omega)
  have e6 : bits w 45 32 = len := bits_field
    (lo := q + index * 16 + z * 256 + flag * 512 + r0 * 16384 + row * 65536)
    (hi := r1 + doneQ * 4 + r2 * 64)
    (by simp only [hw, Nat.reducePow, Nat.reduceAdd, Nat.reduceSub]; omega) (by omega) (by omega)
  have e7 : bits w 47 46 = r1 := bits_field
    (lo := q + index * 16 + z * 256 + flag * 512 + r0 * 16384 + row * 65536 + len * 4294967296)
    (hi := doneQ + r2 * 16)
    (by simp only [hw, Nat.reducePow, Nat.reduceAdd, Nat.reduceSub]; omega) (by omega) (by omega)
  have e8 : bits w 51 48 = doneQ := bits_field
    (lo := q + index * 16 + z * 256 + flag * 512 + r0 * 16384 + row * 65536 + len * 4294967296 + r1 * 70368744177664)
    (hi := r2)
    (by simp only [hw, Nat.reducePow, Nat.reduceAdd, Nat.reduceSub]; omega) (by omega) (by omega)
  have e9 : bits w 127 52 = r2 := bits_field
    (lo := q + index * 16 + z * 256 + flag * 512 + r0 * 16384 + row * 65536 + len * 4294967296 + r1 * 70368744177664
      + doneQ * 281474976710656)
    (hi := 0)
    (by simp only [hw, Nat.reducePow, Nat.reduceAdd, Nat.reduceSub]; omega) (by omega) (by omega)
  have e10 : bit w 8 = setf := by
    rw [bit_eq_bits, e2, ← hz]
    cases setf <;> rfl
  subst hq
  simp only [epCmdOf, e0, e1, e3, e4, e5, e6, e7, e8, e9, e10, hrs]
  cases badCmd with
  | none => simp [h1, h5]
  | some b =>
    simp at hb
    have : ¬ (1 ≤ b ∧ b ≤ 5) := by omega
    simp [this]

end Sys2Proof.Machine
end

