-- ==== Sys2Proof/Laws/Memory.lean ====
section
/-! SUPPORT. What the memory controllers' operations and a reset keep: the queue, the withdrawn units, the canonical forms. -/

namespace Sys2Proof.Machine

variable {α : Type}

/-! ### Sparse maps in pieces -/

/-- Rising keys, as a relation between any two entries. -/
theorem smRising_iff (b : Option Nat) (m : SMap α) :
    smRising b m = true ↔ (∀ x, b = some x → ∀ e ∈ m, x < e.1) ∧ m.Pairwise (fun a c => a.1 < c.1) := by
  induction m generalizing b with
  | nil => cases b <;> simp [smRising]
  | cons e m ih =>
    have h := ih (some e.1)
    simp only [Option.some.injEq, forall_eq'] at h
    cases b with
    | none =>
      unfold smRising
      rw [h, List.pairwise_cons]
      constructor
      · exact fun x => ⟨fun _ y => by simp at y, x⟩
      · exact fun x => x.2
    | some x =>
      unfold smRising
      rw [Bool.and_eq_true, decide_eq_true_eq, h, List.pairwise_cons]
      constructor
      · rintro ⟨hx, hl, hp⟩
        refine ⟨fun y hy e' he' => ?_, hl, hp⟩
        cases hy
        rcases List.mem_cons.mp he' with rfl | he'
        · exact hx
        · exact Nat.lt_trans hx (hl e' he')
      · rintro ⟨hx, hl, hp⟩
        exact ⟨hx x rfl e (by simp), hl, hp⟩

/-- Reading from two maps in a row: the first that lists the key. -/
theorem smGet_append (d : α) (a b : SMap α) (k : Nat) :
    smGet d (a ++ b) k = if ∃ e ∈ a, e.1 = k then smGet d a k else smGet d b k := by
  induction a with
  | nil => simp
  | cons e a ih =>
    by_cases h : k = e.1
    · subst h
      rw [if_pos ⟨e, by simp, rfl⟩]
      simp [smGet]
    · have hn : ¬ e.1 = k := fun x => h x.symm
      have : (∃ x ∈ e :: a, x.1 = k) ↔ ∃ x ∈ a, x.1 = k := by simp [hn]
      simp only [List.cons_append, smGet, h, if_false, ih, this]

/-- A key that no entry has reads as the default. -/
theorem smGet_of_absent (d : α) (m : SMap α) (k : Nat) (h : ¬ ∃ e ∈ m, e.1 = k) : smGet d m k = d := by
  have := smGet_append d m [] k
  rw [List.append_nil, if_neg h] at this
  exact this

/-- Reading from the entries whose keys pass a test. -/
theorem smGet_filter_key (d : α) (m : SMap α) (p : Nat → Bool) (k : Nat) :
    smGet d (m.filter (fun e => p e.1)) k = if p k = true then smGet d m k else d := by
  induction m with
  | nil => simp [smGet]
  | cons e m ih =>
    by_cases hp : p e.1 = true
    · rw [List.filter_cons, if_pos hp]
      by_cases h : k = e.1
      · subst h; simp [smGet, hp]
      · simp only [smGet, h, if_false, ih]
    · rw [List.filter_cons, if_neg hp, ih]
      by_cases h : k = e.1
      · subst h; simp [hp]
      · simp only [smGet, h, if_false]

/-! ### A stack withdrawn whole -/

section
variable (s : State)

/-- The units of stack k, all withdrawn. -/
theorem isWithdrawn_withdrawStack (k j : Nat) :
    (s.withdrawStack k).isWithdrawn j =
      (s.isWithdrawn j || decide (k * Config.unitsPerStack ≤ j ∧ j < k * Config.unitsPerStack + Config.unitsPerStack)) := by
  unfold State.isWithdrawn
  have hx : (s.withdrawStack k).withdrawn = s.withdrawn.filter (fun (e : Nat × Bool) => decide (e.1 < k * Config.unitsPerStack))
      ++ (upTo Config.unitsPerStack).map (fun u => (k * Config.unitsPerStack + u, true))
      ++ s.withdrawn.filter (fun (e : Nat × Bool) => decide (k * Config.unitsPerStack + Config.unitsPerStack ≤ e.1)) :=
    withdrawn_retirePages _
  rw [hx]
  clear hx
  generalize Config.unitsPerStack = n
  generalize k * n = lo
  have hb : (∃ e ∈ (upTo n).map (fun u => (lo + u, true)), e.1 = j) ↔ lo ≤ j ∧ j < lo + n := by
    simp only [upTo, List.mem_map, List.mem_range]
    constructor
    · rintro ⟨e, ⟨u, hu, rfl⟩, he⟩; simp only at he; omega
    · intro h; exact ⟨(j, true), ⟨j - lo, by omega, by rw [Nat.add_sub_cancel' h.1]⟩, rfl⟩
  have hv : lo ≤ j ∧ j < lo + n → smGet false ((upTo n).map (fun u => (lo + u, true))) j = true := by
    intro h
    have : ∀ (m : SMap Bool), (∀ e ∈ m, e.2 = true) → (∃ e ∈ m, e.1 = j) → smGet false m j = true := by
      intro m
      induction m with
      | nil => simp
      | cons e m ih =>
        intro ht hx
        by_cases he : j = e.1
        · simpa [smGet, he] using ht e (by simp)
        · simp only [smGet, he, if_false]
          refine ih (fun x hx => ht x (by simp [hx])) ?_
          obtain ⟨x, hx, hk⟩ := hx
          rcases List.mem_cons.mp hx with rfl | hx
          · exact absurd hk.symm he
          · exact ⟨x, hx, hk⟩
    exact this _ (by simp) (hb.mpr h)
  have h1 : (∃ e ∈ s.withdrawn.filter (fun e => decide (e.1 < lo)), e.1 = j) ↔ j < lo ∧ ∃ e ∈ s.withdrawn, e.1 = j := by
    simp only [List.mem_filter, decide_eq_true_eq]
    constructor
    · rintro ⟨e, ⟨he, hl⟩, rfl⟩; exact ⟨hl, e, he, rfl⟩
    · rintro ⟨hl, e, he, rfl⟩; exact ⟨e, ⟨he, hl⟩, rfl⟩
  have f1 := smGet_filter_key false s.withdrawn (fun x => decide (x < lo)) j
  have f2 := smGet_filter_key false s.withdrawn (fun x => decide (lo + n ≤ x)) j
  rw [smGet_append, smGet_append]
  by_cases hlo : j < lo
  · have hn : ¬ (lo ≤ j ∧ j < lo + n) := by omega
    by_cases hx : ∃ e ∈ s.withdrawn, e.1 = j
    · have : ∃ e ∈ s.withdrawn.filter (fun e => decide (e.1 < lo)) ++ (upTo n).map (fun u => (lo + u, true)), e.1 = j := by
        obtain ⟨e, he, h⟩ := h1.mpr ⟨hlo, hx⟩
        exact ⟨e, by simp [he], h⟩
      rw [if_pos this, if_pos (h1.mpr ⟨hlo, hx⟩), f1]
      simp [hlo, hn]
    · have hz := smGet_of_absent false s.withdrawn j hx
      have h2 : ¬ lo + n ≤ j := by omega
      simp only [h1, hx, and_false, if_false, hn, f2, hz]
      split
      · rw [smGet_of_absent _ _ _ (by rw [hb]; exact hn)]; simp
      · simp
  · have h1n : ¬ ∃ e ∈ s.withdrawn.filter (fun e => decide (e.1 < lo)), e.1 = j := by rw [h1]; exact fun h => hlo h.1
    have hor : (∃ e ∈ s.withdrawn.filter (fun e => decide (e.1 < lo)) ++ (upTo n).map (fun u => (lo + u, true)), e.1 = j) ↔
        lo ≤ j ∧ j < lo + n := by
      rw [← hb]
      constructor
      · rintro ⟨e, he, h⟩
        rcases List.mem_append.mp he with he | he
        · exact absurd ⟨e, he, h⟩ h1n
        · exact ⟨e, he, h⟩
      · rintro ⟨e, he, h⟩; exact ⟨e, List.mem_append.mpr (.inr he), h⟩
    rw [if_neg h1n]
    by_cases hin : lo ≤ j ∧ j < lo + n
    · rw [if_pos (hor.mpr hin), hv hin]; simp [hin]
    · rw [if_neg (fun h => hin (hor.mp h)), f2]
      have : lo + n ≤ j := by omega
      simp [this, hin]

/-- A greater canonical set of withdrawn units keeps everything. -/
theorem kept_setWithdrawn (w : SMap Bool) (h : ∀ j, smGet false s.withdrawn j = true → smGet false w j = true)
    (hc : smWf false s.withdrawn = true → smWf false w = true) : Kept s { s with withdrawn := w } := by
  refine ⟨rfl, h, fun hs => ?_⟩
  simp only [State.canonical, Bool.and_eq_true] at hs ⊢
  exact ⟨hs.1, hc hs.2⟩

@[simp] theorem kept_withdrawStack (k : Nat) : Kept s (s.withdrawStack k) := by
  unfold State.withdrawStack
  dsimp only
  refine Kept.trans ?_ (kept_retirePages _)
  refine Kept.trans ?_ (kept_dropLines _ _)
  refine kept_setWithdrawn s _ (fun j h => ?_) (fun hw => ?_)
  · have h2 := isWithdrawn_withdrawStack s k j
    unfold State.isWithdrawn at h2
    rw [h, Bool.true_or, show (s.withdrawStack k).withdrawn = _ from withdrawn_retirePages _] at h2
    exact h2
  unfold smWf at hw ⊢
  simp only [Bool.and_eq_true, smRising_iff, List.all_eq_true, decide_eq_true_eq] at hw ⊢
  obtain ⟨⟨-, hp⟩, hd⟩ := hw
  generalize Config.unitsPerStack = n
  generalize k * n = lo
  refine ⟨⟨fun x y => (by cases y), ?_⟩, ?_⟩
  · rw [List.pairwise_append, List.pairwise_append]
    refine ⟨⟨hp.filter _, ?_, ?_⟩, hp.filter _, ?_⟩
    · rw [List.pairwise_map]
      exact List.Pairwise.imp (fun h => by simpa using h) (List.pairwise_lt_range (n := n))
    · intro a ha b hb
      simp only [List.mem_filter, decide_eq_true_eq] at ha
      obtain ⟨u, -, rfl⟩ := List.mem_map.mp hb
      simp only
      omega
    · intro a ha b hb
      simp only [List.mem_filter, decide_eq_true_eq] at hb
      rcases List.mem_append.mp ha with ha | ha
      · simp only [List.mem_filter, decide_eq_true_eq] at ha
        omega
      · obtain ⟨u, hu, rfl⟩ := List.mem_map.mp ha
        simp only [upTo, List.mem_range] at hu
        simp only
        omega
  · intro e he
    rcases List.mem_append.mp he with he | he
    · rcases List.mem_append.mp he with he | he
      · exact hd e (List.mem_filter.mp he).1
      · obtain ⟨u, -, rfl⟩ := List.mem_map.mp he
        simp
    · exact hd e (List.mem_filter.mp he).1

/-! ### Reads with errors, sparing, retirement -/

@[simp] theorem kept_spareDue (a : Nat) : Kept s (s.spareDue a) := kept_modStk ..

@[simp] theorem kept_corrected (a symbols requester : Nat) : Kept s (s.corrected a symbols requester) := by
  unfold State.corrected
  dsimp only
  generalize hr : State.record _ cEccCorrected _ = r
  have k : Kept s r := by
    rw [← hr]
    refine Kept.trans ?_ (kept_record _ _ _)
    exact Kept.of_eq rfl rfl rfl rfl
  split
  · exact k.trans (kept_spareDue _ _)
  · exact k

@[simp] theorem kept_uncorrectable (a requester : Nat) : Kept s (s.uncorrectable a requester) := by
  unfold State.uncorrectable
  dsimp only
  refine Kept.trans ?_ (kept_spareDue _ _)
  refine Kept.trans ?_ (kept_report _ _ _)
  refine Kept.trans ?_ (kept_poisonStack _ _ _)
  exact kept_modStk _ _ _

@[simp] theorem kept_eccRead (a symbols requester : Nat) : Kept s (s.eccRead a symbols requester).1 := by
  unfold State.eccRead
  dsimp only
  split
  · exact .refl s
  · split
    · exact kept_corrected s a symbols requester
    · split
      · exact kept_uncorrectable s a requester
      · split
        · exact (kept_draw s).trans (kept_uncorrectable s.draw.2 a requester)
        · exact kept_draw s

@[simp] theorem kept_demandRead (a symbols requester : Nat) : Kept s (s.demandRead a symbols requester).1 := by
  unfold State.demandRead
  dsimp only
  split
  · exact kept_delivered ..
  · split
    · exact (kept_delivered s [a] false).trans (kept_eccRead _ a symbols requester)
    · refine ((kept_delivered s [a] false).trans (kept_eccRead _ a symbols requester)).trans ?_
      exact Kept.of_eq rfl rfl rfl rfl

@[simp] theorem kept_cacheError (a e requester : Nat) : Kept s (s.cacheError a e requester).1 := by
  unfold State.cacheError
  dsimp only
  split
  · exact .refl s
  · split
    · dsimp only
      exact kept_modCache _ _ _
    · split
      · split
        · dsimp only
          generalize hr : State.report _ cCacheUncorrectable _ = r
          have k : Kept s r := by
            rw [← hr]
            refine Kept.trans ?_ (kept_report _ _ _)
            refine Kept.trans ?_ (kept_poisonLine _ _ _)
            exact kept_modCache _ _ _
          exact k.trans (Kept.of_eq rfl rfl rfl rfl)
        · dsimp only
          refine Kept.trans ?_ (kept_evict _ _)
          exact kept_modCache _ _ _
      · exact .refl s

@[simp] theorem kept_badLines (ok : Nat → Bool) (l : List Nat) : Kept s (s.badLines ok l) := by
  unfold State.badLines
  refine Kept.foldl _ (fun x a => ?_) _ s
  dsimp only
  refine Kept.trans ?_ (kept_report _ _ _)
  exact (kept_modStk x _ _).trans (kept_poisonStack _ _ _)

@[simp] theorem kept_spareRow (k pc rg : Nat) (bad : List Nat) : Kept s (s.spareRow k pc rg bad) := by
  unfold State.spareRow
  dsimp only
  refine Kept.ite (fun _ => ?_) (fun _ => ?_)
  · refine Kept.trans ?_ (kept_modStk _ _ _)
    exact kept_modStk _ _ _
  · refine Kept.trans ?_ (kept_record _ _ _)
    refine Kept.trans ?_ (kept_modStk _ _ _)
    refine Kept.trans ?_ (kept_badLines _ _ _)
    exact kept_modStk _ _ _

@[simp] theorem kept_retirePc (k pc : Nat) : Kept s (s.retirePc k pc) := by
  unfold State.retirePc
  dsimp only
  refine Kept.ite (fun _ => .refl s) (fun _ => ?_)
  refine Kept.trans ?_ (kept_record _ _ _)
  exact (kept_stir s).trans (kept_modStk _ _ _)

@[simp] theorem kept_writeHealth : Kept s s.writeHealth := Kept.of_eq rfl rfl rfl rfl

@[simp] theorem kept_endSpareHold : Kept s s.endSpareHold := by
  unfold State.endSpareHold
  refine Kept.trans ?_ (Kept.foldl _ (fun x d => ?_) _ _)
  · exact Kept.of_eq rfl rfl rfl rfl
  · exact Kept.ite (fun _ => kept_retirePc _ _ _) (fun _ => kept_spareRow _ _ _ _ _)

/-! ### Resets -/

/-- A union of unit sets holds the units of the first. -/
theorem smGet_smUnion_left (a b : SMap Bool) (j : Nat) (h : smGet false a j = true) : smGet false (smUnion a b) j = true := by
  unfold smUnion
  induction b generalizing a with
  | nil => exact h
  | cons e b ih =>
    refine ih _ ?_
    rw [smGet_smSet]
    split
    · rfl
    · exact h

/-- A union of unit sets is canonical where the first is. -/
theorem smWf_smUnion (a b : SMap Bool) (h : smWf false a = true) : smWf false (smUnion a b) = true := by
  unfold smUnion
  induction b generalizing a with
  | nil => exact h
  | cons e b ih => exact ih _ (smWf_smSet _ _ _ _ h)

/-- A reset keeps the queue and the memories, and withdraws no unit back (R206, Table 15-2). -/
@[simp] theorem kept_afterReset (cold kept : Bool) : Kept s (s.afterReset cold kept) := by
  refine ⟨rfl, fun j h => smGet_smUnion_left _ _ _ h, fun h => ?_⟩
  simp only [State.canonical, Bool.and_eq_true] at h ⊢
  exact ⟨h.1, smWf_smUnion _ _ h.2⟩

@[simp] theorem kept_withdrawDue : Kept s s.withdrawDue := by
  refine Kept.each _ (fun k x => ?_) _ s
  refine Kept.trans ?_ (kept_modStk _ _ _)
  exact Kept.foldl _ (fun y e => kept_withdrawUnit _ _ _) _ _

@[simp] theorem kept_retireWorn (l : List (Nat × Nat × Nat)) : Kept s (s.retireWorn l) :=
  Kept.foldl _ (fun _ _ => Kept.ite (fun _ => kept_retirePc ..) (fun _ => .refl _)) _ s

@[simp] theorem kept_finishSparing : Kept s s.finishSparing :=
  Kept.each _ (fun _ _ => Kept.foldl _ (fun _ _ => kept_spareRow ..) _ _) _ s

/-- The start-up memory test; a full one leaves memory with nothing listed (R392). -/
@[simp] theorem kept_memoryTest (full : Bool) (l m : List Nat) : Kept s (s.memoryTest full l m) := by
  unfold State.memoryTest
  dsimp only
  generalize hr : State.withdrawDue _ = r
  have k : Kept s r := by
    rw [← hr]
    refine Kept.trans ?_ (kept_withdrawDue _)
    refine Kept.trans ?_ (kept_retireWorn _ _)
    exact Kept.foldl _ (fun x g => kept_spareRow _ _ _ _ _) _ _
  refine Kept.ite (fun _ => k.trans ?_) (fun _ => k)
  exact Kept.of_mem rfl rfl (fun _ => rfl) (fun _ => rfl)

end

end Sys2Proof.Machine
end

