-- ==== Sys2Proof/Laws/PerInstr.lean ====
section
/-! SUPPORT. Statements made once per command. `Bounded`: a well-formed command names units the module has. -/

namespace Sys2Proof.Laws.Bounded

set_option Elab.async false

/-- The units a command names, each with how many of its kind the module has (sequencers and partitions 8, tiles 64, slots of a
tile 24, stacks 12, ports 8, functions 9, and so on). -/
def units (c : Instr) : List (Nat × Nat) :=
  match c with
  | .operate w => [(w.seq, 8)]
  | .nopWord w => [(w.seq, 8)]
  | .beatRead q => [(q, 8)]
  | .beatWrite q _ => [(q, 8)]
  | .wordRetire q => [(q, 8)]
  | .waitRelease q => [(q, 8)]
  | .waitTimeout q => [(q, 8)]
  | .replayBoundary q => [(q, 8)]
  | .replayFetch q => [(q, 8)]
  | .start q kernel _ _ => [(q, 8), (kernel, 64)]
  | .stop q => [(q, 8)]
  | .kernelDrainEnd q => [(q, 8)]
  | .kernelComplete q => [(q, 8)]
  | .loadGo q _ _ _ => [(q, 8)]
  | .loadComplete q => [(q, 8)]
  | .ktabWrite q e _ => [(q, 8), (e, 64)]
  | .parameterRegisterWrite q r _ => [(q, 8), (r, 16)]
  | .counterStackCountWrite k _ _ => [(k, 12)]
  | .counterCacheStatusWrite d _ _ => [(d, 2)]
  | .counterPortCountWrite n _ _ => [(n, 8)]
  | .registerWrite n _ _ _ _ => [(n, 10)]
  | .nop p _ => [(p, 8)]
  | .waitt p _ => [(p, 8)]
  | .emitt p _ => [(p, 8)]
  | .ldct p _ => [(p, 8)]
  | .stct p _ => [(p, 8)]
  | .bind p _ => [(p, 8)]
  | .ldl p _ => [(p, 8)]
  | .stl p _ => [(p, 8)]
  | .ldt p _ => [(p, 8)]
  | .stt p _ => [(p, 8)]
  | .ladd p _ => [(p, 8)]
  | .lsub p _ => [(p, 8)]
  | .lneg p _ => [(p, 8)]
  | .lmul p _ => [(p, 8)]
  | .lmac p _ => [(p, 8)]
  | .lmulc p _ => [(p, 8)]
  | .lntt p _ => [(p, 8)]
  | .lintt p _ => [(p, 8)]
  | .laut p _ => [(p, 8)]
  | .cadd p _ => [(p, 8)]
  | .csub p _ => [(p, 8)]
  | .cneg p _ => [(p, 8)]
  | .caddp p _ => [(p, 8)]
  | .cmulp p _ => [(p, 8)]
  | .cmul p _ => [(p, 8)]
  | .cmuli p _ => [(p, 8)]
  | .relin p _ => [(p, 8)]
  | .rot p _ => [(p, 8)]
  | .ksw p _ => [(p, 8)]
  | .modup p _ => [(p, 8)]
  | .moddown p _ => [(p, 8)]
  | .rescale p _ => [(p, 8)]
  | .modsw p _ => [(p, 8)]
  | .drop p _ => [(p, 8)]
  | .toeval p _ => [(p, 8)]
  | .tocoef p _ => [(p, 8)]
  | .encpk p _ => [(p, 8)]
  | .modraise p _ => [(p, 8)]
  | .bootclose p _ => [(p, 8)]
  | .flood p _ => [(p, 8)]
  | .mmul p _ => [(p, 8)]
  | .vpass p _ => [(p, 8)]
  | .rseed p _ => [(p, 8)]
  | .allred p _ => [(p, 8)]
  | .bcast p _ => [(p, 8)]
  | .gather p _ => [(p, 8)]
  | .streamArm t i => [(t, 64), (i, 24)]
  | .streamGo t i => [(t, 64), (i, 24)]
  | .streamAbort t i => [(t, 64), (i, 24)]
  | .slotWrite t i _ _ => [(t, 64), (i, 24)]
  | .fetchStatusRead t => [(t, 64)]
  | .blockListRead t i => [(t, 64), (i, 24)]
  | .streamBlockStart t i => [(t, 64), (i, 24)]
  | .fetchLineLand t i => [(t, 64), (i, 24)]
  | .storeAck t i => [(t, 64), (i, 24)]
  | .streamBlockComplete t i => [(t, 64), (i, 24)]
  | .streamRunComplete t i => [(t, 64), (i, 24)]
  | .streamAbortDrained t i => [(t, 64), (i, 24)]
  | .ctHeaderLoad t i => [(t, 64), (i, 24)]
  | .keyHeaderCheck t i => [(t, 64), (i, 24)]
  | .tensorHeaderRead t i => [(t, 64), (i, 24)]
  | .coordinateListRead t i _ => [(t, 64), (i, 24)]
  | .badgerChainStart t i => [(t, 64), (i, 24)]
  | .badgerChainEnd t i _ => [(t, 64), (i, 24)]
  | .noiseRequestGo w => [(w.part, 8)]
  | .noiseRequestDone p => [(p, 8)]
  | .stackRead _ _ _ => []
  | .stackWrite _ _ _ => []
  | .correctedWriteback _ => []
  | .atomic _ _ _ _ _ => []
  | .dirtyWriteback _ => []
  | .patrolScrub k _ => [(k, 12)]
  | .rowSparing k pc rg _ => [(k, 12), (pc, 64), (rg, Config.unitsPerStack)]
  | .pcRetirement k r => [(k, 12), (r.pc, 64)]
  | .migration k _ => [(k, 12)]
  | .withdrawal k u => [(k, 12), (u, Config.unitsPerStack)]
  | .healthRecordWrite => []
  | .stackLoss k => [(k, 12)]
  | .spareHoldExpiry => []
  | .send p ep _ _ => [(p, 8), (ep, 68)]
  | .recv p ep _ _ => [(p, 8), (ep, 68)]
  | .close p ep _ _ => [(p, 8), (ep, 68)]
  | .openQueue p ep _ _ => [(p, 8), (ep, 68)]
  | .clrf p ep _ _ => [(p, 8), (ep, 68)]
  | .heldCommandResume p ep _ _ => [(p, 8), (ep, 68)]
  | .recordArrival p route => [(p, 8), (route, 1088)]
  | .spillDrain p ep queue => [(p, 8), (ep, 68), (queue, 16)]
  | .spillWriteComplete p ep queue => [(p, 8), (ep, 68), (queue, 16)]
  | .qreset p ep queue => [(p, 8), (ep, 256), (queue, 16)]
  | .flagSet p _ => [(p, 8)]
  | .progressWatchdog p ep queue => [(p, 8), (ep, 256), (queue, 16)]
  | .ledgerCheck p _ => [(p, 8)]
  | .snap l => [(l.part, 8)]
  | .dump l => [(l.part, 8)]
  | .load source _ _ => [(source, 4)]
  | .heldLoadStart _ _ => []
  | .teardown w => [(w.part, 8)]
  | .nvWrite slot _ _ => [(slot, 4)]
  | .invalidate slot => [(slot, 4)]
  | .change _ => []
  | .scrub _ => []
  | .ownerChangeScrubDone _ _ => []
  | .flitReceive n _ _ => [(n, 8)]
  | .replayTimeout n => [(n, 8)]
  | .packetForward n => [(n, 8)]
  | .portTraining n _ => [(n, 8)]
  | .trainingRetry n _ => [(n, 8)]
  | .laneFailure n lane => [(n, 8), (lane, 8)]
  | .portDown n => [(n, 8)]
  | .retrain n _ => [(n, 8)]
  | .contributionArrival _ => []
  | .dataArrival _ => []
  | .landingAcknowledgement _ _ _ => []
  | .landingAckSend _ _ => []
  | .collSendUp c => [(c, 64)]
  | .collResultComplete c => [(c, 64)]
  | .collTimeout c => [(c, 64)]
  | .ceiling _ _ _ => []
  | .epoch _ _ _ => []
  | .epochTimer => []
  | .freqLockLost => []
  | .abort _ _ _ _ _ _ => []
  | .join _ _ _ _ => []
  | .joinResult _ _ => []
  | .leave _ _ _ => []
  | .advert n _ => [(n, 8)]
  | .joinLimitExpiry => []
  | .frogEntry n => [(n, 8)]
  | .frogExit n => [(n, 8)]
  | .sqTail n q _ _ => [(n, 9), (q, 8)]
  | .cqHead n q _ _ => [(n, 9), (q, 8)]
  | .qcfgWrite n q _ _ => [(n, 9), (q, 8)]
  | .winBaseWrite n _ _ => [(n, 9)]
  | .descriptorFetch n q _ => [(n, 9), (q, 8)]
  | .nopDescriptor n q => [(n, 9), (q, 8)]
  | .run n q => [(n, 9), (q, 8)]
  | .loadPkg n q => [(n, 9), (q, 8)]
  | .unloadPkg n q => [(n, 9), (q, 8)]
  | .copyIn n q _ => [(n, 9), (q, 8)]
  | .copyOut n q _ => [(n, 9), (q, 8)]
  | .ctxSave n q => [(n, 9), (q, 8)]
  | .ctxRestore n q => [(n, 9), (q, 8)]
  | .interruptTimer n q => [(n, 9), (q, 8)]
  | .bar2Read n _ _ _ => [(n, 9)]
  | .bar2Write n _ _ _ => [(n, 9)]
  | .linkRetrain _ _ => []
  | .vfFunctionLevelReset n => [(n, 9)]
  | .pf0FunctionLevelReset => []
  | .setEndpointId _ => []
  | .getEndpointId => []
  | .getMctpVersionSupport => []
  | .getMessageTypeSupport => []
  | .getEndpointUuid => []
  | .pldmBase _ => []
  | .pldmMonitoringAndControl _ _ => []
  | .pldmFru => []
  | .pldmFirmwareUpdate _ _ => []
  | .firmwareActivation _ => []
  | .regRead _ => []
  | .regWrite _ _ => []
  | .ownerChange _ => []
  | .ownerScrub _ => []
  | .getVersion _ => []
  | .getCapabilities _ => []
  | .negotiateAlgorithms _ _ => []
  | .getCertificate _ _ _ _ => []
  | .challenge _ _ _ => []
  | .getMeasurements _ _ _ => []
  | .keyExchange _ _ => []
  | .heartbeat _ sid => [(sid, 4)]
  | .heartbeatTimeout _ sid => [(sid, 4)]
  | .keyUpdate _ sid => [(sid, 4)]
  | .ideKm sid fn _ => [(sid, 4), (fn, 9)]
  | .lockInterfaceRequest sid n => [(sid, 4), (n, 9)]
  | .startInterfaceRequest sid n => [(sid, 4), (n, 9)]
  | .stopInterfaceRequest sid n => [(sid, 4), (n, 9)]
  | .installOwner => []
  | .ecdsaVerify _ => []
  | .ecdsaSign _ => []
  | .ecdh _ => []
  | .gen _ => []
  | .readPublic _ => []
  | .rsaVerify _ => []
  | .pkOperationDone _ => []
  | .microcodeCheck _ => []
  | .entropySample _ => []
  | .enterA1 => []
  | .enterLizard => []
  | .enterDeepLizard => []
  | .powerStateExit => []
  | .bankSleepWrite t _ => [(t, 64)]
  | .bankPowerOff t b => [(t, 64), (b, 24)]
  | .bankWakeDone t b => [(t, 64), (b, 24)]
  | .frequencyChange => []
  | .dutyWindow => []
  | .powerSample _ _ _ => []
  | .capRecompute _ _ => []
  | .capCeilingRaise => []
  | .thermalThrottle d _ => [(d, 2)]
  | .thermalStep d _ => [(d, 2)]
  | .trip _ _ _ => []
  | .ageingTrim a => [(a.die, 2)]
  | .pwrCtrlWrite _ => []
  | .coldStart _ => []
  | .deviceReset _ _ => []
  | .pwrGoodDeassert => []
  | .refclkLoss => []
  | .watchdogExpiry c _ => [(c, 4)]
  | .coreRestartDone c => [(c, 4)]
  | .rollbackCounterRaise => []
  | .logicBist _ => []
  | .arrayMemoryBist _ => []
  | .cacheMemoryBist _ => []
  | .stackMemoryBist _ => []
  | .bistAbort _ => []
  | .bistDone _ _ => []
  | .rasTailWrite _ => []
  | .fatalClear => []
  | .pwrGoodAssert _ => []
  | .lossOfInput => []
  | .refclkReturn => []
  | .perstDeassertion _ => []
  | .trippedResetRelease _ _ _ => []
  | .configurationAccess _ => []
  | .registerRead n _ _ _ => [(n, 10)]
  | .finish _ sid => [(sid, 4)]
  | .endSession _ sid => [(sid, 4)]
  | .frequencyChangeEnd => []
  | .powerStateExitDone => []

/-- Every unit a well-formed command names exists. -/
def Statement (c : Instr) : Prop := c.wf = true → ∀ e ∈ units c, e.1 < e.2

/-- No unit named. -/
theorem of_none {c : Instr} (h : units c = []) : Statement c := by
  intro _ e he
  rw [h] at he
  cases he

/-- One unit named. -/
theorem of_one {c : Instr} {n k : Nat} (h : units c = [(n, k)]) (w : c.wf = true → n < k) : Statement c := by
  intro hw e he
  rw [h] at he
  rcases List.mem_singleton.mp he with rfl
  exact w hw

/-- More units named. -/
theorem of_more {c : Instr} {l : List (Nat × Nat)} (h : units c = l) (w : c.wf = true → l.all (fun e => decide (e.1 < e.2)) = true) :
    Statement c := by
  intro hw e he
  rw [h] at he
  exact of_decide_eq_true (List.all_eq_true.mp (w hw) e he)

theorem operate : ∀ w, Statement (.operate w) := fun _ => of_one rfl of_decide_eq_true
theorem nopWord : ∀ q, Statement (.nopWord q) := fun _ => of_one rfl of_decide_eq_true
theorem beatRead : ∀ q, Statement (.beatRead q) := fun _ => of_one rfl of_decide_eq_true
theorem beatWrite : ∀ q a1, Statement (.beatWrite q a1) := fun _ _ => of_one rfl of_decide_eq_true
theorem wordRetire : ∀ q, Statement (.wordRetire q) := fun _ => of_one rfl of_decide_eq_true
theorem waitRelease : ∀ q, Statement (.waitRelease q) := fun _ => of_one rfl of_decide_eq_true
theorem waitTimeout : ∀ q, Statement (.waitTimeout q) := fun _ => of_one rfl of_decide_eq_true
theorem replayBoundary : ∀ q, Statement (.replayBoundary q) := fun _ => of_one rfl of_decide_eq_true
theorem replayFetch : ∀ q, Statement (.replayFetch q) := fun _ => of_one rfl of_decide_eq_true
theorem start : ∀ q kernel replays a3, Statement (.start q kernel replays a3) := fun q kernel replays _ => of_more rfl (fun (h : (decide (q < 8) && decide (kernel < 64) && decide (replays < 2 ^ 24)) = true) => by
    simp only [Bool.and_eq_true] at h
    show (decide (q < 8) && (decide (kernel < 64) && true)) = true
    simp only [h, Bool.and_self])
theorem stop : ∀ q, Statement (.stop q) := fun _ => of_one rfl of_decide_eq_true
theorem kernelDrainEnd : ∀ q, Statement (.kernelDrainEnd q) := fun _ => of_one rfl of_decide_eq_true
theorem kernelComplete : ∀ q, Statement (.kernelComplete q) := fun _ => of_one rfl of_decide_eq_true
theorem loadGo : ∀ q dest count a3, Statement (.loadGo q dest count a3) := fun q dest count _ => of_one rfl (fun (h : (decide (q < 8) && decide (dest < 2 ^ 15) && decide (count < 2 ^ 16)) = true) => by
    simp only [Bool.and_eq_true] at h
    exact of_decide_eq_true (by simp only [h]))
theorem loadComplete : ∀ q, Statement (.loadComplete q) := fun _ => of_one rfl of_decide_eq_true
theorem ktabWrite : ∀ q e a2, Statement (.ktabWrite q e a2) := fun q e _ => of_more rfl (fun (h : (decide (q < 8) && decide (e < 64)) = true) => by
    simp only [Bool.and_eq_true] at h
    show (decide (q < 8) && (decide (e < 64) && true)) = true
    simp only [h, Bool.and_self])
theorem parameterRegisterWrite : ∀ q r a2, Statement (.parameterRegisterWrite q r a2) := fun q r _ => of_more rfl (fun (h : (decide (q < 8) && decide (r < 16)) = true) => by
    simp only [Bool.and_eq_true] at h
    show (decide (q < 8) && (decide (r < 16) && true)) = true
    simp only [h, Bool.and_self])
theorem counterStackCountWrite : ∀ k a1 a2, Statement (.counterStackCountWrite k a1 a2) := fun _ _ _ => of_one rfl of_decide_eq_true
theorem counterCacheStatusWrite : ∀ d a1 a2, Statement (.counterCacheStatusWrite d a1 a2) := fun _ _ _ => of_one rfl of_decide_eq_true
theorem counterPortCountWrite : ∀ n a1 a2, Statement (.counterPortCountWrite n a1 a2) := fun _ _ _ => of_one rfl of_decide_eq_true
theorem registerWrite : ∀ n a size a3 a4, Statement (.registerWrite n a size a3 a4) := fun n a size _ _ => of_one rfl (fun (h : (regOk n a size) = true) => by
    simp only [regOk, Bool.and_eq_true] at h
    exact Nat.lt_succ_of_le (of_decide_eq_true (by simp only [h])))
theorem nop : ∀ p g, Statement (.nop p g) := fun p g => of_one rfl (fun (h : (gOk p g) = true) => by
    simp only [gOk, Bool.and_eq_true] at h
    exact of_decide_eq_true (by simp only [h]))
theorem waitt : ∀ p g, Statement (.waitt p g) := fun p g => of_one rfl (fun (h : (gOk p g) = true) => by
    simp only [gOk, Bool.and_eq_true] at h
    exact of_decide_eq_true (by simp only [h]))
theorem emitt : ∀ p g, Statement (.emitt p g) := fun p g => of_one rfl (fun (h : (gOk p g) = true) => by
    simp only [gOk, Bool.and_eq_true] at h
    exact of_decide_eq_true (by simp only [h]))
theorem ldct : ∀ p g, Statement (.ldct p g) := fun p g => of_one rfl (fun (h : (gOk p g) = true) => by
    simp only [gOk, Bool.and_eq_true] at h
    exact of_decide_eq_true (by simp only [h]))
theorem stct : ∀ p g, Statement (.stct p g) := fun p g => of_one rfl (fun (h : (gOk p g) = true) => by
    simp only [gOk, Bool.and_eq_true] at h
    exact of_decide_eq_true (by simp only [h]))
theorem bind : ∀ p g, Statement (.bind p g) := fun p g => of_one rfl (fun (h : (gOk p g) = true) => by
    simp only [gOk, Bool.and_eq_true] at h
    exact of_decide_eq_true (by simp only [h]))
theorem ldl : ∀ p g, Statement (.ldl p g) := fun p g => of_one rfl (fun (h : (gOk p g) = true) => by
    simp only [gOk, Bool.and_eq_true] at h
    exact of_decide_eq_true (by simp only [h]))
theorem stl : ∀ p g, Statement (.stl p g) := fun p g => of_one rfl (fun (h : (gOk p g) = true) => by
    simp only [gOk, Bool.and_eq_true] at h
    exact of_decide_eq_true (by simp only [h]))
theorem ldt : ∀ p g, Statement (.ldt p g) := fun p g => of_one rfl (fun (h : (gOk p g) = true) => by
    simp only [gOk, Bool.and_eq_true] at h
    exact of_decide_eq_true (by simp only [h]))
theorem stt : ∀ p g, Statement (.stt p g) := fun p g => of_one rfl (fun (h : (gOk p g) = true) => by
    simp only [gOk, Bool.and_eq_true] at h
    exact of_decide_eq_true (by simp only [h]))
theorem ladd : ∀ p g, Statement (.ladd p g) := fun p g => of_one rfl (fun (h : (gOk p g) = true) => by
    simp only [gOk, Bool.and_eq_true] at h
    exact of_decide_eq_true (by simp only [h]))
theorem lsub : ∀ p g, Statement (.lsub p g) := fun p g => of_one rfl (fun (h : (gOk p g) = true) => by
    simp only [gOk, Bool.and_eq_true] at h
    exact of_decide_eq_true (by simp only [h]))
theorem lneg : ∀ p g, Statement (.lneg p g) := fun p g => of_one rfl (fun (h : (gOk p g) = true) => by
    simp only [gOk, Bool.and_eq_true] at h
    exact of_decide_eq_true (by simp only [h]))
theorem lmul : ∀ p g, Statement (.lmul p g) := fun p g => of_one rfl (fun (h : (gOk p g) = true) => by
    simp only [gOk, Bool.and_eq_true] at h
    exact of_decide_eq_true (by simp only [h]))
theorem lmac : ∀ p g, Statement (.lmac p g) := fun p g => of_one rfl (fun (h : (gOk p g) = true) => by
    simp only [gOk, Bool.and_eq_true] at h
    exact of_decide_eq_true (by simp only [h]))
theorem lmulc : ∀ p g, Statement (.lmulc p g) := fun p g => of_one rfl (fun (h : (gOk p g) = true) => by
    simp only [gOk, Bool.and_eq_true] at h
    exact of_decide_eq_true (by simp only [h]))
theorem lntt : ∀ p g, Statement (.lntt p g) := fun p g => of_one rfl (fun (h : (gOk p g) = true) => by
    simp only [gOk, Bool.and_eq_true] at h
    exact of_decide_eq_true (by simp only [h]))
theorem lintt : ∀ p g, Statement (.lintt p g) := fun p g => of_one rfl (fun (h : (gOk p g) = true) => by
    simp only [gOk, Bool.and_eq_true] at h
    exact of_decide_eq_true (by simp only [h]))
theorem laut : ∀ p g, Statement (.laut p g) := fun p g => of_one rfl (fun (h : (gOk p g) = true) => by
    simp only [gOk, Bool.and_eq_true] at h
    exact of_decide_eq_true (by simp only [h]))
theorem cadd : ∀ p g, Statement (.cadd p g) := fun p g => of_one rfl (fun (h : (gOk p g) = true) => by
    simp only [gOk, Bool.and_eq_true] at h
    exact of_decide_eq_true (by simp only [h]))
theorem csub : ∀ p g, Statement (.csub p g) := fun p g => of_one rfl (fun (h : (gOk p g) = true) => by
    simp only [gOk, Bool.and_eq_true] at h
    exact of_decide_eq_true (by simp only [h]))
theorem cneg : ∀ p g, Statement (.cneg p g) := fun p g => of_one rfl (fun (h : (gOk p g) = true) => by
    simp only [gOk, Bool.and_eq_true] at h
    exact of_decide_eq_true (by simp only [h]))
theorem caddp : ∀ p g, Statement (.caddp p g) := fun p g => of_one rfl (fun (h : (gOk p g) = true) => by
    simp only [gOk, Bool.and_eq_true] at h
    exact of_decide_eq_true (by simp only [h]))
theorem cmulp : ∀ p g, Statement (.cmulp p g) := fun p g => of_one rfl (fun (h : (gOk p g) = true) => by
    simp only [gOk, Bool.and_eq_true] at h
    exact of_decide_eq_true (by simp only [h]))
theorem cmul : ∀ p g, Statement (.cmul p g) := fun p g => of_one rfl (fun (h : (gOk p g) = true) => by
    simp only [gOk, Bool.and_eq_true] at h
    exact of_decide_eq_true (by simp only [h]))
theorem cmuli : ∀ p g, Statement (.cmuli p g) := fun p g => of_one rfl (fun (h : (gOk p g) = true) => by
    simp only [gOk, Bool.and_eq_true] at h
    exact of_decide_eq_true (by simp only [h]))
theorem relin : ∀ p g, Statement (.relin p g) := fun p g => of_one rfl (fun (h : (gOk p g) = true) => by
    simp only [gOk, Bool.and_eq_true] at h
    exact of_decide_eq_true (by simp only [h]))
theorem rot : ∀ p g, Statement (.rot p g) := fun p g => of_one rfl (fun (h : (gOk p g) = true) => by
    simp only [gOk, Bool.and_eq_true] at h
    exact of_decide_eq_true (by simp only [h]))
theorem ksw : ∀ p g, Statement (.ksw p g) := fun p g => of_one rfl (fun (h : (gOk p g) = true) => by
    simp only [gOk, Bool.and_eq_true] at h
    exact of_decide_eq_true (by simp only [h]))
theorem modup : ∀ p g, Statement (.modup p g) := fun p g => of_one rfl (fun (h : (gOk p g) = true) => by
    simp only [gOk, Bool.and_eq_true] at h
    exact of_decide_eq_true (by simp only [h]))
theorem moddown : ∀ p g, Statement (.moddown p g) := fun p g => of_one rfl (fun (h : (gOk p g) = true) => by
    simp only [gOk, Bool.and_eq_true] at h
    exact of_decide_eq_true (by simp only [h]))
theorem rescale : ∀ p g, Statement (.rescale p g) := fun p g => of_one rfl (fun (h : (gOk p g) = true) => by
    simp only [gOk, Bool.and_eq_true] at h
    exact of_decide_eq_true (by simp only [h]))
theorem modsw : ∀ p g, Statement (.modsw p g) := fun p g => of_one rfl (fun (h : (gOk p g) = true) => by
    simp only [gOk, Bool.and_eq_true] at h
    exact of_decide_eq_true (by simp only [h]))
theorem drop : ∀ p g, Statement (.drop p g) := fun p g => of_one rfl (fun (h : (gOk p g) = true) => by
    simp only [gOk, Bool.and_eq_true] at h
    exact of_decide_eq_true (by simp only [h]))
theorem toeval : ∀ p g, Statement (.toeval p g) := fun p g => of_one rfl (fun (h : (gOk p g) = true) => by
    simp only [gOk, Bool.and_eq_true] at h
    exact of_decide_eq_true (by simp only [h]))
theorem tocoef : ∀ p g, Statement (.tocoef p g) := fun p g => of_one rfl (fun (h : (gOk p g) = true) => by
    simp only [gOk, Bool.and_eq_true] at h
    exact of_decide_eq_true (by simp only [h]))
theorem encpk : ∀ p g, Statement (.encpk p g) := fun p g => of_one rfl (fun (h : (gOk p g) = true) => by
    simp only [gOk, Bool.and_eq_true] at h
    exact of_decide_eq_true (by simp only [h]))
theorem modraise : ∀ p g, Statement (.modraise p g) := fun p g => of_one rfl (fun (h : (gOk p g) = true) => by
    simp only [gOk, Bool.and_eq_true] at h
    exact of_decide_eq_true (by simp only [h]))
theorem bootclose : ∀ p g, Statement (.bootclose p g) := fun p g => of_one rfl (fun (h : (gOk p g) = true) => by
    simp only [gOk, Bool.and_eq_true] at h
    exact of_decide_eq_true (by simp only [h]))
theorem flood : ∀ p g, Statement (.flood p g) := fun p g => of_one rfl (fun (h : (gOk p g) = true) => by
    simp only [gOk, Bool.and_eq_true] at h
    exact of_decide_eq_true (by simp only [h]))
theorem mmul : ∀ p g, Statement (.mmul p g) := fun p g => of_one rfl (fun (h : (gOk p g) = true) => by
    simp only [gOk, Bool.and_eq_true] at h
    exact of_decide_eq_true (by simp only [h]))
theorem vpass : ∀ p g, Statement (.vpass p g) := fun p g => of_one rfl (fun (h : (gOk p g) = true) => by
    simp only [gOk, Bool.and_eq_true] at h
    exact of_decide_eq_true (by simp only [h]))
theorem rseed : ∀ p g, Statement (.rseed p g) := fun p g => of_one rfl (fun (h : (gOk p g) = true) => by
    simp only [gOk, Bool.and_eq_true] at h
    exact of_decide_eq_true (by simp only [h]))
theorem allred : ∀ p g, Statement (.allred p g) := fun p g => of_one rfl (fun (h : (gOk p g) = true) => by
    simp only [gOk, Bool.and_eq_true] at h
    exact of_decide_eq_true (by simp only [h]))
theorem bcast : ∀ p g, Statement (.bcast p g) := fun p g => of_one rfl (fun (h : (gOk p g) = true) => by
    simp only [gOk, Bool.and_eq_true] at h
    exact of_decide_eq_true (by simp only [h]))
theorem gather : ∀ p g, Statement (.gather p g) := fun p g => of_one rfl (fun (h : (gOk p g) = true) => by
    simp only [gOk, Bool.and_eq_true] at h
    exact of_decide_eq_true (by simp only [h]))
theorem streamArm : ∀ t i, Statement (.streamArm t i) := fun t i => of_more rfl (fun (h : (slotOk t i) = true) => by
    simp only [slotOk, Bool.and_eq_true] at h
    show (decide (t < 64) && (decide (i < 24) && true)) = true
    simp only [h, Bool.and_self])
theorem streamGo : ∀ t i, Statement (.streamGo t i) := fun t i => of_more rfl (fun (h : (slotOk t i) = true) => by
    simp only [slotOk, Bool.and_eq_true] at h
    show (decide (t < 64) && (decide (i < 24) && true)) = true
    simp only [h, Bool.and_self])
theorem streamAbort : ∀ t i, Statement (.streamAbort t i) := fun t i => of_more rfl (fun (h : (slotOk t i) = true) => by
    simp only [slotOk, Bool.and_eq_true] at h
    show (decide (t < 64) && (decide (i < 24) && true)) = true
    simp only [h, Bool.and_self])
theorem slotWrite : ∀ t i w a3, Statement (.slotWrite t i w a3) := fun t i w _ => of_more rfl (fun (h : (slotOk t i && decide (w < 8)) = true) => by
    simp only [slotOk, Bool.and_eq_true] at h
    show (decide (t < 64) && (decide (i < 24) && true)) = true
    simp only [h, Bool.and_self])
theorem fetchStatusRead : ∀ t, Statement (.fetchStatusRead t) := fun _ => of_one rfl of_decide_eq_true
theorem blockListRead : ∀ t i, Statement (.blockListRead t i) := fun t i => of_more rfl (fun (h : (slotOk t i) = true) => by
    simp only [slotOk, Bool.and_eq_true] at h
    show (decide (t < 64) && (decide (i < 24) && true)) = true
    simp only [h, Bool.and_self])
theorem streamBlockStart : ∀ t i, Statement (.streamBlockStart t i) := fun t i => of_more rfl (fun (h : (slotOk t i) = true) => by
    simp only [slotOk, Bool.and_eq_true] at h
    show (decide (t < 64) && (decide (i < 24) && true)) = true
    simp only [h, Bool.and_self])
theorem fetchLineLand : ∀ t i, Statement (.fetchLineLand t i) := fun t i => of_more rfl (fun (h : (slotOk t i) = true) => by
    simp only [slotOk, Bool.and_eq_true] at h
    show (decide (t < 64) && (decide (i < 24) && true)) = true
    simp only [h, Bool.and_self])
theorem storeAck : ∀ t i, Statement (.storeAck t i) := fun t i => of_more rfl (fun (h : (slotOk t i) = true) => by
    simp only [slotOk, Bool.and_eq_true] at h
    show (decide (t < 64) && (decide (i < 24) && true)) = true
    simp only [h, Bool.and_self])
theorem streamBlockComplete : ∀ t i, Statement (.streamBlockComplete t i) := fun t i => of_more rfl (fun (h : (slotOk t i) = true) => by
    simp only [slotOk, Bool.and_eq_true] at h
    show (decide (t < 64) && (decide (i < 24) && true)) = true
    simp only [h, Bool.and_self])
theorem streamRunComplete : ∀ t i, Statement (.streamRunComplete t i) := fun t i => of_more rfl (fun (h : (slotOk t i) = true) => by
    simp only [slotOk, Bool.and_eq_true] at h
    show (decide (t < 64) && (decide (i < 24) && true)) = true
    simp only [h, Bool.and_self])
theorem streamAbortDrained : ∀ t i, Statement (.streamAbortDrained t i) := fun t i => of_more rfl (fun (h : (slotOk t i) = true) => by
    simp only [slotOk, Bool.and_eq_true] at h
    show (decide (t < 64) && (decide (i < 24) && true)) = true
    simp only [h, Bool.and_self])
theorem ctHeaderLoad : ∀ t i, Statement (.ctHeaderLoad t i) := fun t i => of_more rfl (fun (h : (slotOk t i) = true) => by
    simp only [slotOk, Bool.and_eq_true] at h
    show (decide (t < 64) && (decide (i < 24) && true)) = true
    simp only [h, Bool.and_self])
theorem keyHeaderCheck : ∀ t i, Statement (.keyHeaderCheck t i) := fun t i => of_more rfl (fun (h : (slotOk t i) = true) => by
    simp only [slotOk, Bool.and_eq_true] at h
    show (decide (t < 64) && (decide (i < 24) && true)) = true
    simp only [h, Bool.and_self])
theorem tensorHeaderRead : ∀ t i, Statement (.tensorHeaderRead t i) := fun t i => of_more rfl (fun (h : (slotOk t i) = true) => by
    simp only [slotOk, Bool.and_eq_true] at h
    show (decide (t < 64) && (decide (i < 24) && true)) = true
    simp only [h, Bool.and_self])
theorem coordinateListRead : ∀ t i a2, Statement (.coordinateListRead t i a2) := fun t i _ => of_more rfl (fun (h : (slotOk t i) = true) => by
    simp only [slotOk, Bool.and_eq_true] at h
    show (decide (t < 64) && (decide (i < 24) && true)) = true
    simp only [h, Bool.and_self])
theorem badgerChainStart : ∀ t i, Statement (.badgerChainStart t i) := fun t i => of_more rfl (fun (h : (slotOk t i) = true) => by
    simp only [slotOk, Bool.and_eq_true] at h
    show (decide (t < 64) && (decide (i < 24) && true)) = true
    simp only [h, Bool.and_self])
theorem badgerChainEnd : ∀ t i a2, Statement (.badgerChainEnd t i a2) := fun t i _ => of_more rfl (fun (h : (slotOk t i) = true) => by
    simp only [slotOk, Bool.and_eq_true] at h
    show (decide (t < 64) && (decide (i < 24) && true)) = true
    simp only [h, Bool.and_self])
theorem noiseRequestGo : ∀ p, Statement (.noiseRequestGo p) := fun _ => of_one rfl of_decide_eq_true
theorem noiseRequestDone : ∀ p, Statement (.noiseRequestDone p) := fun _ => of_one rfl of_decide_eq_true
theorem stackRead : ∀ addr symbols cache, Statement (.stackRead addr symbols cache) := fun _ _ _ => of_none rfl
theorem stackWrite : ∀ addr data symbols, Statement (.stackWrite addr data symbols) := fun _ _ _ => of_none rfl
theorem correctedWriteback : ∀ addr, Statement (.correctedWriteback addr) := fun _ => of_none rfl
theorem atomic : ∀ a0 addr a2 a3 a4, Statement (.atomic a0 addr a2 a3 a4) := fun _ _ _ _ _ => of_none rfl
theorem dirtyWriteback : ∀ addr, Statement (.dirtyWriteback addr) := fun _ => of_none rfl
theorem patrolScrub : ∀ k symbols, Statement (.patrolScrub k symbols) := fun k symbols => of_one rfl (fun (h : (decide (k < 12) && decide (symbols ≤ 144)) = true) => by
    simp only [Bool.and_eq_true] at h
    exact of_decide_eq_true (by simp only [h]))
theorem rowSparing : ∀ k pc rg a3, Statement (.rowSparing k pc rg a3) := fun k pc rg _ => of_more rfl (fun (h : (decide (k < 12) && decide (pc < 64) && decide (rg < Config.unitsPerStack)) = true) => by
    simp only [Bool.and_eq_true] at h
    show (decide (k < 12) && (decide (pc < 64) && (decide (rg < Config.unitsPerStack) && true))) = true
    simp only [h, Bool.and_self])
theorem pcRetirement : ∀ k r, Statement (.pcRetirement k r) := fun k r => of_more rfl (fun (h : (decide (k < 12) && decide (r.pc < 64)) = true) => by
    simp only [Bool.and_eq_true] at h
    show (decide (k < 12) && (decide (r.pc < 64) && true)) = true
    simp only [h, Bool.and_self])
theorem migration : ∀ k m, Statement (.migration k m) := fun k m => of_one rfl (fun (h : (decide (k < 12) && decide (m.groups ≤ Config.unitsPerStack)) = true) => by
    simp only [Bool.and_eq_true] at h
    exact of_decide_eq_true (by simp only [h]))
theorem withdrawal : ∀ k u, Statement (.withdrawal k u) := fun k u => of_more rfl (fun (h : (decide (k < 12) && decide (u < Config.unitsPerStack)) = true) => by
    simp only [Bool.and_eq_true] at h
    show (decide (k < 12) && (decide (u < Config.unitsPerStack) && true)) = true
    simp only [h, Bool.and_self])
theorem healthRecordWrite : Statement .healthRecordWrite := of_none rfl
theorem stackLoss : ∀ k, Statement (.stackLoss k) := fun _ => of_one rfl of_decide_eq_true
theorem spareHoldExpiry : Statement .spareHoldExpiry := of_none rfl
theorem send : ∀ p ep idx c, Statement (.send p ep idx c) := fun p ep idx c => of_more rfl (fun (h : (epOkArgs p ep idx c) = true) => by
    simp only [epOkArgs, Bool.and_eq_true] at h
    show (decide (p < 8) && (decide (ep < 68) && true)) = true
    simp only [h, Bool.and_self])
theorem recv : ∀ p ep idx c, Statement (.recv p ep idx c) := fun p ep idx c => of_more rfl (fun (h : (epOkArgs p ep idx c) = true) => by
    simp only [epOkArgs, Bool.and_eq_true] at h
    show (decide (p < 8) && (decide (ep < 68) && true)) = true
    simp only [h, Bool.and_self])
theorem close : ∀ p ep idx c, Statement (.close p ep idx c) := fun p ep idx c => of_more rfl (fun (h : (epOkArgs p ep idx c) = true) => by
    simp only [epOkArgs, Bool.and_eq_true] at h
    show (decide (p < 8) && (decide (ep < 68) && true)) = true
    simp only [h, Bool.and_self])
theorem openQueue : ∀ p ep idx c, Statement (.openQueue p ep idx c) := fun p ep idx c => of_more rfl (fun (h : (epOkArgs p ep idx c) = true) => by
    simp only [epOkArgs, Bool.and_eq_true] at h
    show (decide (p < 8) && (decide (ep < 68) && true)) = true
    simp only [h, Bool.and_self])
theorem clrf : ∀ p ep idx c, Statement (.clrf p ep idx c) := fun p ep idx c => of_more rfl (fun (h : (epOkArgs p ep idx c) = true) => by
    simp only [epOkArgs, Bool.and_eq_true] at h
    show (decide (p < 8) && (decide (ep < 68) && true)) = true
    simp only [h, Bool.and_self])
theorem heldCommandResume : ∀ p ep index a3, Statement (.heldCommandResume p ep index a3) := fun p ep index _ => of_more rfl (fun (h : (decide (p < 8) && decide (ep < 68) && decide (index < 16)) = true) => by
    simp only [Bool.and_eq_true] at h
    show (decide (p < 8) && (decide (ep < 68) && true)) = true
    simp only [h, Bool.and_self])
theorem recordArrival : ∀ p route, Statement (.recordArrival p route) := fun p route => of_more rfl (fun (h : (decide (p < 8) && decide (route < 1088)) = true) => by
    simp only [Bool.and_eq_true] at h
    show (decide (p < 8) && (decide (route < 1088) && true)) = true
    simp only [h, Bool.and_self])
theorem spillDrain : ∀ p ep queue, Statement (.spillDrain p ep queue) := fun p ep queue => of_more rfl (fun (h : (decide (p < 8) && decide (ep < 68) && decide (queue < 16)) = true) => by
    simp only [Bool.and_eq_true] at h
    show (decide (p < 8) && (decide (ep < 68) && (decide (queue < 16) && true))) = true
    simp only [h, Bool.and_self])
theorem spillWriteComplete : ∀ p ep queue, Statement (.spillWriteComplete p ep queue) := fun p ep queue => of_more rfl (fun (h : (decide (p < 8) && decide (ep < 68) && decide (queue < 16)) = true) => by
    simp only [Bool.and_eq_true] at h
    show (decide (p < 8) && (decide (ep < 68) && (decide (queue < 16) && true))) = true
    simp only [h, Bool.and_self])
theorem qreset : ∀ p ep queue, Statement (.qreset p ep queue) := fun p ep queue => of_more rfl (fun (h : (decide (p < 8) && decide (ep < 256) && decide (queue < 16)) = true) => by
    simp only [Bool.and_eq_true] at h
    show (decide (p < 8) && (decide (ep < 256) && (decide (queue < 16) && true))) = true
    simp only [h, Bool.and_self])
theorem flagSet : ∀ p mask, Statement (.flagSet p mask) := fun p mask => of_one rfl (fun (h : (decide (p < 8) && decide (mask < 2 ^ 32)) = true) => by
    simp only [Bool.and_eq_true] at h
    exact of_decide_eq_true (by simp only [h]))
theorem progressWatchdog : ∀ p ep queue, Statement (.progressWatchdog p ep queue) := fun p ep queue => of_more rfl (fun (h : (decide (p < 8) && decide (ep < 256) && decide (queue < 16)) = true) => by
    simp only [Bool.and_eq_true] at h
    show (decide (p < 8) && (decide (ep < 256) && (decide (queue < 16) && true))) = true
    simp only [h, Bool.and_self])
theorem ledgerCheck : ∀ p a1, Statement (.ledgerCheck p a1) := fun _ _ => of_one rfl of_decide_eq_true
theorem snap : ∀ p, Statement (.snap p) := fun _ => of_one rfl of_decide_eq_true
theorem dump : ∀ p, Statement (.dump p) := fun _ => of_one rfl of_decide_eq_true
theorem load : ∀ source a1 a2, Statement (.load source a1 a2) := fun _ _ _ => of_one rfl of_decide_eq_true
theorem heldLoadStart : ∀ a0 a1, Statement (.heldLoadStart a0 a1) := fun _ _ => of_none rfl
theorem teardown : ∀ w, Statement (.teardown w) := fun _ => of_one rfl of_decide_eq_true
theorem nvWrite : ∀ slot a1 a2, Statement (.nvWrite slot a1 a2) := fun _ _ _ => of_one rfl of_decide_eq_true
theorem invalidate : ∀ slot, Statement (.invalidate slot) := fun _ => of_one rfl of_decide_eq_true
theorem change : ∀ a0, Statement (.change a0) := fun _ => of_none rfl
theorem scrub : ∀ a0, Statement (.scrub a0) := fun _ => of_none rfl
theorem ownerChangeScrubDone : ∀ failUnits a1, Statement (.ownerChangeScrubDone failUnits a1) := fun _ _ => of_none rfl
theorem flitReceive : ∀ n body tail, Statement (.flitReceive n body tail) := fun n body tail => of_one rfl (fun (h : (decide (n < 8) && body.length == 240 && tail.length == 16) = true) => by
    simp only [Bool.and_eq_true] at h
    exact of_decide_eq_true (by simp only [h]))
theorem replayTimeout : ∀ n, Statement (.replayTimeout n) := fun _ => of_one rfl of_decide_eq_true
theorem packetForward : ∀ n, Statement (.packetForward n) := fun _ => of_one rfl of_decide_eq_true
theorem portTraining : ∀ n link, Statement (.portTraining n link) := fun n link => of_one rfl (fun (h : (trainOk n link) = true) => by
    simp only [trainOk, Bool.and_eq_true] at h
    exact of_decide_eq_true (by simp only [h]))
theorem trainingRetry : ∀ n link, Statement (.trainingRetry n link) := fun n link => of_one rfl (fun (h : (trainOk n link) = true) => by
    simp only [trainOk, Bool.and_eq_true] at h
    exact of_decide_eq_true (by simp only [h]))
theorem laneFailure : ∀ n lane, Statement (.laneFailure n lane) := fun n lane => of_more rfl (fun (h : (decide (n < 8) && decide (lane < 8)) = true) => by
    simp only [Bool.and_eq_true] at h
    show (decide (n < 8) && (decide (lane < 8) && true)) = true
    simp only [h, Bool.and_self])
theorem portDown : ∀ n, Statement (.portDown n) := fun _ => of_one rfl of_decide_eq_true
theorem retrain : ∀ n link, Statement (.retrain n link) := fun n link => of_one rfl (fun (h : (trainOk n link) = true) => by
    simp only [trainOk, Bool.and_eq_true] at h
    exact of_decide_eq_true (by simp only [h]))
theorem contributionArrival : ∀ pkt, Statement (.contributionArrival pkt) := fun _ => of_none rfl
theorem dataArrival : ∀ pkt, Statement (.dataArrival pkt) := fun _ => of_none rfl
theorem landingAcknowledgement : ∀ peer vc upTo, Statement (.landingAcknowledgement peer vc upTo) := fun _ _ _ => of_none rfl
theorem landingAckSend : ∀ peer vc, Statement (.landingAckSend peer vc) := fun _ _ => of_none rfl
theorem collSendUp : ∀ c, Statement (.collSendUp c) := fun _ => of_one rfl of_decide_eq_true
theorem collResultComplete : ∀ c, Statement (.collResultComplete c) := fun _ => of_one rfl of_decide_eq_true
theorem collTimeout : ∀ c, Statement (.collTimeout c) := fun _ => of_one rfl of_decide_eq_true
theorem ceiling : ∀ from_ job step, Statement (.ceiling from_ job step) := fun _ _ _ => of_none rfl
theorem epoch : ∀ job e f, Statement (.epoch job e f) := fun _ _ _ => of_none rfl
theorem epochTimer : Statement .epochTimer := of_none rfl
theorem freqLockLost : Statement .freqLockLost := of_none rfl
theorem abort : ∀ from_ job coll inst cause origin, Statement (.abort from_ job coll inst cause origin) := fun _ _ _ _ _ _ => of_none rfl
theorem join : ∀ from_ job level count, Statement (.join from_ job level count) := fun _ _ _ _ => of_none rfl
theorem joinResult : ∀ job status, Statement (.joinResult job status) := fun _ _ => of_none rfl
theorem leave : ∀ from_ job origin, Statement (.leave from_ job origin) := fun _ _ _ => of_none rfl
theorem advert : ∀ n tol, Statement (.advert n tol) := fun n tol => of_one rfl (fun (h : (decide (n < 8) && decide (tol < 2 ^ 32)) = true) => by
    simp only [Bool.and_eq_true] at h
    exact of_decide_eq_true (by simp only [h]))
theorem joinLimitExpiry : Statement .joinLimitExpiry := of_none rfl
theorem frogEntry : ∀ n, Statement (.frogEntry n) := fun _ => of_one rfl of_decide_eq_true
theorem frogExit : ∀ n, Statement (.frogExit n) := fun _ => of_one rfl of_decide_eq_true
theorem sqTail : ∀ n q tail a3, Statement (.sqTail n q tail a3) := fun n q tail _ => of_more rfl (fun (h : (decide (n < 9) && decide (q < 8) && decide (tail < 2 ^ 16)) = true) => by
    simp only [Bool.and_eq_true] at h
    show (decide (n < 9) && (decide (q < 8) && true)) = true
    simp only [h, Bool.and_self])
theorem cqHead : ∀ n q head a3, Statement (.cqHead n q head a3) := fun n q head _ => of_more rfl (fun (h : (decide (n < 9) && decide (q < 8) && decide (head < 2 ^ 16)) = true) => by
    simp only [Bool.and_eq_true] at h
    show (decide (n < 9) && (decide (q < 8) && true)) = true
    simp only [h, Bool.and_self])
theorem qcfgWrite : ∀ n q a2 a3, Statement (.qcfgWrite n q a2 a3) := fun n q _ _ => of_more rfl (fun (h : (decide (n < 9) && decide (q < 8)) = true) => by
    simp only [Bool.and_eq_true] at h
    show (decide (n < 9) && (decide (q < 8) && true)) = true
    simp only [h, Bool.and_self])
theorem winBaseWrite : ∀ n a1 a2, Statement (.winBaseWrite n a1 a2) := fun _ _ _ => of_one rfl of_decide_eq_true
theorem descriptorFetch : ∀ n q entry, Statement (.descriptorFetch n q entry) := fun n q entry => of_more rfl (fun (h : (decide (n < 9) && decide (q < 8)) = true) => by
    simp only [Bool.and_eq_true] at h
    show (decide (n < 9) && (decide (q < 8) && true)) = true
    simp only [h, Bool.and_self])
theorem nopDescriptor : ∀ n q, Statement (.nopDescriptor n q) := fun n q => of_more rfl (fun (h : (descOk n q) = true) => by
    simp only [descOk, Bool.and_eq_true] at h
    show (decide (n < 9) && (decide (q < 8) && true)) = true
    simp only [h, Bool.and_self])
theorem run : ∀ n q, Statement (.run n q) := fun n q => of_more rfl (fun (h : (descOk n q) = true) => by
    simp only [descOk, Bool.and_eq_true] at h
    show (decide (n < 9) && (decide (q < 8) && true)) = true
    simp only [h, Bool.and_self])
theorem loadPkg : ∀ n q, Statement (.loadPkg n q) := fun n q => of_more rfl (fun (h : (descOk n q) = true) => by
    simp only [descOk, Bool.and_eq_true] at h
    show (decide (n < 9) && (decide (q < 8) && true)) = true
    simp only [h, Bool.and_self])
theorem unloadPkg : ∀ n q, Statement (.unloadPkg n q) := fun n q => of_more rfl (fun (h : (descOk n q) = true) => by
    simp only [descOk, Bool.and_eq_true] at h
    show (decide (n < 9) && (decide (q < 8) && true)) = true
    simp only [h, Bool.and_self])
theorem copyIn : ∀ n q a2, Statement (.copyIn n q a2) := fun n q _ => of_more rfl (fun (h : (descOk n q) = true) => by
    simp only [descOk, Bool.and_eq_true] at h
    show (decide (n < 9) && (decide (q < 8) && true)) = true
    simp only [h, Bool.and_self])
theorem copyOut : ∀ n q a2, Statement (.copyOut n q a2) := fun n q _ => of_more rfl (fun (h : (descOk n q) = true) => by
    simp only [descOk, Bool.and_eq_true] at h
    show (decide (n < 9) && (decide (q < 8) && true)) = true
    simp only [h, Bool.and_self])
theorem ctxSave : ∀ n q, Statement (.ctxSave n q) := fun n q => of_more rfl (fun (h : (descOk n q) = true) => by
    simp only [descOk, Bool.and_eq_true] at h
    show (decide (n < 9) && (decide (q < 8) && true)) = true
    simp only [h, Bool.and_self])
theorem ctxRestore : ∀ n q, Statement (.ctxRestore n q) := fun n q => of_more rfl (fun (h : (descOk n q) = true) => by
    simp only [descOk, Bool.and_eq_true] at h
    show (decide (n < 9) && (decide (q < 8) && true)) = true
    simp only [h, Bool.and_self])
theorem interruptTimer : ∀ n q, Statement (.interruptTimer n q) := fun n q => of_more rfl (fun (h : (descOk n q) = true) => by
    simp only [descOk, Bool.and_eq_true] at h
    show (decide (n < 9) && (decide (q < 8) && true)) = true
    simp only [h, Bool.and_self])
theorem bar2Read : ∀ n x len a3, Statement (.bar2Read n x len a3) := fun n x len _ => of_one rfl (fun (h : (decide (n < 9) && decide (x < 2 ^ 41) && decide (len ≤ 4096)) = true) => by
    simp only [Bool.and_eq_true] at h
    exact of_decide_eq_true (by simp only [h]))
theorem bar2Write : ∀ n x data a3, Statement (.bar2Write n x data a3) := fun n x data _ => of_one rfl (fun (h : (decide (n < 9) && decide (x < 2 ^ 41) && decide (data.length ≤ 4096)) = true) => by
    simp only [Bool.and_eq_true] at h
    exact of_decide_eq_true (by simp only [h]))
theorem linkRetrain : ∀ speed width, Statement (.linkRetrain speed width) := fun _ _ => of_none rfl
theorem vfFunctionLevelReset : ∀ n, Statement (.vfFunctionLevelReset n) := fun _ => of_one rfl of_decide_eq_true
theorem pf0FunctionLevelReset : Statement .pf0FunctionLevelReset := of_none rfl
theorem setEndpointId : ∀ eid, Statement (.setEndpointId eid) := fun _ => of_none rfl
theorem getEndpointId : Statement .getEndpointId := of_none rfl
theorem getMctpVersionSupport : Statement .getMctpVersionSupport := of_none rfl
theorem getMessageTypeSupport : Statement .getMessageTypeSupport := of_none rfl
theorem getEndpointUuid : Statement .getEndpointUuid := of_none rfl
theorem pldmBase : ∀ cmd, Statement (.pldmBase cmd) := fun _ => of_none rfl
theorem pldmMonitoringAndControl : ∀ a0 sensor, Statement (.pldmMonitoringAndControl a0 sensor) := fun _ _ => of_none rfl
theorem pldmFru : Statement .pldmFru := of_none rfl
theorem pldmFirmwareUpdate : ∀ bank a1, Statement (.pldmFirmwareUpdate bank a1) := fun _ _ => of_none rfl
theorem firmwareActivation : ∀ a0, Statement (.firmwareActivation a0) := fun _ => of_none rfl
theorem regRead : ∀ a, Statement (.regRead a) := fun _ => of_none rfl
theorem regWrite : ∀ a a1, Statement (.regWrite a a1) := fun _ _ => of_none rfl
theorem ownerChange : ∀ a0, Statement (.ownerChange a0) := fun _ => of_none rfl
theorem ownerScrub : ∀ a0, Statement (.ownerScrub a0) := fun _ => of_none rfl
theorem getVersion : ∀ a0, Statement (.getVersion a0) := fun _ => of_none rfl
theorem getCapabilities : ∀ a0, Statement (.getCapabilities a0) := fun _ => of_none rfl
theorem negotiateAlgorithms : ∀ a0 version, Statement (.negotiateAlgorithms a0 version) := fun _ _ => of_none rfl
theorem getCertificate : ∀ a0 slot offset length, Statement (.getCertificate a0 slot offset length) := fun _ _ _ _ => of_none rfl
theorem challenge : ∀ a0 slot nonce, Statement (.challenge a0 slot nonce) := fun _ _ _ => of_none rfl
theorem getMeasurements : ∀ a0 index nonce, Statement (.getMeasurements a0 index nonce) := fun _ _ _ => of_none rfl
theorem keyExchange : ∀ a0 curve, Statement (.keyExchange a0 curve) := fun _ _ => of_none rfl
theorem heartbeat : ∀ a0 sid, Statement (.heartbeat a0 sid) := fun _ _ => of_one rfl of_decide_eq_true
theorem heartbeatTimeout : ∀ a0 sid, Statement (.heartbeatTimeout a0 sid) := fun _ _ => of_one rfl of_decide_eq_true
theorem keyUpdate : ∀ a0 sid, Statement (.keyUpdate a0 sid) := fun _ _ => of_one rfl of_decide_eq_true
theorem ideKm : ∀ sid fn key, Statement (.ideKm sid fn key) := fun sid fn key => of_more rfl (fun (h : (decide (sid < 4) && decide (fn < 9) && decide (key.key < 2 ^ 256)) = true) => by
    simp only [Bool.and_eq_true] at h
    show (decide (sid < 4) && (decide (fn < 9) && true)) = true
    simp only [h, Bool.and_self])
theorem lockInterfaceRequest : ∀ sid n, Statement (.lockInterfaceRequest sid n) := fun sid n => of_more rfl (fun (h : (decide (sid < 4) && decide (n < 9)) = true) => by
    simp only [Bool.and_eq_true] at h
    show (decide (sid < 4) && (decide (n < 9) && true)) = true
    simp only [h, Bool.and_self])
theorem startInterfaceRequest : ∀ sid n, Statement (.startInterfaceRequest sid n) := fun sid n => of_more rfl (fun (h : (decide (sid < 4) && decide (n < 9)) = true) => by
    simp only [Bool.and_eq_true] at h
    show (decide (sid < 4) && (decide (n < 9) && true)) = true
    simp only [h, Bool.and_self])
theorem stopInterfaceRequest : ∀ sid n, Statement (.stopInterfaceRequest sid n) := fun sid n => of_more rfl (fun (h : (decide (sid < 4) && decide (n < 9)) = true) => by
    simp only [Bool.and_eq_true] at h
    show (decide (sid < 4) && (decide (n < 9) && true)) = true
    simp only [h, Bool.and_self])
theorem installOwner : Statement .installOwner := of_none rfl
theorem ecdsaVerify : ∀ r, Statement (.ecdsaVerify r) := fun _ => of_none rfl
theorem ecdsaSign : ∀ r, Statement (.ecdsaSign r) := fun _ => of_none rfl
theorem ecdh : ∀ r, Statement (.ecdh r) := fun _ => of_none rfl
theorem gen : ∀ r, Statement (.gen r) := fun _ => of_none rfl
theorem readPublic : ∀ r, Statement (.readPublic r) := fun _ => of_none rfl
theorem rsaVerify : ∀ r, Statement (.rsaVerify r) := fun _ => of_none rfl
theorem pkOperationDone : ∀ a0, Statement (.pkOperationDone a0) := fun _ => of_none rfl
theorem microcodeCheck : ∀ a0, Statement (.microcodeCheck a0) := fun _ => of_none rfl
theorem entropySample : ∀ sample, Statement (.entropySample sample) := fun _ => of_none rfl
theorem enterA1 : Statement .enterA1 := of_none rfl
theorem enterLizard : Statement .enterLizard := of_none rfl
theorem enterDeepLizard : Statement .enterDeepLizard := of_none rfl
theorem powerStateExit : Statement .powerStateExit := of_none rfl
theorem bankSleepWrite : ∀ t a1, Statement (.bankSleepWrite t a1) := fun _ _ => of_one rfl of_decide_eq_true
theorem bankPowerOff : ∀ t b, Statement (.bankPowerOff t b) := fun t b => of_more rfl (fun (h : (decide (t < 64) && decide (b < 24)) = true) => by
    simp only [Bool.and_eq_true] at h
    show (decide (t < 64) && (decide (b < 24) && true)) = true
    simp only [h, Bool.and_self])
theorem bankWakeDone : ∀ t b, Statement (.bankWakeDone t b) := fun t b => of_more rfl (fun (h : (decide (t < 64) && decide (b < 24)) = true) => by
    simp only [Bool.and_eq_true] at h
    show (decide (t < 64) && (decide (b < 24) && true)) = true
    simp only [h, Bool.and_self])
theorem frequencyChange : Statement .frequencyChange := of_none rfl
theorem dutyWindow : Statement .dutyWindow := of_none rfl
theorem powerSample : ∀ staticW dynamicW input, Statement (.powerSample staticW dynamicW input) := fun _ _ _ => of_none rfl
theorem capRecompute : ∀ staticW dynamicW, Statement (.capRecompute staticW dynamicW) := fun _ _ => of_none rfl
theorem capCeilingRaise : Statement .capCeilingRaise := of_none rfl
theorem thermalThrottle : ∀ d temps, Statement (.thermalThrottle d temps) := fun d temps => of_one rfl (fun (h : (tempsOk d temps) = true) => by
    simp only [tempsOk, Bool.and_eq_true] at h
    exact of_decide_eq_true (by simp only [h]))
theorem thermalStep : ∀ d temps, Statement (.thermalStep d temps) := fun d temps => of_one rfl (fun (h : (tempsOk d temps) = true) => by
    simp only [tempsOk, Bool.and_eq_true] at h
    exact of_decide_eq_true (by simp only [h]))
theorem trip : ∀ stack index temp, Statement (.trip stack index temp) := fun _ _ _ => of_none rfl
theorem ageingTrim : ∀ d, Statement (.ageingTrim d) := fun _ => of_one rfl of_decide_eq_true
theorem pwrCtrlWrite : ∀ a0, Statement (.pwrCtrlWrite a0) := fun _ => of_none rfl
theorem coldStart : ∀ i, Statement (.coldStart i) := fun _ => of_none rfl
theorem deviceReset : ∀ a0 i, Statement (.deviceReset a0 i) := fun _ _ => of_none rfl
theorem pwrGoodDeassert : Statement .pwrGoodDeassert := of_none rfl
theorem refclkLoss : Statement .refclkLoss := of_none rfl
theorem watchdogExpiry : ∀ c i, Statement (.watchdogExpiry c i) := fun c i => of_one rfl (fun (h : (decide (c < 4) && startOk i) = true) => by
    simp only [Bool.and_eq_true] at h
    exact of_decide_eq_true (by simp only [h]))
theorem coreRestartDone : ∀ c, Statement (.coreRestartDone c) := fun _ => of_one rfl of_decide_eq_true
theorem rollbackCounterRaise : Statement .rollbackCounterRaise := of_none rfl
theorem logicBist : ∀ target, Statement (.logicBist target) := fun _ => of_none rfl
theorem arrayMemoryBist : ∀ target, Statement (.arrayMemoryBist target) := fun _ => of_none rfl
theorem cacheMemoryBist : ∀ target, Statement (.cacheMemoryBist target) := fun _ => of_none rfl
theorem stackMemoryBist : ∀ target, Statement (.stackMemoryBist target) := fun _ => of_none rfl
theorem bistAbort : ∀ target, Statement (.bistAbort target) := fun _ => of_none rfl
theorem bistDone : ∀ misr failUnits, Statement (.bistDone misr failUnits) := fun _ _ => of_none rfl
theorem rasTailWrite : ∀ a0, Statement (.rasTailWrite a0) := fun _ => of_none rfl
theorem fatalClear : Statement .fatalClear := of_none rfl
theorem pwrGoodAssert : ∀ i, Statement (.pwrGoodAssert i) := fun _ => of_none rfl
theorem lossOfInput : Statement .lossOfInput := of_none rfl
theorem refclkReturn : Statement .refclkReturn := of_none rfl
theorem perstDeassertion : ∀ i, Statement (.perstDeassertion i) := fun _ => of_none rfl
theorem trippedResetRelease : ∀ dieTemps stackTemps i, Statement (.trippedResetRelease dieTemps stackTemps i) := fun _ _ _ => of_none rfl
theorem configurationAccess : ∀ a, Statement (.configurationAccess a) := fun _ => of_none rfl
theorem registerRead : ∀ n a size a3, Statement (.registerRead n a size a3) := fun n a size _ => of_one rfl (fun (h : (regOk n a size) = true) => by
    simp only [regOk, Bool.and_eq_true] at h
    exact Nat.lt_succ_of_le (of_decide_eq_true (by simp only [h])))
theorem finish : ∀ a0 sid, Statement (.finish a0 sid) := fun _ _ => of_one rfl of_decide_eq_true
theorem endSession : ∀ a0 sid, Statement (.endSession a0 sid) := fun _ _ => of_one rfl of_decide_eq_true
theorem frequencyChangeEnd : Statement .frequencyChangeEnd := of_none rfl
theorem powerStateExitDone : Statement .powerStateExitDone := of_none rfl

end Sys2Proof.Laws.Bounded
end

