-- ==== Sys2Proof/Laws/Total.lean ====
section
/-! SUPPORT. Commands complete: a well-formed command answers a next state, an ill-formed one is a fault. -/

namespace Sys2Proof.Machine

/-- A guard that holds lets the effect through. -/
theorem guarded_next {b : Bool} {s : State} (h : b = true) : guarded b s = .next s := by simp [guarded, h]

/-- A guard that fails is a fault. -/
theorem guarded_fault {b : Bool} {s : State} (h : b = false) : guarded b s = .fault .illFormed := by simp [guarded, h]

/-- A guarded effect never refuses. -/
theorem guarded_ne_refused {b : Bool} {s : State} {r : Refusal} : guarded b s ≠ .refused r := by
  unfold guarded; split <;> simp

/-- A well-formed command answers a next state. -/
theorem exec_next (c : Instr) (s : State) (h : c.wf = true) : ∃ t, exec c s = .next t := by
  cases c <;> exact ⟨_, guarded_next h⟩

/-- An ill-formed command is a fault. -/
theorem exec_fault (c : Instr) (s : State) (h : c.wf = false) : exec c s = .fault .illFormed := by
  cases c <;> exact guarded_fault h

end Sys2Proof.Machine
end

