-- ==== Sys2Proof/Tests/Slice0.lean ====
section
/-! SUPPORT. The model's own tests: ill-formed commands, worked examples of the manual, and for the statements of
Certificates/Slice0/Obligations.lean states that meet their hypotheses. -/

namespace Sys2Proof.Tests

open Sys2Proof.Machine

set_option Elab.async false

/-- The next state of an answer. -/
def after (o : Out) : State :=
  match o with
  | .next t => t
  | _ => {}

/-- A command on a state. -/
def run (c : Instr) (s : State) : State := after (exec c s)

/-- A partition of eight tiles, up, on stack 0, with the noise region at 1 MiB. -/
def part8 : Part := { state := 1, tiles := 8, seq := 0, core := 1, stks := 1, noiseBase := 0x100000, spillBase := 0x8000000, spillPages := 2 }

/-- A small prime set: 17 and 97, N = 2. -/
def smallSet : PrimeSet := { id := 5, logNMax := 1, qcount := 2, primes := [{ q := 17, psi := 2 }, { q := 97, psi := 33 }] }

/-- Partition 0 up with an image in force. -/
def base : State := { parts := [(0, part8)], img := { image := some { m := 8, psets := [smallSet] } } }

/-! ### Noise -/

/-- A ternary request of one limb of the first prime, at offset 0, N = 2^12. -/
def noiseReady : State := base.modPart 0 fun x => { x with noiseReq := BitVec.ofNat 256 (2 ^ 19) }
def drbgReady (s : State) : State := s.modSec fun c => { c with noiseOk := true, secOk := true, sourceOk := true }

theorem witness_noiseGo : noiseReady.noiseCode 0 = 0 ∧ ((drbgReady noiseReady).part 0).noiseBusy = false ∧
    (drbgReady noiseReady).noiseCode 0 = 0 ∧ (drbgReady noiseReady).sec.noiseOk = true := by decide +kernel
theorem test_noiseGo_starts : ((run (.noiseRequestGo ⟨0, false⟩) (drbgReady noiseReady)).part 0).noiseBusy = true ∧
    (run (.noiseRequestGo ⟨0, false⟩) (drbgReady noiseReady)).sec.noiseReqs = 1 := by decide +kernel
/-- A request of kind 3 is refused. -/
theorem test_noiseGo_refused : ((run (.noiseRequestGo ⟨0, false⟩) (base.modPart 0 fun x => { x with noiseReq := 3#256 })).part 0).noiseErr =
    cNoiseRequestInvalid := by decide +kernel
theorem witness_noiseGo_pf0 : (noiseReady.modFn 1 fun x => { x with tdi := 2 }).wake.tdiClosed 1 = true ∧
    (drbgReady noiseReady).wake.sec.sourceOk = true := by decide +kernel
theorem test_noiseGo_pf0 : (smGet {} (run (.noiseRequestGo ⟨0, true⟩) (noiseReady.modFn 1 fun x => { x with tdi := 2 })).ras.recs 0).code =
    cTdiLocked ∧ ((run (.noiseRequestGo ⟨0, true⟩) (noiseReady.modFn 1 fun x => { x with tdi := 2 })).part 0).noiseBusy = false := by
  decide +kernel
theorem witness_noiseDone : ((noiseReady.modPart 0 fun x => { x with noiseBusy := true }).part 0).noiseBusy = true ∧
    noiseReady.rangeCode 0x100000 (limbBytes 12 false) = 0 := by decide +kernel
/-- Table 3-9's kinds: the lowest and the highest value of each. -/
theorem test_noiseCoeff : noiseCoeff 0 0 1 = 1 ∧ noiseCoeff 0 0 2 = -1 ∧ noiseCoeff 1 0 (2 ^ 21 - 1) = 21 ∧
    noiseCoeff 1 0 (2 ^ 42 - 2 ^ 21) = -21 ∧ noiseCoeff 2 3 0 = -8 ∧ noiseCoeff 2 3 15 = 7 := by decide +kernel

/-! ### Stack memory -/

/-- Line 0 holds one byte; line 128 is poisoned; unit 1 of stack 0 is withdrawn. -/
def mem3 : State := { base with mem := [(0, 7#8)], poison := [(128, 5)], withdrawn := [(1, true)] }

theorem witness_stackReads : mem3.lineCode 0 = 0 ∧ mem3.decodeCode 128 = 0 ∧ smGet 0 mem3.poison (lineOf 128) ≠ 0 ∧
    mem3.decodeCode 0x200000 = cAddressWithdrawn ∧ mem3.decodeCode (2 ^ 64 - 1) = cAddressUnmapped := by decide +kernel
theorem test_stackRead : (run (.stackRead 0 0 ⟨0, true, 0⟩) mem3).host.readData = [0, 7] ∧
    (run (.stackRead 0x200000 0 ⟨0, true, 0⟩) mem3).host.readData = [cAddressWithdrawn, 0] := by decide +kernel
/-- A poisoned line is recorded with the requester that met it. -/
theorem test_stackRead_record : (smGet {} (run (.stackRead 128 0 ⟨0, true, 9⟩) mem3).ras.recs 0).code = cPoisonRead ∧
    (smGet {} (run (.stackRead 128 0 ⟨0, true, 9⟩) mem3).ras.recs 0).loc2 = 9 := by decide +kernel
theorem test_stackRead_errors : (run (.stackRead 0 4 ⟨0, true, 0⟩) mem3).host.readData = [0, 7] ∧
    (run (.stackRead 0 5 ⟨0, true, 0⟩) mem3).host.readData = [cEccUncorrectable, 7] ∧
    smGet 0 (run (.stackRead 0 12 ⟨0, true, 0⟩) mem3).poison 0 = cEccUncorrectable ∧
    smGet false (run (.stackRead 0 0 ⟨0, true, 0⟩) mem3).memc.cached 0 = true ∧
    smGet false (run (.stackRead 0 0 ⟨0, false, 0⟩) mem3).memc.cached 0 = false := by decide +kernel
theorem test_stackWrite : (run (.stackWrite 128 [1#8] 0) mem3).host.readData = [cPoisonRead] ∧
    smGet 0 (run (.stackWrite 128 (List.replicate 128 1#8) 0) mem3).poison 128 = 0 ∧
    (run (.stackWrite 126 [1#8, 2#8] 0) mem3).load 125 4 = [0#8, 1#8, 2#8, 0#8] := by decide +kernel
theorem witness_atomics : mem3.atomicBad 4 0 0 0 [3#64] = false ∧ mem3.decodeCode 0 = 0 ∧ mem3.rangeCode 0 8 = 0 ∧
    mem3.atomicBad 4 4 0 0 [3#64] = true ∧ mem3.atomicBad 1 0 0 0 (List.replicate 8 1#64) = false := by decide +kernel
/-- A fetch-and-add returns the old value; a modular add folds both operands. -/
theorem test_atomic : (run (.atomic 4 0 0 0 [3#64]) mem3).host.readData = [0, 7] ∧
    (run (.atomic 4 0 0 0 [3#64]) mem3).loadLE 0 8 = 10 ∧ (run (.atomic 2 0 0 0 [30#64]) mem3).loadLE 0 8 = 3 := by decide +kernel
theorem test_atomic_invalid : (run (.atomic 4 4 0 0 [3#64]) mem3).host.readData = [cAtomicInvalid] := by decide +kernel

/-- Row group 3 of pseudo-channel 2 of stack 0 is due; channel 5 is retired; unit 9 waits for its withdrawal; unit 0 was found. -/
def repair : State := base.modStk 0 fun x => { x with
  due := [(rgKey 2 3, true), (rgKey 5 3, true)], retired := [(5, true)], wdDue := [(9, true)], migrations := [(5, 0)] }

theorem witness_stackRepair : repair.memc.patrolHours ≠ 0 ∧ repair.scrubbing = false ∧ repair.pwr.state < 2 ∧ repair.lineCode 0 = 0 ∧
    smGet false (repair.stk 0).due (rgKey 2 3) = true ∧ repair.memc.spareHold = false ∧ (repair.stk 0).sparesOf 2 ≠ 0 ∧
    smGet false (repair.stk 0).due (rgKey 5 3) = true ∧ (repair.stk 0).sparesOf 5 = 0 ∧
    smGet false (repair.stk 0).retired 63 = false ∧ (repair.stk 0).migrations = [(5, 0)] := by decide +kernel
theorem test_patrol : ((run (.patrolScrub 0 0) repair).stk 0).patrolNext = 1 := by decide +kernel
theorem test_rowSparing : smGet 0 ((run (.rowSparing 0 2 3 []) repair).stk 0).remap (rgKey 2 3) = 1 + 2 * 1536 ∧
    smGet false ((run (.rowSparing 0 5 3 []) repair).stk 0).wdDue 3 = true := by decide +kernel
theorem test_migration : ((run (.migration 0 ⟨49151, false, []⟩) repair).stk 0).migrations = [(5, 49151)] ∧
    ((run (.migration 0 ⟨49152, false, []⟩) repair).stk 0).migrations = [] := by decide +kernel
theorem witness_spareHold : ({ base with now := 1000000001, memc := { spareHold := true, holdSince := 1 } } : State).memc.spareHold = true ∧
    1000000000 ≤ 1000000001 - 1 := by decide +kernel
theorem test_spareHoldExpiry :
    (run .spareHoldExpiry { base with now := 1000000001, memc := { spareHold := true, holdSince := 1 } }).memc.spareHold = false := by decide +kernel
theorem test_withdrawal : smGet false (repair.stk 0).wdDue 9 = true ∧ (run (.withdrawal 0 9) repair).decodeCode (9 * 0x200000) =
    cAddressWithdrawn ∧ (run (.withdrawal 0 9) repair).decodeCode (8 * 0x200000) = 0 := by decide +kernel
theorem witness_withdrawal : (repair.stk 0).failed = false ∧ smWf false repair.withdrawn = true ∧
    smGet false (repair.stk 0).wdDue 9 = true := by decide +kernel
theorem test_healthRecord : (run .healthRecordWrite mem3).memc.healthUnits = [(1, true)] := by decide +kernel

/-! ### Messages -/

/-- Two core endpoints: route 0 from port 0 of endpoint 65 to queue 0 of endpoint 64, one credit; queue 0 is gated by flag 3. -/
def msgSub : MsgSub := { routes := [{ srcEp := 65, srcPort := 0, dstEp := 64, dstQueue := 0, credits := 1, maxLen := 64 }]
                         queues := [{ ep := 64, queue := 0, gateEn := true, gateFlag := 3, ringRow := 4, ringRows := 2 }]
                         flags := [{ flag := 3, dynamic := true, setEp := 64, setQueue := 0 }] }
/-- The message of the tests. -/
def rec1 : Rec := { srcEp := 65, payload := [1#8, 2#8, 3#8], idx := 4 }
/-- The partition with its message section, the flag set, and a ledger that holds. -/
def msgBase : State := base.modPart 0 fun x => { x with
  msg := { sub := msgSub, flags := 8 }, ledger := freshLedger 1 256 2 8 }
/-- A record in flight; one in the ring; one in the spill. -/
def flying : State := msgBase.modMsg 0 fun m => { m with flying := [(0, [rec1])] }
def ringed : State := run (.recordArrival 0 0) flying
def spilled : State := (msgBase.modRq 0 64 0 fun q => { q with used := 256 }).modMsg 0 fun m => { m with flying := [(0, [rec1])] }
def cmd1 : EpCmd := { index := 0, len := 16, row := 100, flag := 3 }

theorem witness_messageCommands : epOkArgs 0 65 9 cmd1 = true ∧ msgBase.epOk 0 65 = true ∧ msgBase.epOk 0 64 = true ∧ epCmdBad cmd1 = false ∧
    cmd1.badCmd = none ∧ msgBase.sendCode 0 65 0 cmd1 = 0 ∧ (msgBase.msg 0).routeOf 65 0 = some 0 ∧ (msgBase.msg 0).creditFree 0 = true ∧ (flying.msg 0).creditFree 0 = false ∧
    (flying.rq 0 64 0).closed = false ∧ (ringed.rq 0 64 0).ring.length = 1 ∧ (ringed.msg 0).flags = 8 := by decide +kernel
theorem witness_commandReady : msgBase.commandReady 0 65 9 := ⟨by decide +kernel, .inl (by decide)⟩
/-- A tile endpoint whose head token of queue 7 names command 9. -/
theorem witness_tileCommand : ((base.emitTile 3 7 { tag := 9 }).epOk 0 3 = true) ∧
    (base.emitTile 3 7 { tag := 9 }).tokens 3 7 = [{ tag := 9 }] := by decide +kernel
/-- A reserved CMD, and one beside it that is not. -/
def cmdBad : EpCmd := { cmd1 with badCmd := some 6 }
theorem test_reserved : epOkArgs 0 65 9 cmdBad = true ∧ ((run (.send 0 65 9 cmdBad) msgBase).core 1).doneStatus = cCommandInvalid := by
  decide +kernel
theorem test_send : ((run (.send 0 65 9 cmd1) msgBase).msg 0).flying.map (fun e => (e.1, e.2.map (fun r => r.payload.length))) = [(0, [16])] ∧
    ((run (.send 0 65 9 cmd1) flying).msg 0).heldSend.length = 1 := by decide +kernel
theorem test_recv : ((run (.recv 0 64 9 cmd1) ringed).rq 0 64 0).used = 0 ∧ (run (.recv 0 64 9 cmd1) ringed).epRead 0 64 100 19 =
    toBytes 16 (recHeader rec1) ++ rec1.payload ∧ ((run (.recv 0 64 9 cmd1) ringed).core 0).doneIdx = 9 := by decide +kernel
theorem test_closeOpen : ((run (.close 0 64 9 cmd1) msgBase).rq 0 64 0).closed = true ∧
    ((run (.openQueue 0 64 9 cmd1) (run (.close 0 64 9 cmd1) msgBase)).rq 0 64 0).closed = false := by decide +kernel
theorem test_clrf : ((run (.clrf 0 64 9 cmd1) msgBase).msg 0).flags = 0 := by decide +kernel
theorem witness_messageMoves : smGet [] (flying.msg 0).flying 0 = [rec1] ∧ (flying.rq 0 64 0).closed = false ∧
    place (flying.rq 0 64 0) 256 (recBytes 3) false = some (0, 0) ∧ place (spilled.rq 0 64 0) 256 (recBytes 3) false = none ∧
    spilled.freePage 0 = some 0 := by decide +kernel
theorem test_arrival : (ringed.rq 0 64 0).used = 32 ∧ (ringed.rq 0 64 0).wp = 32 ∧ (ringed.part 0).ledger.msgSent = 1 ∧
    ringed.ledgerBad 0 = 0 := by decide +kernel
/-- The spill write, and the drain once the ring has room. -/
def spillDone : State := run (.spillWriteComplete 0 64 0) (run (.recordArrival 0 0) spilled)
theorem witness_spill : ((run (.recordArrival 0 0) spilled).rq 0 64 0).spill.map (fun x => (x.page, x.written)) = [(some 0, false)] ∧
    (spillDone.rq 0 64 0).spill.map (fun x => (x.page, x.written)) = [(some 0, true)] := by decide +kernel
theorem test_spill : spillDone.load 0x8000010 3 = rec1.payload ∧
    ((run (.spillDrain 0 64 0) (spillDone.modRq 0 64 0 fun q => { q with used := 0 })).rq 0 64 0).ring.map (fun r => r.msg.spilled) = [true] :=
  by decide +kernel
theorem test_heldResume : ((run (.heldCommandResume 0 65 0 true) ((run (.send 0 65 9 cmd1) flying).modMsg 0 fun m =>
    { m with flying := [] })).msg 0).heldSend = [] := by decide +kernel
theorem test_qreset : ((run (.qreset 0 64 0) ringed).rq 0 64 0).closed = true ∧ smGet 0 ((run (.qreset 0 64 0) ringed).msg 0).dead 0 = 1 ∧
    (run (.qreset 0 64 0) ringed).ledgerBad 0 = 0 := by decide +kernel
/-- An OPEN held behind a RECV that the reset ends. -/
def openHeld : State := ringed.modRq 0 64 0 fun q => { q with held := [{ kind := 4, idx := 3, cmd := cmd1 }] }
theorem test_qreset_open : (openHeld.rq 0 64 0).held.map (fun h => (h.kind, h.cmd.index)) = [(4, 0)] ∧ epCmdBad cmd1 = false ∧
    ((run (.qreset 0 64 0) openHeld).rq 0 64 0).closed = false ∧ ((run (.qreset 0 64 0) openHeld).rq 0 64 0).ring = [] := by decide +kernel
theorem test_flagSet : ((run (.flagSet 0 5) msgBase).msg 0).flags = 13 := by decide +kernel
theorem test_watchdog : (let s := run (.clrf 0 64 9 cmd1) { ringed with now := 2000000 }
    (s.rq 0 64 0).reported = false ∧ (run (.progressWatchdog 0 64 0) s).ras.unread = 1) := by decide +kernel
theorem witness_ledger : msgBase.ledgerBad 0 = 0 ∧ (msgBase.part 0).ledgerBusy = false ∧
    (msgBase.modLedger 0 fun l => { l with tokEmitted := 1 }).ledgerBad 0 = 5 := by decide +kernel
set_option maxRecDepth 100000 in
theorem test_ledgerCheck : run (.ledgerCheck 0 false) msgBase = msgBase ∧
    ((run (.ledgerCheck 0 false) (msgBase.modLedger 0 fun l => { l with tokEmitted := 1 })).part 0).breachItem = 5 := by decide +kernel
theorem test_snapDump : ((run (.snap ⟨0, false, .plain⟩) ringed).part 0).snapshot.msgSent = 1 ∧
    (run (.dump ⟨0, false, .plain⟩) (ringed.modPart 0 fun x => { x with dumpAddr := 0x1000 })).loadLE 0x1008 8 = 1 := by decide +kernel
/-- VF 1 in RUN: a request on its IDE stream reaches the ledger, one outside it does not. -/
def vfRun : State := (({ ringed with host := { ringed.host with numVf := 1 } } : State).modFn 1 fun x => { x with tdi := 2 })
theorem witness_ledgerVf : vfRun.fnOn 1 = true ∧ vfRun.fw.running ≠ 2 ∧ (vfRun.fn 1).d3 = false ∧ (vfRun.wake.fn 1).tdi = 2 ∧
    vfRun.wake.ledgerBad 0 = 0 ∧ (vfRun.wake.part 0).ledgerBusy = false := by decide +kernel
theorem test_ledgerVf : ((run (.snap ⟨0, true, .ide⟩) vfRun).part 0).snapped = true ∧
    ((run (.snap ⟨0, true, .plain⟩) vfRun).part 0).snapped = false ∧
    (smGet {} (run (.snap ⟨0, true, .plain⟩) vfRun).ras.recs 0).code = cIdeViolation := by decide +kernel


/-! ### Structures and owners -/

/-- An image of one partition of 64 tiles, signed for the owner key G of P-384 (Chapter 8). -/
def imageBytes : List Byte := toBytes 768 0x9db62f0b46b4281f57753cad22caaacd76021149d8ff71eccac2b1c5ebdd5e45e697da973aa1aed87ce01e9ff244b73b70a7672385e543a6c2955bf5df20255382a5482e041f759989ba78b623b1d6e74ad20f31ec7b18e37058bbe22ca87aa0000000000000000000000000000000100000000000000000000000000000000000000000000000000000000000000000000000000000000000000000000000000000000000000000000000000000000000000000000000000000000000000000000000000000000000000000000000000000000000000000000000000000000000000000000000000000000000000000000000000000000000000000000000000000000000000000000000000000000000000000000000000000000000000000000000000000000000000000000000000000000000000000000000000000000000000000000000000000000000000000000000000000000000000000000000000000000000000000000000000013000000000000000000000000000000000000000000000000000000000000000000000000000000000000000000000000000000000000000000000000000000000010000000000000000000000000000000000000000000000000000000000000000000000000000000000000000000000000000000100000140000001400000000100000000000000000000000000000000000000000000000000000000000000000000000000000000000000000000000000000000000000000000000000000000000000000000000000000000000000000000000000000000000000000000000000000000000000000000000000000000000000000000000000000000000000000000000000000000000000000000000000000000000000000000000000000000000000000000000000000000000000000000000000000000000000000000000000000000000000000000000000000000e50d135a70067686edf9b71224264f8c0000000000000000000000000000000700000000000003000002010149465a4b

/-- After power-on self-tests of the engine, with an owner key. -/
def owned : State := ({} : State).modSec fun c => { c with pkReady := true, ownerKey := some (p384.gx, p384.gy) }
/-- The same with the image loaded. -/
def loaded : State := run (.load 0 imageBytes .whole) owned

theorem witness_load : let t := (owned.modImg fun y => { y with source := 0 }).stir.modImg fun y => { y with busy := true, held := none, loading := none }
    (t.copySource 0 imageBytes).2 = 0 ∧ t.validate (t.copySource 0 imageBytes).1 false = none ∧
    t.sec.engineCode = 0 ∧ t.haltCode = 0 ∧ (t.tearOthers (fun p => t.keeps (parseImage imageBytes) p)).haltCode = 0 ∧
    owned.img.busy = false ∧ owned.scrubbing = false ∧ (parseImage imageBytes).m = 1 := by decide +kernel
theorem test_load : (loaded.part 0).tiles = 64 ∧ loaded.img.image.isSome = true ∧ loaded.img.loadedFrom = 1 ∧
    loaded.img.loads = 1 := by decide +kernel
theorem witness_load_factory : let t := (owned.modImg fun y => { y with source := 3 }).stir.modImg fun y => { y with busy := true, held := none, loading := none }
    t.factoryCheck = none ∧ t.sec.engineCode = 0 ∧ (t.tearOthers (fun p => t.keeps factoryImage p)).haltCode = 0 := by decide +kernel
theorem test_load_factory : ((run (.load 3 [] .whole) owned).part 0).state = 1 ∧ (run (.load 3 [] .whole) owned).img.loadedFrom = 4 := by
  decide +kernel
/-- A wrong MAGIC is reason 19. -/
theorem test_load_rejected : let b := 0#8 :: imageBytes.drop 1
    (owned.validate b false).map (fun r => r.reason) = some 19 ∧ (owned.copySource 0 b).2 = 0 ∧
    (run (.load 0 b .whole) owned).img.rejReason = 19 ∧ (run (.load 0 b .whole) owned).img.error = true := by decide +kernel
theorem witness_load_rejected : (owned.validate (0#8 :: imageBytes.drop 1) false).map (fun r => r.open_) = some false := by decide +kernel
theorem witness_load_engine : let s := owned.modSec fun c => { c with pkReady := false }
    (s.copySource 0 imageBytes).2 = 0 ∧ s.sec.engineCode = cPkMicrocode ∧ s.validate imageBytes false = none := by decide +kernel
theorem test_load_engine : (run (.load 0 imageBytes .whole) (owned.modSec fun c => { c with pkReady := false })).img.errCode = cPkMicrocode := by decide +kernel
theorem test_heldLoad : let s := owned.modImg fun y => { y with busy := true, held := some 3 }
    s.scrubbing = false ∧ (run (.heldLoadStart [] .whole) s).img.held = none ∧ (run (.heldLoadStart [] .whole) s).img.done = true := by
  decide +kernel
/-- Partition 0 with a fresh ledger. -/
def ledBase : State := base.modPart 0 fun x => { x with ledger := freshLedger 0 0 2 8 }
set_option maxRecDepth 100000 in
theorem witness_teardown : (ledBase.fn 1).tdi ≠ 1 ∧ (ledBase.fn 1).tdi ≠ 2 ∧ ledBase.isUp 0 = true ∧ ledBase.ras.fatal = false ∧
    ((ledBase.tearStart 0 none).part 0).ledger.drainedBad = 0 ∧ (ledBase.tearStart 0 none).ledgerBad 0 = 0 := by decide +kernel
theorem test_teardown_locked : (run (.teardown ⟨0, true⟩) (ledBase.modFn 1 fun y => { y with tdi := 2 })).ras.unread = 1 ∧
    ((run (.teardown ⟨0, true⟩) (ledBase.modFn 1 fun y => { y with tdi := 2 })).part 0).state = 1 := by decide +kernel
set_option maxRecDepth 100000 in
theorem test_teardown : ((run (.teardown ⟨0, true⟩) ledBase).part 0).state = 3 := by decide +kernel

/-- Slot A holds the image. -/
def slotted : State := owned.modImg fun y => { y with
  slotA := { magic := slotMagic, gen := 3, imageBytes := 768, digest := sha384 imageBytes, commit := slotCommit, bytes := imageBytes } }

theorem witness_flash : let t := slotted.stir.modImg fun y => { y with nvSlot := 2 }
    slotted.img.nvBusy = false ∧ slotted.flashClosed = false ∧ (t.copySource 0 imageBytes).2 = 0 ∧
    t.validate (t.copySource 0 imageBytes).1 true = none := by decide +kernel
theorem test_flash : let s := owned.modImg fun y => { y with slotA := { magic := slotMagic, gen := 3, digest := sha384 [], commit := slotCommit } }
    (run (.nvWrite 2 imageBytes .ok) s).img.slotB.gen = 4 := by decide +kernel
theorem test_invalidate : (run (.invalidate 1) slotted).img.slotA.commit = 0 ∧
    (run (.invalidate 1) slotted).img.slotA.magic = slotMagic ∧ (run (.invalidate 1) slotted).img.slotA.valid = false := by decide +kernel
theorem test_load_slot : (run (.load 2 [] .whole) slotted).img.errCode = cImageSource := by
  decide +kernel

theorem witness_ownerChange : base.scrubbing = false ∧ base.pins.pwrGood = true := by decide +kernel
set_option maxRecDepth 100000 in
theorem test_change : (run (.change {}) base).sec.ownerKey = none ∧ (run (.change {}) base).owner.pending = true ∧
    (run (.change {}) base).img.image = none := by decide +kernel
set_option maxRecDepth 100000 in
theorem test_scrub : (run (.scrub {}) base).sec.ownerKey = base.sec.ownerKey := by decide +kernel
set_option maxRecDepth 100000 in
/-- A scrub of memory that holds a byte and finds unit 1535 of stack 11 failing. -/
theorem test_scrubDone : let s := run (.change {}) { base with mem := [(5, 1#8)], poison := [(0, 2)] }
    s.scrubbing = true ∧ (List.range 8).all (fun p => (s.part p).state == 0) = true ∧
    (run (.ownerChangeScrubDone [12 * Config.unitsPerStack - 1] {}) s).mem = [] ∧
    (run (.ownerChangeScrubDone [12 * Config.unitsPerStack - 1] {}) s).sec.epoch = base.sec.epoch + 1 ∧
    (run (.ownerChangeScrubDone [12 * Config.unitsPerStack - 1] {}) s).isWithdrawn (12 * Config.unitsPerStack - 1) = true := by decide +kernel

/-! ### Fabric -/

/-- Module 5 of a job of three: parent 6 on port 0, with port 1 as alternate, child 7 on port 1. -/
def jobCfg : FabricCfg where
  moduleAddr := 5
  routes := [{ first := 6, last := 6, primary := 0, altEn := true, alternate := 1 }, { first := 7, last := 9, primary := 1 }]
  colls := [{ kind := 1, members := 3, rank := 1, parent := 6, children := [7], bufAddr := 0x4000000, bufMib := 1 },
    { kind := 2, members := 3, rank := 1, parent := 6, bufAddr := 0x4100000, bufMib := 1 }]
  jobId := 9
  jobLevel := 1
  epochUs := 10
  jobParent := 6
  jobChildren := [7]
  jobMembers := 3

def openVcs : SMap Nat := [(0, 64), (1, 64), (2, 32), (3, 32)]
/-- Ports 0 and 1 ACTIVE. -/
def fabBase : State := { base with fab := { cfg := jobCfg, jobState := 2, joining := true
                                            ports := [(0, { state := 2, level := 2, credits := openVcs }), (1, { state := 2, level := 1, credits := openVcs })] } }
/-- The same module as the root of a job of two. -/
def rootBase : State := { fabBase with fab := { fabBase.fab with cfg := { jobCfg with jobParent := 0xFFFF, jobMembers := 2 } } }
def pktTo (d : Nat) : Packet := { type := 1, dest := d, src := 4 }

theorem witness_ports : (fabBase.port 0).usable = true ∧ fabBase.egressOf (pktTo 9) = some (1, false) ∧
    (fabBase.port 1).creditFor (pktTo 9) = true ∧ flitsOf (pktTo 9) = 1 ∧ fabBase.mayTrain 3 = true ∧ trainOk 3 {} = true ∧
    (lanesPassing ({} : TrainIn).laneTest) % 16 = 15 ∧ stepInTime 1000 ({} : TrainIn).lockUs = true ∧
    linkLevel 2 1 2 = some 2 ∧ linkLevel 1 2 3 = none := by decide +kernel
/-- The flit that carries a packet for module 9, acknowledges flit 0 and returns three credits of virtual channel 2; and one whose
248 bytes are zero, with the parity of its codes. -/
def wire9 : List Byte := flitBytes (fillBody (packetBytes (pktTo 9))) (flitTrailer 0 0 false 2 3)
def wire0 : List Byte := let d := List.replicate 248 0#8
  d ++ weave (fecParity (fecSymbols 0 d)) (fecParity (fecSymbols 1 d))
theorem witness_flit : flitCorrected wire9 = some (wire9, 0) ∧ (wire9.take 240).length = 240 ∧
    (wire9.drop 240).length = 16 ∧ flitCrcOk wire9 = true ∧ bits (leAt wire9 240 4) 11 0 = (fabBase.port 0).rxNext :=
  ⟨flitCorrected_flitBytes _ _ (by decide +kernel), by decide +kernel, by decide +kernel, by decide +kernel, by decide +kernel⟩
theorem witness_flitBad : flitCorrected wire0 = some (wire0, 0) ∧ (wire0.take 240).length = 240 ∧ (wire0.drop 240).length = 16 ∧
    flitCrcOk wire0 = false :=
  ⟨flitCorrected_coded _ List.length_replicate, by decide +kernel, by decide +kernel, by decide +kernel⟩
/-- CRC-32C of "123456789", the check value of the CRC of that name. -/
theorem test_crc : crc32c [0x31#8, 0x32#8, 0x33#8, 0x34#8, 0x35#8, 0x36#8, 0x37#8, 0x38#8, 0x39#8] = 0xE3069283 := by decide +kernel
theorem test_flit : let p : Port := { (fabBase.port 0) with replayBuf := [{ seq := 4095 }, { seq := 0 }, { seq := 3 }], credits := [] }
    (p.acceptFlit 7 wire9).replayBuf = [{ seq := 3 }] ∧ (p.acceptFlit 7 wire9).ingress = [pktTo 9] ∧
    smGet 0 (p.acceptFlit 7 wire9).credits 2 = 3 ∧ (p.acceptFlit 7 wire9).rxNext = 1 := by decide +kernel
/-- In FROG a packet of virtual channel 0 is discarded and its credit owed. -/
theorem test_flit_frog : let p : Port := { (fabBase.port 0) with state := 3 }
    (p.acceptFlit 7 wire9).ingress = [] ∧ smGet 0 (p.acceptFlit 7 wire9).owed 0 = 1 := by decide +kernel
/-- With nothing to send a port sends idle flits, and one in FROG makes the module leave Lizard for a packet of virtual channel 0. -/
theorem test_idleFlit : ((run (.packetForward 0) fabBase).port 0).replayBuf.map (fun e => e.packets) = [[]] ∧
    ((run (.packetForward 0) fabBase).port 0).txSeq = 1 := by decide +kernel
/-- A packet for module 9 leaves through port 1; one for this module is taken; a queued one goes first. -/
theorem test_forward : ((run (.packetForward 0) (fabBase.modPort 0 fun p => { p with ingress := [pktTo 9] })).port 1).replayBuf.map
      (fun e => e.packets) = [[pktTo 9]] ∧
    ((run (.packetForward 0) (fabBase.modPort 0 fun p => { p with ingress := [pktTo 5] })).port 0).ingress = [] ∧
    ((run (.packetForward 0) (fabBase.modPort 0 fun p => { p with egress := [pktTo 6] })).port 0).replayBuf.length = 1 := by decide +kernel
theorem witness_replay : let s := ({ fabBase with now := 200 } : State).modPort 0 fun p => { p with replayBuf := [{}] }
    200 ≤ s.now - (s.port 0).unackedSince ∧ ((run (.replayTimeout 0) s).port 0).replays = 1 := by decide +kernel
/-- Lanes 4 to 7 alone give an x4 port on the upper half. -/
theorem test_training : let upper := List.replicate 4 (1, 0) ++ List.replicate 4 (0, 99)
    ((run (.portTraining 3 { laneTest := upper }) fabBase).port 3).width4 = true ∧
    ((run (.portTraining 3 { laneTest := upper }) fabBase).port 3).upper = true ∧
    ((run (.portTraining 3 { laneTest := upper.set 7 (0, 100) }) fabBase).port 3).fails = 1 ∧
    ((run (.portTraining 3 { running := true }) fabBase).port 3).state = 1 := by decide +kernel
theorem test_retrain : let s := ({ fabBase with now := 10000000 } : State).modPort 3 fun p => { p with fails := 2 }
    ((run (.trainingRetry 3 {}) s).port 3).state = 2 ∧ ((run (.retrain 3 {}) s).port 3).level = 2 := by decide +kernel
theorem test_lanes : ((run (.laneFailure 0 3) fabBase).port 0).upper = true ∧
    ((run (.laneFailure 0 3) (run (.laneFailure 0 4) fabBase)).port 0).state = 0 := by decide +kernel
/-- What a lost port held goes to the alternate with DETOUR. -/
theorem test_portDown : ((run (.portDown 0) (fabBase.modPort 0 fun p => { p with egress := [pktTo 6] })).port 1).egress =
    [{ pktTo 6 with detour := true }] := by decide +kernel
theorem test_frog : let s := ({ fabBase with pwr := { fabBase.pwr with state := 2 } } : State).modPort 0 fun p => { p with frogAsked := true }
    let f := run (.frogEntry 0) s
    (f.port 0).state = 3 ∧ ((run (.frogExit 0) f).port 0).state = 3 ∧
    ((run (.frogExit 0) (f.modPort 0 fun p => { p with leaving := true })).port 0).credits = fullCredits := by decide +kernel
theorem test_advert : ((run (.advert 7 5) fabBase).port 7).peerTol = 5 := by decide +kernel

/-! ### Jobs and collectives -/

theorem witness_job : fabBase.inJob 9 = true ∧ fabBase.locked = true ∧ rootBase.inJob 9 = true ∧
    10 * Config.ticksPerUs ≤ ({ rootBase with now := 1000 } : State).now - rootBase.fab.lastEpoch := by decide +kernel
theorem test_ceilings : smGet 256 (run (.ceiling 7 9 3) fabBase).fab.childCeil 7 = 3 ∧ (run (.epoch 9 4 2) fabBase).fab.jobFreq = 2 ∧
    (run .epochTimer { rootBase with now := 1000 }).fab.epochNo = 1 ∧
    (run .freqLockLost { rootBase with now := 4000 }).fab.lockLost = true := by decide +kernel

/-- Collective 0 is open, its own body landed and its child's group due. -/
def openColl0 : State := fabBase.modColl 0 fun k => { k with
  isOpen := true, ownDone := true, hdr := { valid := true, psetId := 5, logN := 3, comps := 1, limbs := 1 }, entry := 2, poisonRank := 0xFFFF }
def contribution : Packet := { type := 1, units := 3, dest := 5, src := 7, coll := 0, body := 5#8 :: List.replicate 47 0#8 }

theorem witness_abort : (openColl0.coll 0).isOpen = true ∧ openColl0.fab.aborts.contains (6, 5, 0, 0) = false ∧
    (openColl0.collCfg 0).isSome = true := by decide +kernel
theorem test_abort : ((run (.abort 6 9 0 0 5 6) openColl0).coll 0).inst = 1 ∧
    (run (.abort 6 9 0 0 5 6) openColl0).fab.out.map (fun o => o.dest) = [7] ∧
    (run (.abort 6 9 0 0 5 6) (run (.abort 6 9 0 0 5 6) openColl0)).fab.out.length = 1 := by decide +kernel
/-- An ABORT for an instance that is not open yet is kept. -/
theorem test_abortLater : instPast (openColl0.coll 0).inst 3 = false ∧
    smGet 0 ((run (.abort 6 9 0 3 5 6) openColl0).coll 0).dead 3 = 5 ∧ ((run (.abort 6 9 0 3 5 6) openColl0).coll 0).isOpen = true := by
  decide +kernel
theorem test_join : let s := { rootBase with fab := { rootBase.fab with jobState := 1 } }.modPart 0 fun x => { x with rlActive := 1 }
    (run (.join 7 9 1 1) s).fab.jobState = 2 ∧ (run (.join 7 9 2 1) s).fab.jobState = 3 ∧ (run (.joinResult 9 0) s).fab.jobState = 2 := by
  decide +kernel
theorem test_leave : (run (.leave 7 9 7) openColl0).fab.jobState = 1 ∧ ((run (.leave 7 9 7) openColl0).coll 0).isOpen = false := by
  decide +kernel
theorem test_joinLimit : let s := { openColl0 with now := 10000 * ticksPerMs, fab := { openColl0.fab with jobState := 1 } }
    (s.fab.joining = true ∧ s.fab.joinLimit * ticksPerMs ≤ s.now - s.fab.joinSince) ∧ ((run .joinLimitExpiry s).coll 0).isOpen = false := by
  decide +kernel

theorem witness_contribution : packetOk contribution = true ∧ openColl0.judge contribution 1 = .fresh ∧ pktGroups contribution = 1 ∧
    (openColl0.setOf (openColl0.coll 0).hdr).map (fun z => z.1) = some 0 ∧ openColl0.rangeCode 0x4000000 36 = 0 := by decide +kernel
/-- The first coefficient lands; a second arrival only counts. -/
theorem test_contribution : let t := run (.contributionArrival contribution) openColl0
    smGet 0 (t.coll 0).landed 7 = 1 ∧ (unpackGroup (t.loadLE 0x4000000 36)).getD 0 0 = 5 ∧
    t.judge contribution 1 = .duplicate ∧ (run (.contributionArrival contribution) t).fab.dup = 1 := by decide +kernel
def resultData : Packet := { contribution with type := 2, vc := 1, src := 6, coll := 1 }
theorem witness_resultData : fabBase.judge resultData 2 = .fresh ∧
    fabBase.rangeCode (0x4100000 + 0x80000) 36 = 0 := by decide +kernel
theorem test_resultData : ((run (.dataArrival resultData) fabBase).coll 1).resLanded = 1 ∧
    (run (.dataArrival resultData) fabBase).load 0x4180000 2 = [5#8, 0#8] := by decide +kernel
def peered : State := fabBase.modPeer (peerKey 7 1) fun z => { z with
  ackDue := true, rxNext := 3, unacked := [(1, 0, 0), (2, 0, 0), (2 ^ 24 - 1, 0, 0)] }
theorem test_acks : ((run (.landingAcknowledgement 7 1 1) peered).peer (peerKey 7 1)).unacked = [(2, 0, 0)] ∧
    (peered.peer (peerKey 7 1)).txq = [] := by decide +kernel
theorem test_ackSend : ((run (.landingAckSend 7 1) peered).port 1).egress.map (fun x => x.pseq) = [2] := by decide +kernel
/-- The child has announced and landed its one group. -/
def summed : State := openColl0.modColl 0 fun k => { k with announced := [(7, 2)], landed := [(7, 1)] }
theorem witness_sendUp : (summed.coll 0).childrenDone ((summed.collCfg 0).getD {}) = true ∧
    summed.rangeCode 0x4000000 (36 * (summed.coll 0).hdr.groups) = 0 ∧ (summed.coll 0).sentUp = false := by decide +kernel
theorem test_sendUp : ((run (.collSendUp 0) summed).port 0).egress.map (fun x => x.offset) = [0xFFFFFFFF, 0] := by decide +kernel
/-- A complete result of no limbs enters header entry 2. -/
def resulted : State := openColl0.modColl 0 fun k => { k with resHdr := some { psetId := 5, logN := 3, comps := 0 } }
theorem witness_result : (resulted.coll 0).resLanded = ({ psetId := 5, logN := 3, comps := 0 } : Header).groups ∧
    ({ psetId := 5, logN := 3, comps := 0 } : Header).bodyLimbs ≤
      resulted.capacity 0 ((resulted.bound 0 2).getD {}) 3 := by decide +kernel
theorem test_result : (run (.collResultComplete 0) resulted).hdr 0 2 = { valid := true, psetId := 5, logN := 3, comps := 0 } := by
  decide +kernel
theorem test_collTimeout : ((run (.collTimeout 0) { openColl0 with now := 100000 * Config.ticksPerUs }).coll 0).isOpen = false := by
  decide +kernel

/-! ### The host interface -/

/-- A package of one variant and one empty kernel (Tables 5-1 and 5-2). -/
def pkgBytes : List Byte := toBytes 272 0x6e72656b000000000000000000000000000000a000000000000000900000000800000000000000000000000000000000000000000000000000000000000000000000000000000000000000000000000000000000000000000000000038a5a3e9aecd41bc131bd1a4e2f9c4ead4387877dd560219a1dc5406452d93bbb238e55409da2870d19075b764bdd600000000000000011000000000000000000101010150475a4b
/-- A context image of the kernel parameters alone (Table 5-10). -/
def ctxBytes : List Byte := toBytes 224 0x17837dd00cd0dd396afd0fdb0385ebb60e4b34f24039becce8835513392ad4c792c5389387c9e6294aaec682edb77bf5000000000000000700000000000000e000000000000000000008010158435a4b
/-- A loaded package of one NOP kernel, in kernel-table entry 0. -/
def pkg7 : Package := { id := 7, level := 1, kernels := [{ ktab := 0, words := 1, ops := 1, defaults := [5, 6] }] }
/-- The memory that holds bytes at an address. -/
def cells (a : Nat) (l : List Byte) : Mem := ((upTo l.length).zip l).filterMap fun e => if e.2 = 0#8 then none else some (a + e.1, e.2)
/-- Queue pair 3 of VF 1 with a ring of 16 entries; packages at 0x10000; a context image at 0x20000. -/
def hostBase : State :=
  { ((base.modPart 0 fun x => { x with pkgs := [pkg7], rlActive := 1 }).modSeq 0 fun x => { x with
      ktab := [(0, ({ ktab := 0, words := 1, ops := 1 } : PkgKernel).value)] }).modQp 1 3 fun y => { y with
        enable := true, sqLog := 4, cqLog := 4, cqBase := 0x5000 } with
    host := { (base.modQp 1 3 fun y => { y with enable := true, sqLog := 4, cqLog := 4, cqBase := 0x5000 }).host with numVf := 8 }
    mem := cells 0x10000 pkgBytes ++ cells 0x20000 ctxBytes }
/-- With a descriptor fetched. -/
def fetched (e : SubEntry) : State := hostBase.modQp 1 3 fun y => { y with desc := some { entry := e } }
/-- What completed on the queue: status and result. -/
def completion (s : State) : Nat × Nat := (memLE s.host.mem (0x5000 + 12) 2, memLE s.host.mem 0x5000 8)

theorem witness_hostRegisters : hostBase.fnOn 1 = true ∧ hostBase.pwr.state = 0 ∧ (hostBase.fn 1).tdi = 0 ∧
    (hostBase.qp 1 3).enable = true ∧ (hostBase.qp 1 3).error = false ∧ (hostBase.qp 1 0).enable = false ∧
    qcfgBad 0x100404 = false ∧ (hostBase.qp 1 3).held = 0 ∧ (hostBase.fn 1).barLog = 41 := by
  decide +kernel
theorem test_tail : ((run (.sqTail 1 3 15 .plain) hostBase).qp 1 3).tail = 15 ∧
    ((run (.sqTail 1 3 16 .plain) hostBase).qp 1 3).errCode = cDoorbellInvalid := by decide +kernel
theorem test_head : ((run (.cqHead 1 3 0 .plain) hostBase).qp 1 3).error = false ∧
    ((run (.cqHead 1 3 1 .plain) hostBase).qp 1 3).error = true := by decide +kernel
theorem test_qcfg : ((run (.qcfgWrite 1 0 0x101004 .plain) hostBase).qp 1 0).cqLog = 16 ∧
    ((run (.qcfgWrite 1 0 0x101003 .plain) hostBase).qp 1 0).enable = false ∧
    ((run (.qcfgWrite 1 3 0x000505 .plain) hostBase).qp 1 3).enable = false ∧
    ((run (.qcfgWrite 1 3 0x000505 .plain) hostBase).qp 1 3).cqLog = 4 := by decide +kernel
theorem test_winBase : let s := hostBase.modFn 1 fun x => { x with barLog := 32 }
    ((run (.winBaseWrite 1 0x100000000 .plain) s).fn 1).winBase = 0x100000000 ∧ ((run (.winBaseWrite 1 5 .plain) s).fn 1).winBase = 0 := by decide +kernel
theorem witness_fetch : ((hostBase.modQp 1 3 fun y => { y with tail := 1 }).qp 1 3).fetches = true ∧
    (hostBase.core (hostBase.part 0).core).state = 0 ∧ hostBase.entryCode 1 {} = 0 ∧
    hostBase.entryCode 1 { opcode := 8 } = cDescInvalid := by decide +kernel
/-- An entry written by the bits of Table 12-11: RUN, CID 0x1234, partition 0, A0 7, A1 0x100, A2 9. -/
theorem test_entry : let e := subEntryOf (BitVec.ofNat 512 (1 + 0x1234 * 2 ^ 16 + 7 * 2 ^ 64 + 0x100 * 2 ^ 128 + 9 * 2 ^ 192))
    e.opcode = 1 ∧ e.cid = 0x1234 ∧ e.part = 0 ∧ e.a0 = 7 ∧ e.a1 = 0x100 ∧ e.a2 = 9 := by decide +kernel
theorem test_fetch : let s := hostBase.modQp 1 3 fun y => { y with tail := 1 }
    ((run (.descriptorFetch 1 3 (some 0)) s).qp 1 3).sqHead = 1 ∧
    completion (run (.descriptorFetch 1 3 (some 8)) s) = (cDescInvalid, 0) := by decide +kernel
/-- The last slot of a ring inverts PHASE. -/
theorem test_post : let s := (fetched { cid := 9 }).modQp 1 3 fun y => { y with cqTail := 15 }
    ((s.post 1 3 4 5).qp 1 3).phase = !(s.qp 1 3).phase ∧ memLE (s.post 1 3 4 5).host.mem (0x5000 + 240) 10 = 5 + 9 * 2 ^ 64 := by
  decide +kernel
theorem witness_packages : hostBase.entryPackage 0 { a0 := 7 } = some pkg7 ∧ (hostBase.pseq 0).kern = none ∧ hostBase.fab.cfg.jobPart = 0 ∧
    (hostBase.seq 0).state = 0 ∧ ktValid ((hostBase.seq 0).kt 0) = true ∧
    hostBase.seqPart 0 = some 0 ∧ (fetched { opcode := 1, a0 := 7, a1 := 2 ^ 8 + 2 ^ 32 }).firstRun
      { entry := { opcode := 1, a0 := 7, a1 := 2 ^ 8 + 2 ^ 32 } } = true := by decide +kernel
theorem test_nop : completion (run (.nopDescriptor 1 3) (fetched {})) = (0, 0) := by decide +kernel
theorem witness_loadPkg : let s := fetched { opcode := 2, a0 := 0x10000 }
    (s.loadPackage 0 0x10000).2.1 = 0 ∧ ((run (.loadPkg 1 3) s).part 0).pkgs.length = 2 := by decide +kernel
def lone : State := { fetched { opcode := 3, a0 := 7 } with fab := { cfg := { jobPart := 1 } } }
theorem test_unloadPkg : lone.fab.cfg.jobPart ≠ 0 ∧ ((run (.unloadPkg 1 3) lone).part 0).pkgs = [] ∧
    ((run (.unloadPkg 1 3) lone).seq 0).kt 0 = 0 := by decide +kernel
theorem test_copyIn : let s := fetched { opcode := 4, a1 := 126, a2 := 3 }
    s.rangeCode 126 3 = 0 ∧ (run (.copyIn 1 3 [1#8, 2#8, 3#8]) s).load 126 3 = [1#8, 2#8, 3#8] ∧
    completion (run (.copyIn 1 3 [1#8, 2#8, 3#8]) s) = (0, 3) := by decide +kernel
theorem test_copyOut : let s := fetched { opcode := 5, a0 := 0x10000, a1 := 0x9000, a2 := 4 }
    s.rangeCode 0x10000 4 = 0 ∧ memLE (run (.copyOut 1 3 4) s).host.mem 0x9000 4 = 0x50475A4B := by decide +kernel
theorem witness_ctxSave : let s := fetched { opcode := 6, a0 := 0x30000 }
    (s.saveContext 0 0x30000 0 0).2.1 = 0 ∧ completion (run (.ctxSave 1 3) s) = (0, 224) := by decide +kernel
theorem witness_ctxRestore : let s := fetched { opcode := 7, a0 := 0x20000 }
    (s.restoreContext 0 0x20000).2 = 0 ∧ completion (run (.ctxRestore 1 3) s) = (0, 0) := by decide +kernel
theorem witness_interruptTimer : let s := { hostBase with now := 300 }.modQp 1 3 fun y => { y with unsignalled := 1, intUs := 3, vec := 2 }
    (s.qp 1 3).intUs * Config.ticksPerUs ≤ s.now - (s.qp 1 3).firstTime ∧
    ((run (.interruptTimer 1 3) s).qp 1 3).unsignalled = 0 := by decide +kernel
theorem witness_window : hostBase.windowShut = false ∧ hostBase.windowClosed 0 0x10000 = false ∧ hostBase.inNoise 0x10000 = false ∧
    hostBase.lineCode 0x10000 = 0 ∧ (hostBase.fn 0).winBase + 0x10000 = 0x10000 := by decide +kernel
theorem test_window : (run (.bar2Read 0 0x10000 4 .plain) hostBase).host.readData = [0, 0x50475A4B] ∧
    (run (.bar2Write 0 0x1000C [9#8] .plain) hostBase).loadLE 0x1000C 1 = 9 := by decide +kernel
/-- The same over CXL.mem, by the HDM decoder's device address. -/
theorem test_cxlMem : let s := { hostBase with host := { hostBase.host with mode := 2, hdm := some 0x8000000000 } }
    (run (.bar2Read 0 0x10000 4 .cxlMem) s).host.readData = [0, 0x50475A4B] ∧ s.host.hdm ≠ none ∧
    (run (.bar2Write 0 0x1000C [9#8] .cxlMem) s).loadLE 0x1000C 1 = 9 := by decide +kernel
theorem test_retry : (run (.configurationAccess (.readId 0)) base).host.retry = true ∧ base.pins.ready = false := by decide +kernel
theorem test_config : ((run (.configurationAccess (.bar2Size 0 32)) { hostBase with pins := { hostBase.pins with ready := true } }).fn 0).barLog = 32 ∧
    (run (.configurationAccess (.numVfs 8)) { base with pins := { base.pins with ready := true } }).host.numVf = 8 := by decide +kernel
theorem test_link : let s := { base with pins := { base.pins with refclk := true } }
    linkOk s.host.mode 3 16 = true ∧ (run (.linkRetrain 3 16) s).host.speed = 3 := by decide +kernel
theorem test_flr : (hostBase.part 1).tiles = 0 ∧ (run (.vfFunctionLevelReset 2) (hostBase.modQp 2 0 fun y => { y with enable := true })).qp 2 0 =
    ({} : QPair) ∧ (run .pf0FunctionLevelReset hostBase).ras.cause = 9 := by decide +kernel
theorem test_ltr : ((fetched {}).ltr.host.ltrReq = true ∧ (fetched {}).queueBusy = true) ∧ base.queueBusy = false ∧
    ({ base with pwr := { base.pwr with state := 2 } } : State).ltr.host.ltrReq = false := by decide +kernel

/-! ### Management and security -/

/-- The engine and the random generator are ready; VF 1 is on; DOE session 0 is established. -/
def secBase : State := { base with
  host := { numVf := 8 }
  sec := { pkReady := true, secOk := true, noiseOk := true, sourceOk := true
           sessions := [{ sid := 0, doe := true, established := true }, { sid := 1, doe := true }] } }
/-- The values of the last answer sent. -/
def answer (s : State) : List Nat := (s.sec.out.getLast?.map (fun m => m.vals)).getD []

theorem witness_management : (secBase.core 0).state = 0 ∧ secBase.pins.pwrGood = true ∧ fwBankOk {} = true ∧
    secBase.scrubbing = false ∧ accessOk 0 (vendorSize 0) = true ∧ accessOk 0x700004 (vendorSize 0x700004) = true ∧
    (∀ p, p < 8 → (secBase.part p).pkgs = []) := by decide +kernel
/-- On SMBus with address strap 2. -/
def smbus : State := { secBase with pins := { secBase.pins with mgmtSel := true, addrStrap := 2 } }
theorem test_mctp : answer (run .getEndpointId (run (.setEndpointId 9) smbus)) = [9, 1, 0x62] ∧
    answer (run .getMctpVersionSupport secBase) = [1, 3] ∧ answer (run .getMessageTypeSupport secBase) = [0, 1, 5, 126] := by decide +kernel
theorem test_pldm : answer (run (.pldmMonitoringAndControl true 7) secBase) = [7, 0] ∧
    answer (run .pldmFru secBase) = [secBase.pins.order, secBase.pins.build, secBase.pins.serial] ∧
    (run (.pldmBase 5) secBase).sec.out.length = 1 ∧ (run .getEndpointUuid secBase).sec.out.length = 1 := by decide +kernel
theorem test_update : let s := { secBase with fw := { running := 0 } }
    s.fw.writing = none ∧ s.updateTarget = 1 ∧ (run (.pldmFirmwareUpdate { bytes := [4#8] } .ok) s).fw.bank1 = { bytes := [4#8] } ∧
    (run (.pldmFirmwareUpdate { bytes := [4#8] } .running) s).fw.writing = some (1, { bytes := [4#8] }) := by decide +kernel
theorem test_activation : let s := { secBase with fw := { running := 0 } }
    (run (.firmwareActivation false) s).fw.running = 0 ∧ (run (.firmwareActivation true) s).ras.cause = 8 := by decide +kernel
theorem test_vendor : (answer (run (.regRead 0) secBase)).length = 1 ∧
    (run (.regWrite 0x700000 0) secBase).sec.out.length = 1 ∧ (run (.regWrite 0x300000 0) secBase).sec.out.length = 1 := by decide +kernel
set_option maxRecDepth 100000 in
theorem test_ownerRequests : (run (.ownerChange {}) secBase).owner.change = true ∧
    (run (.ownerScrub {}) secBase).owner.change = false := by decide +kernel

theorem witness_spdm : (upTo 4).find? (fun j => (secBase.sec.session true j).isNone) = some 2 ∧ secBase.sec.secOk = true ∧
    secBase.sec.sourceOk = true ∧ secBase.sec.engineCode = 0 ∧ (secBase.modSec fun c => { c with pkReady := false }).sec.engineCode ≠ 0 ∧
    (secBase.sec.session true 0).map (fun x => x.established) = some true ∧
    (secBase.sec.session true 1).map (fun x => x.established) = some false ∧ secBase.vfOn 8 = true := by decide +kernel
theorem test_spdm : answer (run (.getVersion true) secBase) = [0x12, 0x13] ∧
    (run (.negotiateAlgorithms true {}) secBase).sec.spdmVersion = 0x13 ∧
    (run (.getCertificate true 0 0 0) secBase).sec.out.map (fun m => m.data) = [[]] ∧
    (answer (run (.getCapabilities false) secBase)).length = 11 := by decide +kernel
/-- A requester that offers secp256r1 alone. -/
theorem test_algorithms : answer (run (.negotiateAlgorithms true { version := 0x12, p384 := false }) secBase) = [0x12, 1, 1, 1, 1] := by
  decide +kernel
theorem test_challenge : (run (.challenge ⟨true, false⟩ 0 5) secBase).sec.secReqs = 2 ∧
    (run (.getMeasurements ⟨true, false⟩ 9 5) secBase).sec.out.length = 1 ∧
    (run (.challenge ⟨true, true⟩ 0 5) secBase).sec.mismatches = 1 := by decide +kernel
theorem test_sessions : (run (.keyExchange ⟨true, false⟩ 2) secBase).sec.sessions.length = 3 ∧
    ((run (.finish true 1) secBase).sec.session true 1).map (fun x => x.established) = some true ∧
    ((run (.endSession true 0) secBase).sec.session true 0) = none := by decide +kernel
theorem test_beats : ((run (.heartbeat true 0) { secBase with now := 5 }).sec.session true 0).map (fun x => x.lastBeat) = some 5 ∧
    (run (.heartbeatTimeout true 0) { secBase with now := 3000000000 }).sec.session true 0 = none ∧
    (run (.keyUpdate true 0) secBase).sec.sessions.length = 2 := by decide +kernel
theorem test_ideKm : let s := run (.ideKm 0 8 ⟨2 ^ 256 - 1, true, .program, false⟩) secBase
    smGet 0 s.sec.ideKeys 17 = 2 ^ 256 ∧ ((run (.ideKm 0 8 ⟨0, true, .go, false⟩) s).fn 8).ideSecure = true ∧
    ((run (.ideKm 0 8 ⟨0, false, .go, false⟩) s).fn 8).ideSecure = false ∧
    smGet 0 (run (.ideKm 0 8 ⟨0, true, .stop, false⟩) s).sec.ideKeys 17 = 0 := by decide +kernel
/-- VF 1's stream is Secure; its partition 0 is up. -/
def tdi (k : Nat) : State := secBase.modFn 1 fun y => { y with tdi := k, ideSecure := true }
theorem witness_tdi : (tdi 0).isUp 0 = true ∧ (tdi 0).host.mode = 0 ∧ (tdi 0).vfOn 1 = true ∧ ((tdi 0).fn 1).ideSecure = true := by decide +kernel
theorem test_tdi : ((run (.lockInterfaceRequest 0 1) (tdi 0)).fn 1).tdi = 1 ∧ ((run (.startInterfaceRequest 0 1) (tdi 1)).fn 1).tdi = 2 ∧
    ((run (.stopInterfaceRequest 0 1) (tdi 2)).fn 1).tdi = 0 ∧ ((run (.lockInterfaceRequest 0 2) secBase).fn 2).tdi = 0 := by decide +kernel

def slot48 : State := secBase.modSec fun c => { c with users := [(48, { full := true, curve := 2 })] }
theorem witness_engine : pkOk { slot := 48 } = true ∧ slot48.sec.engineCode = 0 ∧ pkBad 1 { curve := 2 } = false ∧
    pkBad 4 { slot := 63, curve := 1 } = false ∧ pkBad 2 { slot := 48 } = false ∧ pkBad 3 { slot := 48 } = false ∧
    pkBad 5 { slot := 48 } = false ∧ pkBad 6 { rsaLen := 3 } = false ∧ pkBad 1 { curve := 3 } = true ∧
    (smGet {} slot48.sec.users 48).full = true := by decide +kernel
theorem test_engineStarts : (run (.ecdsaVerify { curve := 2 }) slot48).sec.running.map (fun z => z.cycles) = some 305000 ∧
    (run (.ecdsaSign { slot := 48 }) slot48).sec.running.map (fun z => z.cycles) = some 210000 ∧
    (run (.rsaVerify { rsaLen := 3 }) slot48).sec.pkBusy = true ∧ (run (.readPublic { slot := 48 }) slot48).sec.pkOp = 5 := by decide +kernel
theorem test_engineRejects : (run (.ecdsaVerify { curve := 3 }) slot48).sec.pkErr = cPkRequest ∧
    (run (.gen { slot := 47, curve := 1 }) slot48).sec.pkErr = cPkRequest ∧ (run (.ecdh { slot := 49 }) slot48).sec.pkBusy = true := by
  decide +kernel

/-- A request that arrives while the wipe runs is taken up when it ends. -/
theorem test_heldPk : let s := slot48.modSec fun c => { c with wiping := true }
    pkBad 1 { curve := 2 } = false ∧ (run (.ecdsaVerify { curve := 2 }) s).sec.running = none ∧
    (run (.ecdsaVerify { curve := 2 }) s).sec.pkBusy = true ∧
    (run (.ecdsaVerify { curve := 2 }) s).wipeEnd.sec.running.map (fun z => z.cycles) = some 305000 := by decide +kernel

/-- An ECDSA verification over P-256 of the digest 0 with the key G: r = x(G), s = r. -/
def verifying : State := { secBase with now := pkTicks 130000 }.modSec fun c => { c with
  pkOp := 1, pkCurve := 1, pkBusy := true, running := some { curve := 1, cycles := 130000 }
  pkBuf := memWrite (memWrite (memWrite (memWrite [] 0 (toBytesBE 32 p256.gx)) 32 (toBytesBE 32 p256.gy)) 96 (toBytesBE 32 p256.gx)) 128
    (toBytesBE 32 p256.gx) }
theorem witness_verify : (verifying.sec.compute { curve := 1, cycles := 130000 } 0).1 = 0 ∧ verifying.sec.heldInstall = false ∧
    (run (.pkOperationDone false) verifying).sec.pkErr = 0 ∧ (run (.pkOperationDone true) verifying).sec.pkErr = cPkMismatch := by decide +kernel
theorem witness_generate : let c := { secBase.sec with pkOp := 4, pkSlot := 48, running := some { curve := 1, cycles := 85000 } }
    c.slotOk 4 = true ∧ c.secOk = true ∧ c.sourceOk = true ∧ pkTicks 85000 ≤ 17000 := by decide +kernel
theorem test_mismatches : (run (.pkOperationDone true) (verifying.modSec fun c => { c with mismatches := 2 })).sec.pkReady = false := by
  decide +kernel
/-- Minus one times the base point of P-384 is its mirror image, and n times it is the point at infinity. -/
theorem test_curve : ecMul p384 (p384.n - 1) (p384.gx, p384.gy) = some (p384.gx, p384.p - p384.gy) ∧
    ecMul p384 p384.n (p384.gx, p384.gy) = none := by decide +kernel
theorem test_microcode : (run (.microcodeCheck false) secBase).sec.engineCode = cPkMicrocode := by decide +kernel
def keyed : State := secBase.modSec fun c => { c with
  ownerBuf := memWrite (memWrite [] 0 (toBytesBE 48 p384.gx)) 48 (toBytesBE 48 p384.gy) }
theorem witness_install : keyed.sec.installCode = 0 ∧ keyed.scrubbing = false ∧ keyed.sec.running = none ∧ keyed.fw.running ≠ 2 := by decide +kernel
theorem test_install : (run .installOwner keyed).sec.ownerKey = some (p384.gx, p384.gy) ∧
    (run .installOwner owned).sec.errCode = cOwnerKeyPresent ∧
    (run .installOwner secBase).sec.ownerKey = none ∧ (run .installOwner verifying).sec.heldInstall = true := by decide +kernel
theorem test_entropy : let full := secBase.modSec fun c => { c with aptFirst := 1, aptSame := 2, aptLength := 512, lastSample := 1, repeats := 1 }
    let stuck := secBase.modSec fun c => { c with lastSample := 7, repeats := 5 }
    let often := secBase.modSec fun c => { c with aptFirst := 7, aptSame := 61, aptLength := 100, lastSample := 1, repeats := 1 }
    (run (.entropySample 2) full).sec.aptLength = 1 ∧ (run (.entropySample 2) often).sec.aptLength = 101 ∧
    (run (.entropySample 7) stuck).sec.testFails = 1 ∧ (run (.entropySample 7) often).sec.testFails = 1 := by decide +kernel
/-- AES-256 of the example of FIPS 197, appendix C.3. -/
theorem test_aes256 : ofBytesBE (aes256 (toBytesBE 32 0x000102030405060708090a0b0c0d0e0f101112131415161718191a1b1c1d1e1f)
    (toBytesBE 16 0x00112233445566778899aabbccddeeff)) = 0x8ea2b7ca516745bfeafc49904b496089 := by decide +kernel
/-- HMAC with SHA-384, test case 2 of RFC 4231. -/
theorem test_hmac : ofBytesBE (hmac384 (toBytesBE 4 0x4a656665) (toBytesBE 28 0x7768617420646f2079612077616e7420666f72206e6f7468696e673f)) =
    0xaf45d2e376484031617f78d2b58a6b1b9c7ef464f5a01b47e42ec3736322445e8e2240ca5e69e2c78b3239ecfab21649 := by decide +kernel


/-! ### Power -/

/-- Time in nanosecond tens, a power state, and a policy that allows every state. -/
def hourLater : State := { base with now := 10 ^ 9, parts := [] }
def powered (f : PwrState → PwrState) : State := hourLater.modPwr f

theorem test_capDuty : capDuty 100 200 150 = 48 ∧ capDuty 0 0 0 = 0 ∧ capDuty 10 64 41 = 33 := by decide +kernel
theorem witness_states : hourLater.deepest = 1 ∧ (powered fun x => { x with lizSince := some 0 }).deepest = 2 ∧
    (powered fun x => { x with deepSince := some 0, policy := { x.policy with deepEn := true } }).deepest = 3 := by decide +kernel
theorem test_enter : (run .enterA1 hourLater).pwr.state = 1 ∧ (run .enterLizard (powered fun x => { x with lizSince := some 0 })).pwr.state = 2 ∧
    (run .enterDeepLizard (powered fun x => { x with deepSince := some 0, policy := { x.policy with deepEn := true } })).pwr.state = 3 := by decide +kernel
theorem test_exit : (run .powerStateExit (powered fun x => { x with state := 3 })).pwr.exiting = true ∧
    (run .powerStateExitDone (powered fun x => { x with state := 3, exiting := true })).pwr.state = 0 := by decide +kernel
/-- Bank 0 of tile 0 goes to sleep, loses power once drained, and reads zero when it wakes. -/
theorem test_banks : let s := run (.bankSleepWrite 0 1#64) base
    let t := run (.bankPowerOff 0 0) s
    smGet 0 (s.tile 0).banks 0 = 1 ∧ s.bankWriteCount 0 0 = 0 ∧ smGet 0 (t.tile 0).banks 0 = 2 ∧
    smGet 0 ((run (.bankSleepWrite 0 0#64) t).tile 0).banks 0 = 3 := by decide +kernel
theorem test_bankWake : let s := base.modTile 0 fun x => { x with banks := [(23, 3)], spad := [(23 * 2048 * 128, 1#8)], sleep := 0 }
    smGet 0 ((run (.bankWakeDone 0 23) s).tile 0).banks 23 = 0 ∧ ((run (.bankWakeDone 0 23) s).tile 0).spad = [] := by decide +kernel
theorem witness_frequency : let s := powered fun x => { x with freq := 1 }
    s.pwr.changing = none ∧ s.targetFreq ≠ s.pwr.freq ∧ s.pwr.state < 2 := by decide +kernel
theorem test_frequency : let s := powered fun x => { x with freq := 1 }
    (run .frequencyChange s).pwr.changing = some s.targetFreq ∧ (run .frequencyChangeEnd (run .frequencyChange s)).pwr.freq = s.targetFreq := by
  decide +kernel
theorem test_duty : smGet 0 (run .dutyWindow (powered fun x => { x with nDie1 := 3, nCap := 2 })).pwr.dutyFrozen 1 = 3 := by decide +kernel
theorem witness_sample : let s := powered fun x => { x with capOvr := 300, estimates := [400, 400, 400] }
    4 * s.pwr.cap < ((500 + 300) :: s.pwr.estimates).sum ∧ s.pwr.capHeld = false := by decide +kernel
theorem test_sample : let s := powered fun x => { x with capOvr := 300 }
    (run (.powerSample 100 200 0) s).pwr.meanW = 75 ∧ (run (.powerSample 100 200 0) s).pwr.nCap = 0 ∧
    (run (.powerSample 100 1200 0) s).pwr.nCap = capDuty 100 1200 300 ∧
    (run (.capRecompute 100 400) (run (.powerSample 100 1200 0) s)).pwr.capHeld = true := by decide +kernel
theorem test_raise : (run .capCeilingRaise (powered fun x => { x with capOvr := 300, msCount := 2, msSum := 540, cp := 40, cmax := 41 })).pwr.cp = 41 := by
  decide +kernel
/-- A change of frequency ends at the entry of Lizard. -/
theorem test_enter_change :
    (run .enterLizard (powered fun x => { x with lizSince := some 0, changing := some 3, frozen := true })).pwr.changing = none := by
  decide +kernel
def hotDie : DieTemps := { die := 2047, stks := [0, 0, 0, 0, 0, 0] }
theorem witness_thermal : tempsOk 0 hotDie = true ∧ tempsReach base.pwr.policy hotDie 0 = true ∧
    smGet false (powered fun x => { x with hot := [(0, true)] }).pwr.hot 0 = true := by decide +kernel
theorem test_thermal : (run (.thermalThrottle 0 hotDie) base).pwr.c0 = max 32 (base.pwr.c0 - 4) ∧
    (run (.thermalStep 0 hotDie) (powered fun x => { x with hot := [(0, true)] })).pwr.c0 = max 32 (base.pwr.c0 - 2) := by decide +kernel
theorem test_trip : ((run (.trip true 11 2000) mem3).pwr.state = 4) ∧ (run (.trip true 11 1680) mem3).mem = [] ∧
    ((run (.trip false 1 1840) mem3).part 0).state = 4 ∧ run (.trip false 1 1839) mem3 = mem3 ∧
    run (.trip true 0 (-1)) mem3 = mem3 := by decide +kernel
theorem test_ageing : (run (.ageingTrim ⟨1, false⟩) (powered fun x => { x with half1 := 90 })).pwr.half1 = 95 ∧
    (run (.ageingTrim ⟨1, false⟩) (powered fun x => { x with half1 := 95 })).pwr.ageLimit = true ∧
    (run (.ageingTrim ⟨0, true⟩) hourLater).pwr.ageLog = [{ trim0 := 5, trim1 := 0, ok := false }] := by decide +kernel
theorem test_pwrCtrl : (run (.pwrCtrlWrite 1500#64) base).pwr.capOvr = 1500 ∧ (run (.pwrCtrlWrite 1501#64) base).pwr.capOvr = base.pwr.capOvr := by
  decide +kernel

/-! ### Resets, cores, self-test, records -/

theorem witness_resets : let s : State := { base with pins := { base.pins with perst := false, moduleReset := false, pwrGood := true } }
    startOk {} = true ∧ s.selectBank ({} : StartIn).bankFails = 0 ∧ s.requestRecorded = false ∧ s.pwr.state ≠ 4 := by decide +kernel
set_option maxRecDepth 100000 in
/-- Reset held by PERST#, and after its release. -/
theorem test_coldStart : (run (.coldStart {}) { base with pins := { base.pins with perst := true } }).pins.waiting = some true ∧
    (run (.perstDeassertion {}) (run (.coldStart {}) { base with pins := { base.pins with perst := true, pwrGood := true } })).pins.ready = true := by
  decide +kernel
set_option maxRecDepth 100000 in
theorem test_fromReset : let s := run (.pwrGoodAssert {}) (run (.perstDeassertion {}) (run (.coldStart {}) State.reset))
    s.pins.ready = true ∧ s.ras.cause = 1 := by decide +kernel
set_option maxRecDepth 100000 in
theorem test_deviceReset : (run (.deviceReset .perst {}) base).ras.cause = 2 ∧ (run (.deviceReset .perst {}) base).parts = [] := by
  decide +kernel
/-- In TRIPPED a reset waits until no die is above 95 °C and no stack above 85 °C. -/
def tripped : State := run (.trip false 0 1840) base
theorem test_tripped : let s := run (.deviceReset .hotReset {}) tripped
    tripped.pwr.state = 4 ∧ s.pins.resetHeld.isSome = true ∧
    (run (.trippedResetRelease [1520, 0] (List.replicate 12 1360) {}) s).pwr.state = 0 ∧
    (run (.trippedResetRelease [1521, 0] (List.replicate 12 0) {}) s).pwr.state = 4 := by decide +kernel
theorem test_pins : (run .pwrGoodDeassert base).pins.pwrGood = false ∧ (run .refclkLoss base).pins.refclk = false ∧
    (run .refclkReturn base).pins.refclk = true := by decide +kernel
theorem test_lossOfInput : (run .lossOfInput mem3).mem = [] ∧ (run .lossOfInput mem3).withdrawn = [(1, true)] := by decide +kernel

theorem test_watchdogExpiry : ((run (.watchdogExpiry 2 {}) base).core 2).state = 2 ∧
    ((run (.coreRestartDone 2) (run (.watchdogExpiry 2 {}) base)).core 2).restarts = 1 := by decide +kernel
set_option maxRecDepth 100000 in
theorem test_secondExpiry : let s := ({ base with now := 100000005 } : State).modCore 2 fun c => { c with restartedAt := some 6 }
    (run (.watchdogExpiry 2 {}) s).ras.cause = 5 ∧
    (run (.watchdogExpiry 2 {}) (s.modCore 2 fun c => { c with restartedAt := some 5 })).ras.cause ≠ 5 := by decide +kernel
theorem test_rollback : let s := { base with now := 8640000000000, fw := { base.fw with running := 0, bank0 := { bytes := List.replicate 12 0#8 ++ [9#8, 0#8, 0#8, 0#8] } } }
    (run .rollbackCounterRaise s).fw.fwRollback = 9 := by decide +kernel

def bare : State := {}
theorem witness_bist : bare.test.busy = false ∧ bare.fw.factoryBad = false ∧ bare.scrubbing = false ∧ bare.pwr.state = 0 ∧ bare.fw.running ≠ 2 ∧
    targetBad 1 3 = false ∧ bare.testAllowed 1 3 = true ∧ targetBad 2 3 = false ∧ bare.testAllowed 2 3 = true ∧
    targetBad 3 3 = false ∧ bare.testAllowed 3 3 = true ∧ targetBad 4 0xFFF = false ∧ bare.testAllowed 4 0xFFF = true := by decide +kernel
theorem test_bistStarts : (run (.logicBist 3) bare).test.cmd = 1 ∧ (run (.arrayMemoryBist 3) bare).test.cmd = 2 ∧
    (run (.cacheMemoryBist 3) bare).test.cmd = 3 ∧ (run (.stackMemoryBist 0xFFF) bare).test.busy = true := by decide +kernel
theorem test_bistEnds : let s := { bare with mem := [(5, 1#8)], test := { bare.test with busy := true, cmd := 4, target := 1 } }
    (run (.bistDone [] []) s).mem = [] ∧ (run (.bistAbort 0) s).test.errCode = cBistAborted ∧
    (run (.bistDone [(0, 0), (1, 5)] []) { s with test := { s.test with cmd := 1, target := 3 } }).test.pass = false ∧
    (run (.bistDone [] [⟨3, 0, true⟩]) s).test.failCount = 1 := by decide +kernel
/-- The bytes of a withdrawn unit stay; an abort in TRIPPED changes no test. -/
theorem test_bistKeeps : let s := { bare with mem := [(5, 1#8)], withdrawn := [(0, true)], test := { bare.test with busy := true, cmd := 4, target := 1 } }
    (run (.bistDone [] []) s).mem = [(5, 1#8)] ∧ (run (.bistAbort 0) (s.modPwr fun x => { x with state := 4 })).test = s.test := by
  decide +kernel
theorem test_records : let r := (({} : RasState).store { code := 1 }).store { code := 2 }
    (r.head, r.unread) = (2, 2) ∧ (smGet {} r.recs 1).code = 2 ∧
    ((({} : RasState).store { severity := 3 }).fatals.length = 1) := by decide +kernel
theorem test_rasTail : let s := { base with ras := ((({} : RasState).store { code := 1 }).store { code := 2 }) }
    (run (.rasTailWrite 1#64) s).ras.unread = 1 ∧ (run (.rasTailWrite 2#64) s).ras.unread = 0 ∧
    (run (.rasTailWrite 3#64) s).ras.tail = 0 ∧ (run .fatalClear base).ras.fatals = [] := by decide +kernel

/-! ### Sequencers -/

/-- An OPERATE of one beat whose ring unit adds: rows 0 to 17 plus rows 0 to 17 into rows 0 to 17. -/
def addWord : BitVec 512 := 0x10000000000000001#512
/-- A NOP_WORD of three beats that emits token queue 5. -/
def nopWord : BitVec 512 := BitVec.ofNat 512 (2 ^ 11 + 5 * 2 ^ 12 + 2 * 2 ^ 18)
/-- Sequencer 0 runs the one-word kernel of table entry 0; the tiles' first rows are valid. -/
def seqBase (w : BitVec 512) (k : Kern) : State :=
  (base.modSeq 0 fun x => { x with state := 1, kern := some { k with replays := 1, noList := true }, ktab := [(0, 0x80080008000#64)], cmem := [(0, w)] }).each
    (upTo 8) fun t y => y.modTile t fun z => { z with tags := (upTo 18).map fun r => (r, { valid := true }) }
def idleSeq : State := base.modSeq 0 fun x => { x with ktab := [(0, 0x80080008000#64)] }

theorem witness_start : (idleSeq.seq 0).state = 0 ∧ idleSeq.seqPart 0 = some 0 ∧ ktValid ((idleSeq.seq 0).kt 0) = true ∧
    ((seqBase nopWord {}).seq 0).state ≠ 0 := by decide +kernel
theorem test_start : ((run (.start 0 0 5 true) idleSeq).seq 0).state = 1 ∧ ((run (.start 0 0 0 true) idleSeq).seq 0).done = true ∧
    ((run (.start 0 0 5 true) (seqBase nopWord {})).seq 0).dropped = true ∧
    ((run (.start 0 1 5 true) idleSeq).seq 0).state = 0 := by decide +kernel
theorem witness_issue : let s := seqBase nopWord { bounded := true }
    (s.nextWord 0).2 = (nopWord, false) ∧ wWaitEn nopWord = false ∧ wRepeatSrc nopWord = 0 ∧ wFirst nopWord = false ∧
    wKick nopWord = false ∧ wRotLatch nopWord = false ∧ wKind nopWord = 0 ∧ wRing nopWord = 0 ∧ wMode nopWord = 0 ∧
    wVop nopWord = 0 ∧ wExch nopWord = 0 ∧ s.arrayFrozen 0 = false ∧ s.haltCode = 0 ∧ (s.kern 0).bridgeBad = false := by decide +kernel
theorem witness_operate : let s := seqBase addWord { bounded := true }
    wKind addWord = 1 ∧ wRepeat addWord = 0 ∧ wordUnits (s.seqDies 0) addWord = [(0, 6)] ∧
    (s.seqCode 0 addWord 1 0 {}).1 = 0 ∧ wordBad 8 addWord = false := by decide +kernel
theorem test_nopWord : ((run (.nopWord ⟨0, .ok⟩) (seqBase nopWord { bounded := true })).seq 0).count = 3 := by decide +kernel
/-- A beat in flight. -/
def flight : State := run (.operate ⟨0, .ok⟩) (seqBase addWord { bounded := true })
theorem test_operate_fetch : ((run (.operate ⟨0, .cmem⟩) (seqBase addWord { bounded := true })).kern 0).faults.map (fun f => f.code) =
    [cCmemUncorrectable] := by decide +kernel
theorem test_operate : (flight.seq 0).count = 1 ∧ (flight.kern 0).beats.length = 1 := by decide +kernel
theorem witness_beatRead : ((flight.kern 0).beats.map fun b =>
    decide (b.unit = 0 ∧ 3 ≤ b.lat ∧ b.blockR = 0 ∧ b.cycle + 1 ≤ (flight.seq 0).count)) = [true] := by decide +kernel
/-- One tile of the beat above reads rows of zeros and finds sums of zero. -/
theorem test_unitRead : ((flight.kern 0).beats.map fun b => ((flight.unitRead b 0 8 0 0 0).code,
    (flight.unitRead b 0 8 0 0 0).rows.map fun r => (r.row, r.data.length))) = [(0, [(0, 2304)])] := by decide +kernel
def beat9 : Beat := { order := 3, lat := 6, read := true, rows := [{ tile := 2, row := 7, data := [9#8] }] }
def writing : State := (seqBase addWord { beats := [beat9] }).modSeq 0 fun x => { x with count := 6 }
theorem witness_beatWrite : writing.dueEvent 0 = some (.write beat9) := by decide +kernel
theorem test_beatWrite : (run (.beatWrite 0 false) writing).rowBytes 2 7 256 = [9#8] ++ List.replicate 255 0#8 ∧
    ((run (.beatWrite 0 false) writing).kern 0).beats = [] := by decide +kernel
def retiring : State := seqBase nopWord { words := [{ word := nopWord, order := 4, retire := 0 }] }
theorem witness_retire : retiring.dueEvent 0 = some (.retire { word := nopWord, order := 4, retire := 0 }) ∧ wEmitEn nopWord = true ∧
    wEmitTarget nopWord = 0 ∧ retiring.tokens 7 5 = [] := by decide +kernel
theorem test_retire : (run (.wordRetire 0) retiring).tokens 7 5 = [{ source := 2 }] ∧ ((run (.wordRetire 0) retiring).part 0).ledger.tokEmitted = 8 := by
  decide +kernel
/-- A word that waits for two tokens of queue 3. -/
def waitWord : BitVec 512 := BitVec.ofNat 512 (2 ^ 2 + 3 * 2 ^ 3 + 2 * 2 ^ 7)
def waiting : State := (seqBase waitWord { bounded := true, waitSince := some 1 }).modSeq 0 fun x => { x with state := 2 }
def released : State := waiting.each (upTo 8) fun t y => (y.emitTile t 3 {}).emitTile t 3 {}
theorem witness_waits : (waiting.seq 0).state = 2 ∧ (released.tokens 7 3).length = 2 ∧
    (waiting.seq 0).waitLimit * Config.ticksPerUs < ({ waiting with now := 10000002 } : State).now - 1 := by decide +kernel
theorem test_waits : (run (.waitRelease 0) released).tokens 7 3 = [] ∧ ((run (.waitRelease 0) waiting).seq 0).state = 2 ∧
    ((run (.waitTimeout 0) { waiting with now := 10000002 }).seq 0).state = 3 := by decide +kernel
theorem test_replays : ((run (.replayBoundary 0) (seqBase nopWord {})).kern 0).bounded = true ∧
    ((run (.replayBoundary 0) (seqBase nopWord {})).seq 0).count = 1 := by decide +kernel
/-- A replay list at 0x100: one set of one entry that adds 5 to P4. -/
def listed : State := { (seqBase nopWord {}).modSeq 0 fun x => { x with
    replayBase := 0x100, kern := some { replays := 2, sets := [[{ param := 4, value := 9 }, { param := 4, add := true, value := 1 }]] } } with
  mem := [(0x100, 0x34#8), (0x108, 5#8)] }
theorem witness_replayList : (listed.kern 0).noList = false ∧ (listed.kern 0).fetchBad = none ∧ (listed.kern 0).setsFetched < 2 ∧
    listed.rangeCode 0x100 (16 * setLength listed.mem 16 0x100) = 0 ∧ (readSet listed.mem 16 0x100).isSome = true := by decide +kernel
/-- A good token in every queue of every tile. -/
def fedAll : State := listed.each (upTo 8) fun t y => y.modTile t fun z => { z with tokq := (upTo 16).map fun q => (q, [{}]) }
theorem fed : ∀ t ∈ fedAll.partTiles 0, ∀ q, q < 16 → fedAll.tokens t q = [{}] := by decide +kernel
/-- Whatever queue the fetcher's tokens use, one waits there in every tile. -/
theorem witness_replayTokens : (listed.kern 0).bounded = false ∧
    ∀ t ∈ fedAll.partTiles 0, ∃ z zs, fedAll.tokens t (Config.replayQueue % 16) = z :: zs ∧ z.status = 0 :=
  ⟨by decide +kernel, fun t h => ⟨{}, [], fed t h _ (by omega), rfl⟩⟩
theorem test_replayList : smGet 0 (applySet [] ((listed.kern 0).sets.headD [])) 4 = 10 ∧
    ((run (.replayFetch 0) listed).kern 0).sets.length = 2 := by decide +kernel
theorem test_kernelEnds : ((run (.stop 0) (seqBase nopWord {})).kern 0).faults.map (fun f => f.code) = [cStopped] := by decide +kernel
def drained (l : List FaultRec) : State := (seqBase nopWord { faults := l }).modSeq 0 fun x => { x with state := 3 }
set_option maxRecDepth 100000 in
theorem test_drain : ((run (.kernelDrainEnd 0) (drained [{ code := cStopped, cycle := 4 }])).seq 0).count = 4 ∧
    ((run (.kernelDrainEnd 0) (drained [{ code := cStopped, cycle := 4 }])).seq 0).faultCode = cStopped ∧
    ((run (.kernelComplete 0) (drained [])).seq 0).done = true := by decide +kernel
theorem witness_loads : (idleSeq.seq 0).ldBusy = false ∧ (idleSeq.seq 0).kern = none ∧ ktMeets 0x80080008000#64 false 0 1 = true ∧
    ktBad 0x80080008000#64 = false ∧ wordBad 8 0 = false := by decide +kernel
theorem test_loadGo : ((run (.loadGo 0 0 1 false) idleSeq).seq 0).ldBusy = true ∧ ktValid (((run (.loadGo 0 0 1 false) idleSeq).seq 0).kt 0) = false ∧
    ((run (.loadGo 0 32767 2 false) idleSeq).seq 0).ldError = true := by decide +kernel
theorem test_loadComplete : smGet 0 ((run (.loadComplete 0) ({ idleSeq with mem := [(1, 0x58#8), (2, 8#8)] }.modSeq 0 fun x => { x with
    ldBusy := true, runDest := 7, runCount := 1 })).seq 0).cmem 7 = nopWord := by decide +kernel
theorem test_tables : ((run (.ktabWrite 0 63 0x80080008000#64) idleSeq).seq 0).kt 63 = 0x80080008000#64 ∧
    ((run (.parameterRegisterWrite 0 15 7#64) idleSeq).seq 0).reg 15 = 7 ∧
    ((run (.parameterRegisterWrite 0 15 7#64) (seqBase nopWord {})).seq 0).dropped = true := by decide +kernel

/-! ### Registers -/

def counted : State := ((base.modStk 11 fun x => { x with corrected := 1, uncorrectable := 2, spared := 3 }).modCache 1 fun x =>
  { x with corrected := 1, uncorrectable := 2 }).modPort 7 fun x => { x with fecCorrected := 1, replays := 2, uncorrectable := 3 }
theorem test_counterStack : ((run (.counterStackCountWrite 11 .whole 0xFFFF0000FFFFFFFF#64) counted).stk 11).uncorrectable = 0 ∧
    ((run (.counterStackCountWrite 11 .whole 0xFFFF0000FFFFFFFF#64) counted).stk 11).spared = 3 ∧
    ((run (.counterStackCountWrite 11 .high 1#64) counted).stk 11).spared = 0 := by decide +kernel
theorem test_counterOthers : ((run (.counterCacheStatusWrite 1 .low 0#64) counted).cache 1).corrected = 0 ∧
    ((run (.counterPortCountWrite 7 .high 0x10000#64) counted).port 7).replays = 0 ∧
    ((run (.counterPortCountWrite 7 .high 0x10000#64) counted).port 7).uncorrectable = 3 := by decide +kernel
/-- REPLAY_BASE of sequencer 7 holds 2^32 + 5. -/
def based : State := base.modSeq 7 fun x => { x with replayBase := 0x100000005 }
theorem witness_registers : based.pwr.state = 0 ∧ (based.fn 0).tdi = 0 ∧ latches 0x370020 = true ∧ accessOk 0x370021 8 = false ∧
    accessOk 0x370020 3 = false ∧ based.isolatedAt 0x370020 = none := by decide +kernel
theorem test_registerRead : (run (.registerRead 0 0x370020 8 .plain) based).host.readData = [0x100000005] ∧
    (run (.registerRead 0 0x370024 4 .plain) ((run (.registerRead 0 0x370020 4 .plain) based).modSeq 7 fun x =>
      { x with replayBase := 0 })).host.readData.getLast? = some 1 ∧
    (run (.registerRead 0 0x370021 8 .plain) based).host.readData = [0] := by decide +kernel
theorem test_registerWrite : ((run (.registerWrite byFirmware 0x370020 8 7#64 .plain) based).seq 7).replayBase = 7 ∧
    ((run (.registerWrite 0 0x370020 8 7#64 .plain) based).seq 7).replayBase = 0x100000005 ∧
    ((run (.registerWrite 0 0x370020 3 7#64 .plain) based).seq 7).replayBase = 0x100000005 := by decide +kernel

/-! ### Glahus limbs and ciphertexts -/

/-- q-primes 2^35 + 131073·… of 36 bits are not needed here: two small entries and one special prime. -/
def glSet : PrimeSet := { id := 5, logNMax := 17, qcount := 2, pcount := 1, acount := 3, dnum := 2
                          primes := [{ q := 17179869185 }, { q := 17179869187 }, { q := 17179869189 }, { q := 17179869191 }] }
def table (k : Nat) : NoiseTable := { scheme := k, fresh := 100, ks := [9, 9], bootOut := [8, 8] }
/-- The region of n limbs of 2^12 at a byte address; with stride 0 every limb is the same. -/
def limbs (base stride n : Nat) : Nat := base + stride * 2 ^ 32 + n * 2 ^ 48
def dstR : Nat := limbs 0x100000 9 12
def workR : Nat := limbs 0x200000 9 40
/-- A CKKS ciphertext at level 0. -/
def ct : Header := { valid := true, version := 1, scheme := 1, logN := 12, limbs := 1, comps := 2, domain := true, scale := 2560
                     noise := 100, psetId := 5, keyTag := 77 }
def bgv : Header := { ct with scheme := 2, plainMod := 3, scale := 0 }
/-- Rows 0 to 143 of tile 0 are valid; entry e holds a header and a region whose limbs all lie there; entry 0 the destination. -/
def glBase (l : List Header) : State :=
  { ((base.modTile 0 fun x => { x with tags := (upTo 144).map fun r => (r, { valid := true }) }).modSeq 0 fun x => { x with
      hdrs := ((upTo l.length).zip l).map fun e => (e.1 + 1, e.2) }).modPart 0 fun x => { x with
        binds := (0, dstR + 1) :: (upTo 8).map fun e => (e + 1, limbs 0 0 12 + 1) } with
    img := { image := some { m := 8, psets := [glSet], noises := [table 1, table 2, table 3] } }
    sec := { noiseOk := true } }
/-- A limb instruction from the valid limb to the destination. -/
def limbG : GInstr := { f1 := 12, rx := limbs 0x100000 9 1, ry := limbs 0 9 1 }
def limb3 : GInstr := { limbG with imm64 := limbs 0 9 1 }

theorem witness_limbs3 : (glBase []).limbPasses 0 limb3 limbUses3 1 [limb3.ry, limb3.imm64] [] := by
  unfold State.limbPasses State.gFree; decide +kernel
theorem witness_limbsMac : (glBase []).limbPasses 0 { limb3 with rx := limbs 0 9 1 } limbUses3 1 [limb3.ry, limb3.imm64, limbs 0 9 1] [] := by
  unfold State.limbPasses State.gFree; decide +kernel
theorem witness_limbs1 : (glBase []).limbPasses 0 limbG limbUses 1 [limbG.ry] [] := by unfold State.limbPasses State.gFree; decide +kernel
theorem witness_limbsConst : (glBase []).limbPasses 0 { limbG with param := 1 } { limbUses with param := true } 1 [limbG.ry] [] ∧
    (glBase []).kparam 0 0 < 2 ^ 36 := by unfold State.limbPasses State.gFree; decide +kernel
theorem witness_limbsAut : let g := { limbG with f2 := 2, imm64 := 2 ^ 33 + 3 }
    autOperandBad g g.imm64 = false ∧ galoisBad 12 (autGalois 12 g.imm64 false) = false ∧ gOk 0 g = true ∧
    (glBase []).limbPasses 0 g { limbUses3 with conj := true } 3 [g.ry] [] := by unfold State.limbPasses State.gFree; decide +kernel
/-- The worked example of R42: q = 17, N = 4, ψ = 2. -/
theorem test_ntt : nttForward 17 2 2 [1, 2, 3, 4] = [15, 11, 13, 16] ∧ nttInverse 17 2 2 [15, 11, 13, 16] = [1, 2, 3, 4] := by decide +kernel
theorem test_automorph : automorphCoeff 17 2 3 [1, 2, 3, 4] = [1, 4, 14, 2] ∧ (automorphEval 2 3 [1, 2, 3, 4]).length = 4 := by decide +kernel
theorem test_arith : addM 17 16 16 = 15 ∧ subM 17 0 1 = 16 ∧ negM 17 0 = 0 ∧ mulAddM 17179869185 17179869184 17179869184 5 = 6 := by decide +kernel

/-- A ciphertext operation passes with the header its checks predict. -/
def passes (s : State) (o : Nat) (g : GInstr) : Prop := s.ctPasses 0 o g 1 (checkHeaders ((s.gEnd 0 0).ctReq 0 o g 1)).hdr
def ctG : GInstr := { f0 := 0, f1 := 1 }
def ctG2 : GInstr := { f0 := 0, f1 := 1, f2 := 2 }
/-- With a key header of a kind at the address 0. -/
def keyed1 (kind : Nat) (l : List Header) : State := { glBase l with
  mem := [(0, 1#8), (1, 1#8), (2, 12#8), (3, BitVec.ofNat 8 kind), (4, 2#8), (5, 2#8), (12, 5#8), (16, 77#8), (24, 78#8)] }
def plain : Header := { ct with comps := 1, keyTag := 0 }
def three : Header := { ct with comps := 3 }

/-- A state whose tile 0 has the rows of `glBase` holds a valid limb at address 0. -/
theorem limbValid (s : State) (ht : (s.tile 0).tags = (upTo 144).map fun r => (r, ({ valid := true } : RowTag))) :
    s.lgValid 0 0 18432 = true := by
  have key : ∀ i, i < 144 → (smGet {} ((upTo 144).map fun r => (r, ({ valid := true } : RowTag))) i).valid = true := by decide +kernel
  simp only [State.lgValid, Bool.or_eq_true, List.all_eq_true]
  right
  intro i hi
  have hi : i < 144 := by simpa [upTo] using hi
  have h1 : (0 / 128 + i) * 128 / Config.logicalPerTile = 0 := by simp only [Config.logicalPerTile]; omega
  have h2 : (0 / 128 + i) * 128 % Config.logicalPerTile / 128 = i := by simp only [Config.logicalPerTile]; omega
  simp only [State.lgPlace, State.tag, Nat.zero_mul, h1, h2, Nat.add_zero, ht]
  exact key i hi

/-- Bodies that lie in that limb alone read well. -/
theorem bodyReads (s : State) (ps : PrimeSet) (r : Region) (h : Header)
    (ht : (s.tile 0).tags = (upTo 144).map fun r => (r, ({ valid := true } : RowTag))) (hn : h.logN = 12) (hb : r.base = 0)
    (hs : r.stride = 0) : s.bodyCode 0 ps r h false = 0 := by
  have hv := limbValid s ht
  have hl : limbBytes 12 false = 18432 := by decide
  have hz : ∀ i : Nat, (r.limbAt i).toNat = 0 := by intro i; simp [Region.limbAt, hb, hs]
  simp only [State.bodyCode, hn, hz, hl, hv]
  rw [List.find?_eq_none.2 (by simp)]
  rfl

/-- The state in which a passing operation reads its operands. -/
def reading (s : State) (o : Nat) (g : GInstr) : State := s.ctState 0 o g (checkHeaders ((s.gEnd 0 0).ctReq 0 o g 1)).hdr

/-- All of `ctPasses` but the reading of the bodies. -/
def checked (s : State) (o : Nat) (g : GInstr) : Prop :=
  let t := s.gEnd 0 0
  let h := (checkHeaders (t.ctReq 0 o g 1)).hdr
  s.gFree 0 ∧ s.ctInvalid 0 o g = false ∧ (t.ctKey 0 o g).1 = 0 ∧ t.ctRegBad 0 o g = false ∧
    (o = oFlood → floodWidthCode g.imm8 = 0) ∧ checkHeaders (t.ctReq 0 o g 1) = { hdr := h } ∧
    t.bindingCode 0 o g h (t.hdr 0 g.f1) (t.pset g.pset) = 0 ∧ (drawsNoise o = true → (reading s o g).sec.noiseOk = true) ∧
    ((reading s o g).ctKeyBody 0 o g).1 = 0 ∧ ((reading s o g).tile 0).tags = (upTo 144).map fun r => (r, ({ valid := true } : RowTag))

/-- A body in the valid limb: entry e has log N 12 and a region at address 0 of stride 0. -/
def placed (s : State) (e : Nat) : Prop := (s.hdr 0 e).logN = 12 ∧ ((s.bound 0 e).getD {}).base = 0 ∧ ((s.bound 0 e).getD {}).stride = 0

theorem passes_of {s : State} {o : Nat} {g : GInstr}
    (h : checked s o g ∧ g.canon = false ∧ placed (reading s o g) g.f1 ∧ (isBinary o = true → placed (reading s o g) g.f2)) :
    passes s o g := by
  obtain ⟨⟨h1, h2, h3, h4, h5, h6, h7, h8, h9, ht⟩, hc, ⟨ha, hb, hs⟩, h2'⟩ := h
  refine ⟨h1, h2, h3, h4, h5, h6, h7, h8, ?_⟩
  show (reading s o g).ctReadCode 0 o g = 0
  have hz : (if isBinary o then (reading s o g).bodyCode 0 ((reading s o g).pset g.pset) (((reading s o g).bound 0 g.f2).getD {})
      ((reading s o g).hdr 0 g.f2) false else 0) = 0 := by
    split
    · next hi => obtain ⟨p, q, r⟩ := h2' hi; exact bodyReads _ _ _ _ ht p q r
    · rfl
  simp [State.ctReadCode, hc, bodyReads _ _ _ _ ht ha hb hs, hz, h9]

theorem witness_cadd : passes (glBase [ct, ct]) oCadd ctG2 ∧ passes (glBase [ct, ct]) oCsub ctG2 ∧ passes (glBase [ct]) oCneg ctG := by
  refine ⟨?_, ?_, ?_⟩ <;> exact passes_of (by unfold checked placed State.gFree; decide +kernel)
theorem witness_cplain : passes (glBase [ct, plain]) oCaddp ctG2 ∧ passes (glBase [ct, plain]) oCmulp ctG2 := by
  refine ⟨?_, ?_⟩ <;> exact passes_of (by unfold checked placed State.gFree; decide +kernel)
theorem witness_cmul : passes (glBase [ct, ct]) oCmul ctG2 ∧ passes (glBase [ct]) oCmuli { ctG with imm64 := 1 } := by
  refine ⟨?_, ?_⟩ <;> exact passes_of (by unfold checked placed State.gFree; decide +kernel)
theorem witness_levels : passes (glBase [{ ct with limbs := 2, level := 1 }]) oDrop ctG ∧
    passes (glBase [{ ct with boot := true }]) oBootclose ctG ∧ passes (glBase [{ ct with domain := false }]) oToeval ctG ∧
    passes (glBase [ct]) oTocoef ctG := by
  refine ⟨?_, ?_, ?_, ?_⟩ <;> exact passes_of (by unfold checked placed State.gFree; decide +kernel)
theorem witness_keys : passes (keyed1 1 [three]) oRelin { ctG with rx := workR } ∧
    passes (keyed1 4 [ct]) oKsw { ctG with rx := workR } := by
  refine ⟨?_, ?_⟩ <;> exact passes_of (by unfold checked placed State.gFree; decide +kernel)
theorem witness_rot : passes { keyed1 2 [ct] with mem := (keyed1 2 [ct]).mem.take 6 ++ [(8, 3#8), (12, 5#8), (16, 77#8)] } oRot
    { ctG with rx := workR, ry := 2 ^ 33 + 3 } :=
  passes_of (by unfold checked placed State.gFree; decide +kernel)
theorem witness_encpk : passes (keyed1 3 [plain]) oEncpk ctG :=
  passes_of (by unfold checked placed State.gFree; decide +kernel)
theorem witness_mods : passes (glBase [ct]) oModup ctG ∧ passes (glBase [{ ct with specials := 1 }]) oModdown { ctG with rx := workR } := by
  refine ⟨?_, ?_⟩ <;> exact passes_of (by unfold checked placed State.gFree; decide +kernel)
theorem witness_rescale : passes (glBase [{ ct with limbs := 2, level := 1, scale := 12000 }]) oRescale ctG ∧
    passes (glBase [{ bgv with limbs := 2, level := 1 }]) oModsw ctG := by
  refine ⟨?_, ?_⟩ <;> exact passes_of (by unfold checked placed State.gFree; decide +kernel)
theorem witness_bfv : passes (glBase [{ bgv with scheme := 3, limbs := 2, level := 1 }, { bgv with scheme := 3, limbs := 2, level := 1 }]) oCmul ctG2 :=
  passes_of (by unfold checked placed State.gFree; decide +kernel)
theorem witness_raise : passes (glBase [ct]) oModraise ctG ∧ passes (glBase [{ ct with scale := 7000 }]) oFlood { ctG with imm8 := 1 } := by
  refine ⟨?_, ?_⟩ <;> exact passes_of (by unfold checked placed State.gFree; decide +kernel)

/-! ### Glahus moves, control, matrices, collectives -/

/-- A tensor of four 8-bit integers in one tile at 0x10000; its elements follow at 0x10800. -/
def moves : State := { glBase [ct] with mem := [(0x10000, 1#8), (0x10001, 1#8), (0x10004, 4#8), (0x10018, 1#8), (0x10019, 4#8), (0x10800, 9#8)] }
def oneBlock (a : Nat) : Nat := a + 16 * 2 ^ 32 + 2 ^ 48

theorem witness_control : moves.gFree 0 ∧ nopBad {} = false ∧ waittBad { f0 := 15, f1 := 2 } = false ∧
    emittBad { f0 := 8, f1 := 1 } = false ∧ emittBad { f0 := 8, f1 := 0 } = false ∧
    moves.bindBad 0 { f0 := 255, rx := dstR } = false ∧ rseedBad { f0 := 1, imm64 := 0x10800 } = false ∧
    moves.inStacks 0 0x10800 32 = true ∧ ofBytes ((moves.load 0x10800 32).drop 26) = 0 := by
  unfold State.gFree; decide +kernel
theorem test_waitt : let s := moves.each (upTo 8) fun t y => y.emitTile t 15 {}
    (run (.waitt 0 { f0 := 15, f1 := 1 }) s).tokens 7 15 = [] := by decide +kernel
theorem test_waitt_held : ((run (.waitt 0 { f0 := 15, f1 := 1 }) moves).part 0).held = [(0x0001, { f0 := 15, f1 := 1 })] := by
  decide +kernel
theorem test_bind : smGet 0 ((run (.bind 0 { f0 := 255, rx := dstR }) moves).part 0).binds 255 = dstR + 1 ∧
    ((run (.nop 0 { f0 := 1 }) moves).part 0).gCode = cGlahusInvalid := by decide +kernel
theorem test_emitt : (run (.emitt 0 { f0 := 8, f1 := 0 }) moves).free = 1 := by decide +kernel
theorem test_rseed : (smGet {} ((run (.rseed 0 { f0 := 1, imm64 := 0x10800 }) moves).tile 7).gen 1).key.take 2 = [9#8, 0#8] := by decide +kernel

theorem witness_ldl : let g : GInstr := { f1 := 12, rx := limbs 0x100000 9 1, imm64 := 0x800 }
    moves.ldlBad 0 g = false ∧ gOk 0 g = true ∧ (moves.region 0 g.rx).count = 1 ∧ moves.inStacks 0 0x800 18432 = true ∧
    (moves.gEnd 0 0).noiseMissing 0 0x800 18432 = false ∧ (moves.gEnd 0 0).rangeCode 0x800 18432 = 0 := by decide +kernel
theorem witness_stl : let g : GInstr := { f1 := 12, ry := limbs 0 9 1, imm64 := 0x800 }
    moves.stlBad 0 g = false ∧ gOk 0 g = true ∧ (moves.region 0 g.ry).count = 1 ∧ (moves.region 0 g.ry).limbAt 0 = 0 := by decide +kernel
/-- A one-limb CKKS header of one component at 0x20000. -/
def stored : State := { glBase [plain] with mem := [(0x20000, 1#8), (0x20001, 1#8), (0x20002, 12#8), (0x20003, 1#8), (0x20006, 1#8), (0x2000C, 5#8)] }
theorem witness_ldct : let g : GInstr := { f0 := 9, rx := dstR, imm64 := 0x20000 }
    let t := stored.gEnd 0 0
    let h := headerOf (t.loadLE 0x20000 64)
    stored.ldctBad 0 g = false ∧ t.inStacks 0 0x20000 2048 = true ∧ t.lineCode 0x20000 = 0 ∧ h.bodyLimbs = 1 ∧
    h.bodyLimbs ≤ t.capacity 0 (t.region 0 g.rx) h.logN ∧ logNOk h = true ∧ t.inStacks 0 0x20800 18432 = true ∧
    t.rangeCode 0x20800 18432 = 0 ∧ memLimb h 0 0 = 0 := by decide +kernel
theorem witness_stct : let g : GInstr := { f0 := 1, imm64 := 0x20000 }
    let t := stored.gEnd 0 0
    stored.stctBad 0 g = false ∧ logNOk (t.hdr 0 1) = true ∧ (t.hdr 0 1).bodyLimbs = 1 ∧ t.inStacks 0 0x20000 20480 = true ∧
    t.rangeCode 0x20000 20480 = 0 ∧ ((t.bound 0 1).getD {}).limbAt 0 = 0 ∧ (t.bound 0 1).isSome = true := by decide +kernel
theorem witness_ldt : let g : GInstr := { rx := oneBlock 0x100000, imm64 := 0x10000 }
    let t := moves.gEnd 0 0
    let tn := tensorOf (t.loadLE 0x10000 64)
    moves.ldtBad 0 g = false ∧ gOk 0 g = true ∧ (t.tensorPos 0 tn 0).1 = 0 ∧ t.tensorCode 0 0x10000 (t.region 0 g.rx) false = 0 ∧
    t.lgFits 0 ((t.region 0 g.rx).blockAt 0) tn.blockBytes = true ∧
    t.tileCode 0 (tn.pieces (0x10800 : Nat) (t.tensorPos 0 tn 0).2) true = 0 := by decide +kernel
theorem test_ldt : (run (.ldt 0 { rx := oneBlock 0x100000, imm64 := 0x10000 }) moves).lgRead 0 0x100000 2 = [9#8, 0#8] := by decide +kernel
theorem witness_stt : let g : GInstr := { ry := oneBlock 0, imm64 := 0x10000 }
    let t := moves.gEnd 0 0
    let tn := tensorOf (t.loadLE 0x10000 64)
    moves.sttBad 0 g = false ∧ tn.reduce = 0 ∧ t.tensorCode 0 0x10000 (t.region 0 g.ry) true = 0 ∧
    t.lgFits 0 ((t.region 0 g.ry).blockAt 0) tn.blockBytes = true ∧ t.lgValid 0 0 tn.blockBytes = true ∧
    t.tileCode 0 (tn.pieces (0x10800 : Nat) (t.tensorPos 0 tn 0).2) false = 0 ∧ tn.mode ≠ 1 ∧
    (∀ l ∈ pieceLines (tn.pieces (0x10800 : Nat) (t.tensorPos 0 tn 0).2), t.lineCode l = 0) := by decide +kernel
theorem test_stt : (run (.stt 0 { ry := oneBlock 0, imm64 := 0x10000 }) moves).loadLE 0x10800 4 = 0 := by decide +kernel

/-- An MMUL shape record of mode 2 and one block each way at the address in A0. -/
def mats : State := { (moves.modSeq 0 fun x => { x with params := [(4, 0x30000#64)] }) with
  mem := [(0x30000, 2#8), (0x30002, 1#8), (0x30004, 1#8), (0x30006, 1#8)] }
theorem witness_mmul : let g : GInstr := { param := 1, ry := oneBlock 0, imm64 := oneBlock 0, rx := oneBlock 0x100000 }
    let t := mats.gEnd 0 0
    let z := shapeOf (t.loadLE (t.shapeAddr 0 g) 32)
    mats.mmulBad 0 g = false ∧ t.shapeAddr 0 g = 0x30000 ∧ mats.inStacks 0 0x30000 32 = true ∧ t.lineCode 0x30000 = 0 ∧ z.bad = false ∧ z.toRx = false ∧ (z.mt, z.nt, z.kb) = (1, 1, 1) ∧
    t.blocksCode 0 (t.region 0 g.ry) 1 4096 = 0 := by decide +kernel
/-- A queued tile, and a pass that copies its lanes. -/
def queued : State := moves.modPart 0 fun x => { x with mmulQ := some [[5]] }
theorem witness_vpass : let g : GInstr := { f0 := 1, rx := oneBlock 0x100000 }
    queued.vpassInvalid 0 g = false ∧ (queued.region 0 g.ry).count = 0 ∧ gOk 0 g = true ∧
    queued.lgFits 0 ((queued.region 0 g.rx).blockAt 0) (512 * vopBits 1) = true := by decide +kernel
theorem witness_vpass_lanes (l : LaneIn) (h : l.vop = 1) : (laneOp l).bad = false := by simp [laneOp, h]

/-- The joined job's partition holds a header of one limb; collective 0 an all-reduce, 1 a broadcast, 2 a gather. -/
def joined (cfg : FabricCfg) : State := { (glBase [plain]) with
  fab := { fabBase.fab with cfg := cfg } }
def leafCfg : FabricCfg := { jobCfg with colls := jobCfg.colls.map (fun c => { c with children := [] }) ++
  [{ kind := 3, members := 3, rank := 1, parent := 6, bufAddr := 0x4200000, bufMib := 1 }] }
def rootCfg : FabricCfg := { leafCfg with colls := leafCfg.colls.map fun c => { c with parent := 0xFFFF, rank := 0, children := if c.kind = 2 then [6] else [] } }
theorem witness_collectives : let s := joined leafCfg
    let t := s.gEnd 0 0
    s.gFree 0 ∧ s.fab.jobState = 2 ∧ smGet 0 (s.coll 1).dead (s.coll 1).inst = 0 ∧ s.fab.cfg.jobPart = 0 ∧ s.bcastBad 0 { f0 := 1, f1 := 1 } = false ∧
    s.gatherBad 0 { f0 := 1, f1 := 2, rx := limbs 0x100000 9 3 } = false ∧ t.collHeaderCode (t.hdr 0 1) = 0 ∧
    t.operandCode 0 1 ((leafCfg.colls.getD 1 {}).half) (t.hdr 0 1) = 0 ∧
    t.operandCode 0 1 ((leafCfg.colls.getD 2 {}).rankBytes) (t.hdr 0 1) = 0 ∧ s.allredBad 0 { f0 := 1, f1 := 0 } = false ∧
    (joined rootCfg).bcastBad 0 { f0 := 1, f1 := 1 } = false ∧ (joined rootCfg).gatherBad 0 { f0 := 1, f1 := 2, rx := limbs 0x100000 9 3 } = false := by
  unfold State.gFree; decide +kernel
theorem witness_reaches : ((joined leafCfg).peer (peerKey 6 1)).txq = [] ∧
    ∀ y : Packet, y.dest = 6 → ((joined leafCfg).egressOf y).isSome = true := by
  refine ⟨by decide +kernel, fun y hy => ?_⟩
  have h0 : (joined leafCfg).fab.cfg.routeTo 6 = some { first := 6, last := 6, primary := 0, altEn := true, alternate := 1 } := by decide +kernel
  have h1 : ((joined leafCfg).port 0).usable = true := by decide +kernel
  simp [State.egressOf, hy, h0, h1]
theorem witness_reduce : let s := { joined leafCfg with img := (glBase []).img }.modSeq 0 fun x => { x with hdrs := [(1, plain)] }
    let t := s.gEnd 0 0
    t.reduceCode (t.hdr 0 1) = 0 ∧ 36 * (t.hdr 0 1).groups ≤ (leafCfg.colls.getD 0 {}).half ∧
    (t.hdr 0 1).bodyLimbs ≤ t.capacity 0 ((t.bound 0 1).getD {}) 12 := by decide +kernel
theorem test_collective : ((run (.bcast 0 { f0 := 1, f1 := 1 }) (joined leafCfg)).coll 1).isOpen = true ∧
    ((run (.gather 0 { f0 := 1, f1 := 1 }) (joined leafCfg)).part 0).gCode = cGlahusInvalid := by decide +kernel
/-- Every collective with this module alone. -/
def loneCfg : FabricCfg := { leafCfg with colls := leafCfg.colls.map fun c => { c with members := 1, rank := 0, parent := 0xFFFF, children := [] } }
theorem witness_lone : let s := joined loneCfg
    let t := s.gEnd 0 0
    (loneCfg.colls.map fun c => (c.members, c.rank)) = [(1, 0), (1, 0), (1, 0)] ∧ (s.coll 0).sentUp = false ∧
    s.allredBad 0 { f0 := 1 } = false ∧ s.bcastBad 0 { f0 := 1, f1 := 1 } = false ∧
    s.gatherBad 0 { f0 := 1, f1 := 2, rx := limbs 0x100000 9 3 } = false ∧
    t.operandCode 0 1 ((loneCfg.colls.getD 1 {}).half) (t.hdr 0 1) = 0 ∧
    t.operandCode 0 1 ((loneCfg.colls.getD 2 {}).rankBytes) (t.hdr 0 1) = 0 := by decide +kernel
/-- An all-reduce whose collective is open waits. -/
theorem test_collWaits : let s := { joined leafCfg with fab := { (joined leafCfg).fab with colls := [(0, { isOpen := true })] } }
    (s.coll 0).isOpen = true ∧ ((run (.allred 0 { f0 := 1 }) s).part 0).held = [(0x0502, { f0 := 1 })] := by decide +kernel
theorem witness_vpassEmpty : let s := moves.modPart 0 fun x => { x with mmulQ := some [] }
    (s.part 0).mmulQ = some [] ∧ s.vpassInvalid 0 { f0 := 1, rx := oneBlock 0x100000 } = false ∧ gOk 0 { f0 := 1, rx := oneBlock 0x100000 } = true := by
  decide +kernel
theorem test_mmulEmpty : ((run (.mmul 0 { param := 1, ry := oneBlock 0, imm64 := oneBlock 0 })
    { mats with mem := [(0x30000, 2#8), (0x30002, 1#8)] }).part 0).mmulQ = some [] := by decide +kernel
theorem test_integerTile : (outTile { mode := 2, kb := 1 } (fun _ => [2#8, 0xFF#8]) (fun _ => [0xFD#8, 1#8])).getD 1 0 = 2 := by decide +kernel

/-! ### Stream engines -/

/-- A descriptor of some operation with one block, its list at 0x40000 and its data at 0x50000. -/
def descr (op : Nat) : BitVec 512 := BitVec.ofNat 512 (op + 2 ^ 32 + 0x50000 * 2 ^ 128 + 0x40000 * 2 ^ 192)
/-- A block of one chunk of 256 bytes at row 10. -/
def entry10 : BitVec 256 := BitVec.ofNat 256 (10 * 2 ^ 48 + 256 * 2 ^ 64 + 2 ^ 96)
def slotted3 (x : Slot) : State := { base.modSlot 3 7 (fun _ => x) with
  mem := [(0x40006, 10#8), (0x40009, 1#8), (0x4000C, 1#8), (0x50080, 7#8)] }
def active (op : Nat) (r : StreamRun) : State := slotted3 { desc := descr op, state := 2, run := some r }
def oneBlk : Block := { entry := entry10 }
def openBlk : Block := { entry := entry10, started := true, transfers := 1, total := 2, requested := 2 }
/-- Its first line has landed. -/
def halfBlk : Block := { openBlk with landed := 1, line := 1 }

theorem witness_slots : (base.slot 3 7).state = 0 ∧ armBad (descr 0) = false ∧ armBad (descr 7) = true ∧
    ((slotted3 { desc := descr 0, state := 1 }).slot 3 7).state = 1 := by decide +kernel
theorem test_arm : ((run (.streamArm 3 7) (slotted3 { desc := descr 0 })).slot 3 7).state = 1 ∧
    ((run (.streamArm 3 7) (slotted3 { desc := descr 7 })).slot 3 7).errCode = cDescriptorInvalid := by decide +kernel
theorem test_slotWrite : ((run (.slotWrite 3 7 7 5#64) base).slot 3 7).desc = BitVec.ofNat 512 (5 * 2 ^ 448) ∧
    ((run (.slotWrite 3 7 7 5#64) (active 0 {})).slot 3 7).dropped = true ∧
    (run (.fetchStatusRead 3) (base.modTile 3 fun x => { x with ctxUsed := 5, ctxHigh := 6 })).host.readData = [5 + 6 * 2048] := by decide +kernel
theorem test_go : ((run (.streamGo 3 7) (slotted3 { desc := descr 0, state := 1 })).slot 3 7).run = some {} ∧
    ((run (.streamGo 3 7) base).slot 3 7).errCode = cStreamSlotEmpty ∧ ((run (.streamGo 3 7) (active 0 {})).slot 3 7).errCode = cStreamBusy := by
  decide +kernel
theorem test_goBase : let s := (slotted3 { desc := descr 0 ||| 0x4000000000000#512, state := 1 }).modSeq 0 fun x => { x with params := [(4, 0x20000000000#64)] }
    ((run (.streamGo 3 7) s).slot 3 7).errCode = cParamRange ∧
    (((run (.streamGo 3 7) (s.modSeq 0 fun x => { x with params := [(4, 0x1FFFFFFFFFF#64)] })).slot 3 7).run.map fun r => r.base) = some 0x1FFFFFFFFFF := by
  decide +kernel
theorem witness_listRead : let s := active 0 {}
    (s.run 3 7).blocks.length < sdBlocks (descr 0) ∧ s.rangeCode 0x40000 32 = 0 ∧ s.entryAt (descr 0) 0 = entry10 := by decide +kernel
theorem test_listRead : ((run (.blockListRead 3 7) (active 0 {})).run 3 7).blocks = [oneBlk] := by decide +kernel
theorem witness_blockStart : let s := active 0 { blocks := [oneBlk] }
    (s.run 3 7).blocks.findIdx? (fun x => !x.started) = some 0 ∧ headerPending (descr 0) (s.run 3 7) = false ∧
    coordsReady (descr 0) (s.run 3 7) entry10 = true ∧ be entry10 177 177 = 0 ∧ strideBad (descr 0) (s.run 3 7) entry10 = false ∧
    s.blockLines 3 (descr 0) (s.run 3 7) entry10 = 2 ∧ s.ctxAvail 3 1 = 928 := by decide +kernel
theorem test_blockStart : ((run (.streamBlockStart 3 7) (active 0 { blocks := [oneBlk] })).run 3 7).blocks = [openBlk] ∧
    ((run (.streamBlockStart 3 7) (active 0 { blocks := [oneBlk] })).tile 3).ctxUsed = 2 := by decide +kernel
theorem witness_lines : let s := active 0 { blocks := [halfBlk], contexts := 1 }
    flightBlock (s.run 3 7) = some 0 ∧ openBlock (descr 0) (s.run 3 7) = some 0 ∧
    (s.transferLines 3 (descr 0) (s.run 3 7) entry10 0).length = 2 ∧ s.transferCode 3 (descr 0) (s.run 3 7) entry10 false 0 = 0 ∧
    s.lineCode ((s.transferLines 3 (descr 0) (s.run 3 7) entry10 0).getD 1 0) = 0 ∧ sharedRows (descr 0) (s.run 3 7) entry10 = false := by decide +kernel
theorem test_lineLand : let t := run (.fetchLineLand 3 7) (active 0 { blocks := [halfBlk], contexts := 1 })
    t.rowBytes 3 11 1 = [7#8] ∧ t.tag 3 11 = { valid := true } ∧ ((t.run 3 7).blocks.map fun b => b.landed) = [2] := by decide +kernel
def storing : State := (active 1 { blocks := [openBlk], contexts := 2 }).modTile 3 fun x => { x with
  spad := [(1280, 9#8)], tags := [(10, { valid := true }), (11, { valid := true })] }
theorem witness_store : let s := storing
    let f := s.transferFields 3 (descr 1) (s.run 3 7) entry10 0
    let a := (s.transferLines 3 (descr 1) (s.run 3 7) entry10 0).getD 0 0
    flightBlock (s.run 3 7) = some 0 ∧ s.transferCode 3 (descr 1) (s.run 3 7) entry10 false 0 = 0 ∧ a = 0x50000 ∧
    (smGet (0, 0) f.2 a).1 ≠ 0 ∧ (s.storeBits a (smGet (0, 0) f.2 a).1 (smGet (0, 0) f.2 a).2).2 = 0 := by decide +kernel
theorem test_storeAck : (run (.storeAck 3 7) storing).loadLE 0x50000 1 = 9 := by decide +kernel
theorem test_blockComplete : let s := active 0 { blocks := [{ openBlk with landed := 2, next := 1 }] }
    blockDone (descr 0) (s.run 3 7) { openBlk with landed := 2, next := 1 } = true ∧ ((run (.streamBlockComplete 3 7) s).run 3 7).completed = 1 := by decide +kernel
/-- A ciphertext store whose body went to 0x50000 and whose header goes to 0x60000. -/
def ctStore : State := active 0 { completed := 1 } |>.modSlot 3 7 fun x => { x with
  desc := BitVec.ofNat 512 (3 + 2 ^ 14 + 2 ^ 32 + 9 * 2 ^ 72 + 0x50000 * 2 ^ 128 + 0x60000 * 2 ^ 256) }
theorem test_ctStore : sdOp (ctStore.slot 3 7).desc = 3 ∧ sdCt (ctStore.slot 3 7).desc = true ∧
    headerPending (ctStore.slot 3 7).desc (ctStore.run 3 7) = false ∧ ctStore.inStacks 0 0x60000 64 = true ∧
    (ctStore.storeP 0 0x60000 (toBytes 64 (storedHeader (ctStore.hdr 0 9) 0x50000))).2 = 0 ∧
    ((run (.streamRunComplete 3 7) ctStore).hdr 0 9).bodyAddr = 0x50000 := by decide +kernel
theorem test_runComplete : ((run (.streamRunComplete 3 7) (active 1 { completed := 1 })).slot 3 7).state = 0 := by decide +kernel
set_option maxRecDepth 100000 in
theorem test_streamAbort : ((run (.streamAbort 3 7) (active 0 { blocks := [openBlk], contexts := 2 })).slot 3 7).state = 3 ∧
    ((run (.streamAbortDrained 3 7) (slotted3 { desc := descr 0, state := 3, run := some {} })).slot 3 7).state = 0 := by decide +kernel

/-- Headers at 0x20000: a ciphertext's there, a key header of kind 1 at 0x21000 whose tag differs, a tensor's at 0x10000. -/
def headed (d : BitVec 512) (r : StreamRun) : State :=
  { base.modSlot 3 7 (fun _ => { desc := d, state := 2, run := some r }) with
    mem := moves.mem ++ stored.mem ++ [(0x21000, 1#8), (0x21001, 1#8), (0x21002, 12#8), (0x21003, 1#8), (0x2100C, 5#8)] }
def ctD : BitVec 512 := BitVec.ofNat 512 (2 + 2 ^ 14 + 2 ^ 32 + 9 * 2 ^ 72 + 0x20000 * 2 ^ 256)
def keyD : BitVec 512 := BitVec.ofNat 512 (4 + 8 * 2 ^ 24 + 2 ^ 32 + 0x21000 * 2 ^ 256)
def tensD : BitVec 512 := BitVec.ofNat 512 (5 + 2 ^ 32 + 0x10000 * 2 ^ 128)
theorem test_ctHeader : sdCt ctD = true ∧ (headed ctD {}).lineCode 0x20000 = 0 ∧
    ((run (.ctHeaderLoad 3 7) (headed ctD {})).hdr 0 9).limbs = 1 := by decide +kernel
theorem test_keyHeader : let r : StreamRun := { latch := some { psetId := 5, scheme := 1, logN := 12, kind := 1 } }
    keyCheck (r.latch.getD {}) (keyHeaderOf ((headed keyD r).loadLE 0x21000 64)) 0 = 0 ∧
    (run (.keyHeaderCheck 3 7) (headed keyD r)).tokens 3 8 = [{ source := 1, tag := 0xFF }] := by decide +kernel
theorem test_tensorHeader : ((run (.tensorHeaderRead 3 7) (headed tensD {})).run 3 7).headerDone = true ∧
    (tensorOf ((run (.tensorHeaderRead 3 7) (headed tensD {})).run 3 7).tensor.toNat).d0 = 4 := by decide +kernel
/-- A tensor in list mode whose list of one entry at 0 names tile (0, 0). -/
def listT : BitVec 512 := BitVec.ofNat 512 (1 + 2 ^ 8 + 2 ^ 14 + 4 * 2 ^ 32 + 2 ^ 192 + 4 * 2 ^ 200 + 2 ^ 208)
theorem test_coordinates : (tensorOf listT.toNat).mode = 1 ∧ 0 < (tensorOf listT.toNat).tcMax ∧ 0 < (tensorOf listT.toNat).trMax ∧
    smGet 0 ((run (.coordinateListRead 3 7 0) (headed tensD { headerDone := true, tensor := listT })).run 3 7).coords 0 = 2 ^ 64 := by decide +kernel

/-- A seeded key run of one block whose chain has not started, with a Badger way on its die; and one whose chain runs. -/
def unchained : State := (active 4 { blocks := [oneBlk], keyChecked := true, keyHdr := { seeded := true } }).modCache 0 fun c =>
  { c with ways := 1 }
def chained : State := (active 4 { blocks := [{ oneBlk with chain := 1, chainsOn := 1 }], keyChecked := true, keyHdr := { seeded := true } }).modCache 0
  fun c => { c with ways := 1, chains := [{ slot := 7, users := [3] }] }
/-- Tile 4 reads the same limb as the running chain's. -/
def joining : State := chained.modSlot 4 7 fun _ => { desc := descr 4, state := 2, run := some { blocks := [oneBlk], keyChecked := true, keyHdr := { seeded := true } } }
theorem witness_chainStart : (unchained.run 3 7).blocks.findIdx? (fun b => decide (b.chain ≤ 1) && decide (b.chainsOn < beChunks b.entry)) = some 0 ∧
    unchained.chainOf 3 7 0 0 = none ∧ unchained.chainUsers 3 7 0 0 = [3] ∧
    0 + unchained.dieShare 3 (sdLogN (descr 4)) ≤ (unchained.cache 0).ways * 4194304 := by decide +kernel
theorem witness_chainJoin : joining.chainOf 4 7 0 0 = some 0 ∧ ((joining.cache 0).chains.map fun c => c.running) = [true] := by decide +kernel
theorem ofBytes_lt (l : List Byte) : ofBytes l < 256 ^ l.length := by
  induction l with
  | nil => simp [ofBytes]
  | cons b r ih => have := b.isLt; simp only [ofBytes, List.length_cons, Nat.pow_succ]; omega
/-- No attempt of five bytes reaches 2^41. -/
theorem attempts_lt (n m : Nat) (l : List Byte) : (attempts n m l).length = n ∧ ∀ v ∈ attempts n m l, v < 2 ^ 41 := by
  induction n generalizing l with
  | zero => simp [attempts]
  | succ n ih =>
    refine ⟨by simp [attempts, (ih _).1], fun v hv => ?_⟩
    rcases List.mem_cons.1 hv with rfl | h
    · refine Nat.lt_of_le_of_lt (Nat.mod_le _ _) (Nat.lt_of_lt_of_le (ofBytes_lt _) ?_)
      exact Nat.le_trans (Nat.pow_le_pow_right (by decide) (show (l.take 5).length ≤ 5 by rw [List.length_take]; omega)) (by decide)
    · exact (ih _).2 v h
/-- A modulus that no attempt reaches takes every attempt. -/
theorem expandUniform_some (k : KeyHeader) (dg j n need : Nat) (h : need ≤ 3 * 2 ^ n) :
    (expandUniform k dg j n (2 ^ 41) need).isSome = true := by
  unfold expandUniform
  simp only
  rw [List.filter_eq_self.2 (fun v hv => decide_eq_true ((attempts_lt _ _ _).2 v hv)), (attempts_lt _ _ _).1, if_neg (by omega)]
  rfl
/-- The chain above, with an entry that no attempt reaches. -/
def landing : State := { chained with img := { image := some { m := 8, psets := [{ smallSet with primes := [{ q := 2 ^ 41 }] }] } } }
theorem witness_chainEnd : (landing.cache 0).chains.findIdx? (fun x => x.running && x.slot == 7 && x.users.contains 3) = some 0 ∧
    openBlock (descr 4) (landing.run 3 7) = some 0 := by decide +kernel
theorem witness_chainLimb : (landing.chainLimb 3 (descr 4) (landing.run 3 7) entry10 0).isSome = true := by
  have h : landing.chunkPrime 3 (descr 4) entry10 0 = 2 ^ 41 ∧ sdLogN (descr 4) = 12 ∧ landing.dieNeed 3 (descr 4) ≤ 3 * 2 ^ 12 := by decide +kernel
  rw [State.chainLimb, h.1, h.2.1]
  exact expandUniform_some _ _ _ _ _ h.2.2
theorem test_chains : let u := run (.badgerChainStart 3 7) unchained
    (u.run 3 7).blocks.map (fun b => (b.chain, b.chainsOn)) = [(1, 1)] ∧ (u.cache 0).chains.map (fun c => (c.badger, c.users)) = [(0, [3])] ∧
    ((run (.badgerChainStart 4 7) joining).cache 0).chains.map (fun c => c.users) = [[3, 4]] := by decide +kernel
theorem test_chainEnds : ((run (.badgerChainEnd 3 7 true) chained).slot 3 7).errCode = cBadgerFault := by decide +kernel

/-! ### The block -/

theorem witness_step : mem3.pending = [] ∧ step { mem3 with pending := [.stackRead 0 0 ⟨0, true, 0⟩] } = exec (.stackRead 0 0 ⟨0, true, 0⟩) { mem3 with pending := [] } ∧
    (after (step { mem3 with pending := [.stackRead 0 0 ⟨0, true, 0⟩, .fatalClear] })).pending.length = 1 := ⟨rfl, rfl, by decide +kernel⟩
theorem witness_tick : mem3.pending = [] ∧ mem3.fw.activation = none ∧ mem3.fw.writing = none ∧ mem3.img.loading = none ∧ mem3.img.writing = none ∧
    mem3.sec.wiping = false := by decide +kernel
theorem test_tick : (after (step mem3)).now = 1 := by decide +kernel
theorem witness_withdrawn : 0x200000 < Config.stackTop ∧ stackOff 0x200000 < Config.stackBytes ∧ mem3.isWithdrawn (unitKey 0x200000) = true := by
  decide +kernel
theorem test_withdrawnUnit : (run (.stackWrite 0x200000 [1#8] 0) mem3).mem = mem3.mem ∧
    (run (.atomic 4 0x200000 0 0 [1#64]) mem3).host.readData = [cAddressWithdrawn] := by decide +kernel
theorem witness_canonical : mem3.canonical = true ∧ State.reset.canonical = true ∧
    (after (step { mem3 with pending := [.stackWrite 0 [0#8] 0] })).canonical = true := by decide +kernel

/-! ### Worked examples of the manual -/

/-- One reduction: q = 2^35 + 2^18 + 1, the product of q − 1 by itself. -/
theorem test_reduction : muOf 34360000513 = 2199006478399 ∧
    reduce (34360000512 * 34360000512) 34360000513 2199006478399 = 1 := by decide +kernel
/-- Table 2-7. -/
theorem test_galois : [(0, false), (1, false), (2, false), (8, false), (32767, false), (32768, false), (0, true), (1, true)].map
    (fun r => galoisOf 16 r.1 r.2) = [1, 5, 25, 128481, 52429, 1, 131071, 131067] := by decide +kernel
/-- The toy ring: the rotation by one in both domains. -/
theorem test_toyRing : automorphCoeff 17 2 5 [1, 2, 3, 4] = [1, 15, 3, 13] ∧ automorphEval 2 5 [15, 11, 13, 16] = [11, 15, 16, 13] := by
  decide +kernel
/-- Table 3-9: the bounds of a multiplication, a relinearisation and a rescaling, and the addition after the drop. -/
theorem test_noiseExample : ladd (ladd 12288 12288) 6144 = 12545 ∧ ladd 12545 3584 = 12546 ∧ ladd (lsub 12546 8960) 3072 = 3669 ∧
    ladd 3669 3072 = 3740 := by decide +kernel
/-- Table 14-3: the duties from step 64 down to step 60. -/
theorem test_capExample : [1200, 1181, 1162, 1143, 1125].map (fun d => capDuty 360 d 1500) = [4, 3, 2, 1, 0] := by decide +kernel
/-- Table 9-9: A and B, then C past the end once A is taken, then no room for D. -/
theorem test_ringExample : place { used := 3024, wp := 3024 } 8192 3024 false = some (3024, 0) ∧
    place { rp := 3024, wp := 6048, used := 3024 } 8192 3024 false = some (0, 2144) ∧
    place { rp := 3024, wp := 3024, used := 8192 } 8192 3024 false = none := by decide +kernel

/-! ### Ill-formed commands -/

/-- A command that `wf` refuses faults as ill-formed. -/
def refused (c : Instr) : Bool :=
  !c.wf && match exec c base with
    | .fault f => f == .illFormed
    | _ => false

theorem smoke_glahus : [.nop 8 {}, .ladd 0 { f0 := 256 }, .cadd 0 { f1 := 256 }, .lmul 0 { f2 := 256 }, .rot 0 { pset := 16 }, .mmul 0 { param := 16 },
    .drop 0 { imm8 := 256 }, .laut 0 { imm64 := 2 ^ 64 }, .ldl 0 { rx := 2 ^ 64 }, .stl 0 { ry := 2 ^ 64 }].all refused = true := by decide +kernel
theorem smoke_sequencer : [.operate ⟨8, .ok⟩, .nopWord ⟨8, .ok⟩, .start 8 0 0 false, .start 0 64 0 false, .start 0 0 (2 ^ 24) false, .loadGo 8 0 0 false, .loadGo 0 (2 ^ 15) 0 false,
    .loadGo 0 0 (2 ^ 16) false, .ktabWrite 8 0 0#64, .ktabWrite 0 64 0#64, .parameterRegisterWrite 8 0 0#64, .parameterRegisterWrite 0 16 0#64,
    .counterStackCountWrite 12 .whole 0#64, .counterCacheStatusWrite 2 .whole 0#64, .counterPortCountWrite 8 .whole 0#64].all refused = true := by
  decide +kernel
theorem smoke_registers : [.registerWrite 10 0 8 0#64 .plain, .registerWrite 0 (2 ^ 41) 8 0#64 .plain, .registerRead 0 0 65 .plain].all refused = true := by
  decide +kernel
theorem smoke_streams : [.streamArm 64 0, .streamGo 0 24, .slotWrite 64 0 0 0#64, .slotWrite 0 0 8 0#64, .fetchStatusRead 64, .noiseRequestGo ⟨8, false⟩,
    .noiseRequestDone 8].all refused = true := by decide +kernel
theorem smoke_memory : [.stackRead (2 ^ 64) 0 {}, .stackRead 0 145 {}, .stackRead 0 0 { err := 3 }, .stackWrite (2 ^ 64) [] 0, .stackWrite 0 [] 145,
    .stackWrite 127 [1#8, 2#8] 0, .correctedWriteback Config.stackTop, .atomic 1 (2 ^ 64) 0 0 [],
    .dirtyWriteback Config.stackTop, .patrolScrub 12 0, .patrolScrub 0 145, .rowSparing 12 0 0 [], .rowSparing 0 64 0 [],
    .rowSparing 0 0 Config.unitsPerStack [], .pcRetirement 12 ⟨0, .parity⟩, .pcRetirement 0 ⟨64, .parity⟩, .migration 12 ⟨0, false, []⟩,
    .migration 0 ⟨49153, false, []⟩, .withdrawal 12 0,
    .withdrawal 0 Config.unitsPerStack, .stackLoss 12].all refused = true := by decide +kernel
theorem smoke_messages : [.send 8 0 0 {}, .recv 0 68 0 {}, .close 0 0 256 {}, .openQueue 0 0 0 { index := 16 }, .clrf 0 0 0 { flag := 32 },
    .send 0 0 0 { row := 2 ^ 16 }, .send 0 0 0 { len := 2 ^ 14 }, .send 0 0 0 { doneQ := 16 }, .send 0 0 0 { reserved := 2 ^ 80 }, .send 0 0 0 { badCmd := some 3 }, .heldCommandResume 8 0 0 true,
    .heldCommandResume 0 68 0 true, .heldCommandResume 0 0 16 true, .recordArrival 8 0, .recordArrival 0 1088, .spillDrain 8 0 0, .spillDrain 0 68 0,
    .spillDrain 0 0 16, .qreset 8 0 0, .qreset 0 256 0, .qreset 0 0 16, .flagSet 8 0, .flagSet 0 (2 ^ 32), .ledgerCheck 8 false, .snap ⟨8, true, .plain⟩,
    .dump ⟨8, true, .plain⟩].all refused = true := by decide +kernel
theorem smoke_images : [.load 4 [] .whole, .teardown ⟨8, true⟩, .nvWrite 4 [] .ok, .invalidate 4,
    .ownerChangeScrubDone [12 * Config.unitsPerStack] {}].all refused = true := by decide +kernel
theorem smoke_fabric : [.flitReceive 8 (List.replicate 240 0#8) (List.replicate 16 0#8), .flitReceive 0 (List.replicate 239 0#8) (List.replicate 16 0#8), .flitReceive 0 (List.replicate 240 0#8) (List.replicate 17 0#8), .portTraining 8 {}, .retrain 0 { peerAddr := 2 ^ 16 }, .trainingRetry 0 { laneTest := [] }, .laneFailure 8 0,
    .laneFailure 0 8, .advert 8 0, .advert 0 (2 ^ 32), .landingAcknowledgement (2 ^ 16) 0 0, .landingAcknowledgement 0 2 0,
    .landingAcknowledgement 0 0 (2 ^ 24), .landingAckSend 0 2, .collSendUp 64].all refused = true := by decide +kernel
theorem smoke_packets : [{ type := 16 }, { vc := 4 }, { units := 16, body := List.replicate 256 0#8 }, { dest := 2 ^ 16 }, { src := 2 ^ 16 },
    { pseq := 2 ^ 24 }, { coll := 256 }, { inst := 256 }, { offset := 2 ^ 32 }, { part := 8 }, { units := 1 }].all
    (fun (x : Packet) => refused (.dataArrival x)) = true := by decide +kernel
theorem smoke_jobs : [.ceiling (2 ^ 16) 0 0, .ceiling 0 (2 ^ 64) 0, .ceiling 0 0 256, .epoch (2 ^ 64) 0 0, .epoch 0 (2 ^ 32) 0, .epoch 0 0 256,
    .abort (2 ^ 16) 0 0 0 0 0, .abort 0 (2 ^ 64) 0 0 0 0, .abort 0 0 256 0 0 0, .abort 0 0 0 256 0 0, .abort 0 0 0 0 (2 ^ 16) 0, .abort 0 0 0 0 0 (2 ^ 16),
    .join (2 ^ 16) 0 0 0, .join 0 (2 ^ 64) 0 0, .join 0 0 256 0, .join 0 0 0 (2 ^ 16), .joinResult (2 ^ 64) 0, .joinResult 0 (2 ^ 16),
    .leave (2 ^ 16) 0 0, .leave 0 (2 ^ 64) 0, .leave 0 0 (2 ^ 16)].all refused = true := by decide +kernel
theorem smoke_host : [.sqTail 9 0 0 .plain, .sqTail 0 8 0 .plain, .sqTail 0 0 (2 ^ 16) .plain, .qcfgWrite 0 8 0#64 .plain, .winBaseWrite 9 0#64 .plain,
    .descriptorFetch 9 0 none, .nopDescriptor 9 0, .run 0 8, .bar2Read 9 0 0 .plain, .bar2Read 0 (2 ^ 41) 0 .plain, .bar2Read 0 0 4097 .plain,
    .bar2Write 0 0 (List.replicate 4097 0#8) .plain, .linkRetrain 8 1, .linkRetrain 1 32, .vfFunctionLevelReset 9,
    .configurationAccess (.bar2Size 9 0), .configurationAccess (.bar2Size 0 64), .configurationAccess (.numVfs 9)].all refused = true := by decide +kernel
theorem smoke_config : [.powerState 9 true, .maxPayload 9 0, .maxPayload 0 3, .maxRead 9 0, .maxRead 0 6, .msixVector 9 0 0 0 false, .msixVector 0 16 0 0 false,
    .msixVector 0 0 (2 ^ 64) 0 false, .msixVector 0 0 0 (2 ^ 32) false, .aerMask 9 0, .aerMask 0 (2 ^ 64), .hdmDecoder (some (2 ^ 64)), .readId 9].all
    (fun (x : CfgAccess) => refused (.configurationAccess x)) = true := by decide +kernel
theorem smoke_management : [.setEndpointId 256, .pldmBase 256, .pldmMonitoringAndControl true (2 ^ 16),
    .pldmFirmwareUpdate { micro := { version := 2 ^ 32 } } .ok, .pldmFirmwareUpdate { micro := { sigR := 2 ^ 384 } } .ok,
    .pldmFirmwareUpdate { micro := { sigS := 2 ^ 384 } } .ok, .regRead (2 ^ 32), .regWrite (2 ^ 32) 0#64, .negotiateAlgorithms true { version := 256 },
    .getCertificate true 256 0 0, .getCertificate true 0 (2 ^ 16) 0, .getCertificate true 0 0 (2 ^ 16), .challenge {} 256 0, .challenge {} 0 (2 ^ 256),
    .getMeasurements {} 256 0, .getMeasurements {} 0 (2 ^ 256), .keyExchange {} 256, .heartbeat true 4, .heartbeatTimeout true 4, .keyUpdate true 4,
    .ideKm 4 0 {}, .ideKm 0 9 {}, .ideKm 0 0 { key := 2 ^ 256 }, .lockInterfaceRequest 4 0, .lockInterfaceRequest 0 9, .startInterfaceRequest 4 0,
    .stopInterfaceRequest 0 9, .finish true 4, .endSession true 4].all refused = true := by decide +kernel
theorem smoke_engine : [.gen { slot := 64 }, .gen { curve := 4 }, .gen { rsaLen := 4 }, .gen { reserved := 2 ^ 49 }, .entropySample 256].all refused = true := by
  decide +kernel
theorem smoke_power : [.bankSleepWrite 64 0#64, .bankPowerOff 64 0, .bankPowerOff 0 24, .powerSample 65535 1 0, .powerSample 0 0 (2 ^ 16), .capRecompute 65535 1,
    .thermalStep 2 hotDie, .thermalStep 0 { hotDie with die := 32768 }, .thermalStep 0 { hotDie with stks := [] },
    .thermalStep 0 { hotDie with stks := [0, 0, 0, 0, 0, -32769] }, .trip false 2 0, .trip true 12 0, .trip true 0 (-32769), .trip true 0 32768,
    .ageingTrim ⟨2, false⟩].all refused = true := by decide +kernel
theorem smoke_resets : [.coldStart { failLines := [Config.stackTop] }, .coldStart { softLines := [Config.stackTop] }, .coldStart { samples := [] },
    .change ⟨true, []⟩, .scrub ⟨true, List.replicate 1024 256⟩, .ownerChange ⟨true, []⟩, .ownerScrub ⟨true, List.replicate 1025 0⟩, .watchdogExpiry 4 {}, .coreRestartDone 4, .logicBist (2 ^ 16), .bistDone [(2, 0)] [],
    .bistDone [(0, 2 ^ 64)] [], .bistDone [] [⟨12 * Config.unitsPerStack, 0, false⟩], .bistDone [] [⟨0, 2 ^ 64, false⟩], .trippedResetRelease [] (List.replicate 12 0) {},
    .trippedResetRelease [0, 0] [] {}, .trippedResetRelease [0, 32768] (List.replicate 12 0) {},
    .trippedResetRelease [0, 0] (List.replicate 12 (-32769)) {}].all refused = true := by decide +kernel
end Sys2Proof.Tests
end

section
/-! What the state after reset holds, component by component. -/

namespace Sys2Proof.Machine

@[simp] theorem State.reset_pending : State.reset.pending = [] := rfl
@[simp] theorem State.reset_mem : State.reset.mem = [] := rfl
@[simp] theorem State.reset_poison : State.reset.poison = [] := rfl
@[simp] theorem State.reset_withdrawn : State.reset.withdrawn = [] := rfl
@[simp] theorem State.reset_pwr : State.reset.pwr = {} := rfl
@[simp] theorem State.reset_ras : State.reset.ras = {} := rfl
@[simp] theorem State.reset_host : State.reset.host = {} := rfl
@[simp] theorem State.reset_fab : State.reset.fab = {} := rfl
@[simp] theorem State.reset_progressLimit : State.reset.progressLimit = 10000 := rfl

@[simp] theorem State.reset_part (p : Nat) : State.reset.part p = {} := smGet_nil _ p
@[simp] theorem State.reset_port (n : Nat) : State.reset.port n = {} := smGet_nil _ n
@[simp] theorem State.reset_fn (n : Nat) : State.reset.fn n = {} := smGet_nil _ n
@[simp] theorem State.reset_qp (n q : Nat) : State.reset.qp n q = {} := by
  simp [State.qp, smGet_nil]
@[simp] theorem State.reset_isWithdrawn (k : Nat) : State.reset.isWithdrawn k = false := smGet_nil _ k
@[simp] theorem State.reset_isUp (p : Nat) : State.reset.isUp p = false := by
  simp [State.isUp]

/-- A memory that lists no byte reads as zero everywhere (R395). -/
@[simp] theorem memByte_nil (a : Nat) : memByte [] a = 0#8 := smGet_nil _ a

/-- A map that lists nothing is canonical. -/
@[simp] theorem smWf_nil {α : Type} [DecidableEq α] (d : α) : smWf d ([] : SMap α) = true := rfl

theorem State.reset_canonical : State.reset.canonical = true := by
  simp [State.canonical]

/-- Settles O5: every map is empty after reset, so each component reads as its default, whose fields are the reset values. -/
theorem afterReset : Obligations.AfterReset := by
  unfold Obligations.AfterReset
  refine ⟨State.reset_pending, State.reset_canonical, ?memory, State.reset_isWithdrawn, State.reset_isUp, ?power,
    State.reset_progressLimit, ?ports, ?host, ?cause, ?collectives, ?queues⟩ <;> simp

end Sys2Proof.Machine
end

section
/-! Counter writes (R427): what a 64-bit write and a 32-bit write of either half do to one field, then to the fields of
STACK_COUNT_k, CACHE_STATUS_d and PORT_COUNT_n. -/

namespace Sys2Proof.Machine

theorem bits_eq_div_mod (n hi lo : Nat) : bits n hi lo = n / 2 ^ lo % 2 ^ (hi + 1 - lo) := by
  rw [bits, Nat.shiftRight_eq_div_pow]

/-! ### The bits of the fields, in the word and in its halves -/

theorem bits_31_0 (n : Nat) : bits n 31 0 = n % 2 ^ 32 := by
  simp [bits_eq_div_mod]

theorem bits_47_32 (n : Nat) : bits n 47 32 = n / 2 ^ 32 % 2 ^ 16 := bits_eq_div_mod ..

theorem bits_63_48_toNat (v : Word) : bits v.toNat 63 48 = v.toNat / 2 ^ 48 := by
  have hv := v.isLt
  rw [bits_eq_div_mod]
  omega

theorem bits_47_32_high (n : Nat) : bits (n % 2 ^ 32 * 2 ^ 32) 47 32 = n % 2 ^ 16 := by
  rw [bits_eq_div_mod]
  omega

theorem bits_63_48_high (n : Nat) : bits (n % 2 ^ 32 * 2 ^ 32) 63 48 = n / 2 ^ 16 % 2 ^ 16 := by
  rw [bits_eq_div_mod]
  omega

/-! ### One field -/

section
variable (v : Word) {hi lo : Nat} (old : Nat)

/-- A 64-bit write covers every field. -/
theorem counter_whole : (partLane .whole v).counter hi lo old = if bits v.toNat hi lo = 0 then 0 else old := by
  simp [Lane.counter, partLane]

/-- A 32-bit write of the low half covers a field of the low half, whose bits stand in the word written. -/
theorem counter_low_covered (h : lo < 32) :
    (partLane .low v).counter hi lo old = if bits (v.toNat % 2 ^ 32) hi lo = 0 then 0 else old := by
  simp [Lane.counter, partLane, h]

/-- A 32-bit write of the low half leaves a field of the high half. -/
theorem counter_low_uncovered (h : 32 ≤ lo) : (partLane .low v).counter hi lo old = old := by
  simp [Lane.counter, partLane, Nat.not_lt.mpr h]

/-- A 32-bit write of the high half covers a field of the high half, whose bits stand 32 lower in the word written. -/
theorem counter_high_covered (h : 32 ≤ lo) :
    (partLane .high v).counter hi lo old = if bits (v.toNat % 2 ^ 32 * 2 ^ 32) hi lo = 0 then 0 else old := by
  simp [Lane.counter, partLane, Nat.not_lt.mpr h]

/-- A 32-bit write of the high half leaves a field of the low half. -/
theorem counter_high_uncovered (h : lo < 32) : (partLane .high v).counter hi lo old = old := by
  simp [Lane.counter, partLane, h]

end

/-! ### The registers -/

section
variable (s : State) (v : Word)

theorem writeStackCount_whole (k : Nat) : s.writeStackCount k (partLane .whole v) = s.modStk k fun x => { x with
    corrected := if v.toNat % 2 ^ 32 = 0 then 0 else x.corrected
    uncorrectable := if v.toNat / 2 ^ 32 % 2 ^ 16 = 0 then 0 else x.uncorrectable
    spared := if v.toNat / 2 ^ 48 = 0 then 0 else x.spared } := by
  simp only [State.writeStackCount, counter_whole, bits_31_0, bits_47_32, bits_63_48_toNat]

theorem writeStackCount_low (k : Nat) : s.writeStackCount k (partLane .low v) = s.modStk k fun x => { x with
    corrected := if v.toNat % 2 ^ 32 = 0 then 0 else x.corrected } := by
  simp (disch := omega) only [State.writeStackCount, counter_low_covered, counter_low_uncovered, bits_31_0, Nat.mod_mod]

theorem writeStackCount_high (k : Nat) : s.writeStackCount k (partLane .high v) = s.modStk k fun x => { x with
    uncorrectable := if v.toNat % 2 ^ 16 = 0 then 0 else x.uncorrectable
    spared := if v.toNat / 2 ^ 16 % 2 ^ 16 = 0 then 0 else x.spared } := by
  simp (disch := omega) only [State.writeStackCount, counter_high_covered, counter_high_uncovered, bits_47_32_high, bits_63_48_high]

theorem writeCacheStatus_whole (d : Nat) : s.writeCacheStatus d (partLane .whole v) = s.modCache d fun x => { x with
    corrected := if v.toNat % 2 ^ 32 = 0 then 0 else x.corrected
    uncorrectable := if v.toNat / 2 ^ 32 % 2 ^ 16 = 0 then 0 else x.uncorrectable } := by
  simp only [State.writeCacheStatus, counter_whole, bits_31_0, bits_47_32]

theorem writeCacheStatus_low (d : Nat) : s.writeCacheStatus d (partLane .low v) = s.modCache d fun x => { x with
    corrected := if v.toNat % 2 ^ 32 = 0 then 0 else x.corrected } := by
  simp (disch := omega) only [State.writeCacheStatus, counter_low_covered, counter_low_uncovered, bits_31_0, Nat.mod_mod]

theorem writeCacheStatus_high (d : Nat) : s.writeCacheStatus d (partLane .high v) = s.modCache d fun x => { x with
    uncorrectable := if v.toNat % 2 ^ 16 = 0 then 0 else x.uncorrectable } := by
  simp (disch := omega) only [State.writeCacheStatus, counter_high_covered, counter_high_uncovered, bits_47_32_high]

theorem writePortCount_whole (n : Nat) : s.writePortCount n (partLane .whole v) = s.modPort n fun x => { x with
    fecCorrected := if v.toNat % 2 ^ 32 = 0 then 0 else x.fecCorrected
    replays := if v.toNat / 2 ^ 32 % 2 ^ 16 = 0 then 0 else x.replays
    uncorrectable := if v.toNat / 2 ^ 48 = 0 then 0 else x.uncorrectable } := by
  simp only [State.writePortCount, counter_whole, bits_31_0, bits_47_32, bits_63_48_toNat]

theorem writePortCount_low (n : Nat) : s.writePortCount n (partLane .low v) = s.modPort n fun x => { x with
    fecCorrected := if v.toNat % 2 ^ 32 = 0 then 0 else x.fecCorrected } := by
  simp (disch := omega) only [State.writePortCount, counter_low_covered, counter_low_uncovered, bits_31_0, Nat.mod_mod]

theorem writePortCount_high (n : Nat) : s.writePortCount n (partLane .high v) = s.modPort n fun x => { x with
    replays := if v.toNat % 2 ^ 16 = 0 then 0 else x.replays
    uncorrectable := if v.toNat / 2 ^ 16 % 2 ^ 16 = 0 then 0 else x.uncorrectable } := by
  simp (disch := omega) only [State.writePortCount, counter_high_covered, counter_high_uncovered, bits_47_32_high, bits_63_48_high]

end

/-! ### The commands -/

section
variable (s : State) (part : RegPart) (v : Word)

theorem exec_counterStackCountWrite {k : Nat} (h : k < 12) :
    exec (.counterStackCountWrite k part v) s = .next (s.wake.writeStackCount k (partLane part v)) :=
  guarded_next (decide_eq_true h)

theorem exec_counterCacheStatusWrite {d : Nat} (h : d < 2) :
    exec (.counterCacheStatusWrite d part v) s = .next (s.wake.writeCacheStatus d (partLane part v)) :=
  guarded_next (decide_eq_true h)

theorem exec_counterPortCountWrite {n : Nat} (h : n < 8) :
    exec (.counterPortCountWrite n part v) s = .next (s.wake.writePortCount n (partLane part v)) :=
  guarded_next (decide_eq_true h)

end

/-- Settles O49: each command wakes the module (R371) and writes its register, and the register laws give the fields. -/
theorem counterWrites : Obligations.CounterWrites := by
  unfold Obligations.CounterWrites
  intro s v
  refine ⟨fun k hk => ?stack, fun d hd => ?cache, fun n hn => ?port⟩
  case stack =>
    simp only [exec_counterStackCountWrite _ _ _ hk]
    exact ⟨congrArg _ (writeStackCount_whole ..), congrArg _ (writeStackCount_low ..), congrArg _ (writeStackCount_high ..)⟩
  case cache =>
    simp only [exec_counterCacheStatusWrite _ _ _ hd]
    exact ⟨congrArg _ (writeCacheStatus_whole ..), congrArg _ (writeCacheStatus_low ..), congrArg _ (writeCacheStatus_high ..)⟩
  case port =>
    simp only [exec_counterPortCountWrite _ _ _ hn]
    exact ⟨congrArg _ (writePortCount_whole ..), congrArg _ (writePortCount_low ..), congrArg _ (writePortCount_high ..)⟩

end Sys2Proof.Machine
end

section
/-! Residue arithmetic: the reciprocal reduction, folding and the primitive operations give canonical residues (R28, R32, R34,
Table 2-3). Each is a value below a small multiple of q, brought below q by conditional subtractions. -/

namespace Sys2Proof.Machine

/-! ### Conditional subtraction -/

/-- A value below m + b comes below b, which is at least m. -/
theorem condSub_lt {v m b : Nat} (hv : v < m + b) (hm : m ≤ b) : condSub v m < b := by
  unfold condSub
  split <;> omega

/-- A value below twice m comes below m. -/
theorem condSub_lt_self {v m : Nat} (hv : v < 2 * m) : condSub v m < m := condSub_lt (by omega) (Nat.le_refl m)

/-- Subtracting a multiple of q keeps the residue. -/
theorem sub_mul_mod {x q t : Nat} (h : t * q ≤ x) : (x - t * q) % q = x % q := by
  rw [Nat.mul_comm] at h ⊢
  exact Nat.sub_mul_mod h

theorem condSub_mul_mod (v t q : Nat) : condSub v (t * q) % q = v % q := by
  unfold condSub
  split
  case isTrue h => exact sub_mul_mod h
  case isFalse => rfl

theorem condSub_mod (v q : Nat) : condSub v q % q = v % q := by
  have h := condSub_mul_mod v 1 q
  rwa [Nat.one_mul] at h

theorem condSub_eq_mod {v q : Nat} (hv : v < 2 * q) : condSub v q = v % q := by
  rw [← condSub_mod v q, Nat.mod_eq_of_lt (condSub_lt_self hv)]

theorem fold_eq_mod {v q : Nat} (hv : v < 32 * q) : fold v q = v % q := by
  have h16 : condSub v (16 * q) < 16 * q := condSub_lt_self (by omega)
  have h8 : condSub (condSub v (16 * q)) (8 * q) < 8 * q := condSub_lt_self (by omega)
  have h4 : condSub (condSub (condSub v (16 * q)) (8 * q)) (4 * q) < 4 * q := condSub_lt_self (by omega)
  have h2 : condSub (condSub (condSub (condSub v (16 * q)) (8 * q)) (4 * q)) (2 * q) < 2 * q := condSub_lt_self (by omega)
  rw [fold, condSub_eq_mod h2, condSub_mul_mod, condSub_mul_mod, condSub_mul_mod, condSub_mul_mod]

/-! ### Estimated quotients -/

/-- The difference modulo 2^64 is the difference, where that fits 64 bits. -/
theorem wrappedSub_eq {x y : Nat} (hyx : y ≤ x) (hfit : x - y < 2 ^ 64) :
    (x % 2 ^ 64 + 2 ^ 64 - y % 2 ^ 64) % 2 ^ 64 = x - y := by
  omega

/-- A quotient estimated as y·m / d, times q, is at most the scaled product that m·q stands for. -/
theorem estimate_mul_le (y m d q : Nat) : y * m / d * q * d ≤ y * (m * q) :=
  calc y * m / d * q * d = y * m / d * d * q := Nat.mul_right_comm ..
    _ ≤ y * m * q := Nat.mul_le_mul_right q (Nat.div_mul_le_self ..)
    _ = y * (m * q) := Nat.mul_assoc ..

/-- Rounding the estimated quotient down costs at most one q. -/
theorem le_estimate_mul (y m q : Nat) {d : Nat} (hd : 0 < d) : y * (m * q) ≤ y * m / d * q * d + q * d :=
  calc y * (m * q) = y * m * q := (Nat.mul_assoc ..).symm
    _ ≤ (y * m / d * d + d) * q := Nat.mul_le_mul_right q (Nat.le_of_lt (Nat.lt_div_mul_add hd))
    _ = y * m / d * q * d + q * d := by rw [Nat.add_mul, Nat.mul_right_comm, Nat.mul_comm d q]

/-- The quotient estimated by the reciprocal is never above x / q (R32). -/
theorem reciprocalQuotient_le (x q : Nat) : x / 2 ^ 31 * muOf q / 2 ^ 45 * q ≤ x := by
  have hmu : muOf q * q ≤ 2 ^ 76 := Nat.div_mul_le_self ..
  have hest := estimate_mul_le (x / 2 ^ 31) (muOf q) (2 ^ 45) q
  have hscaled := Nat.mul_le_mul_left (x / 2 ^ 31) hmu
  generalize x / 2 ^ 31 * muOf q / 2 ^ 45 * q = t at hest ⊢
  generalize x / 2 ^ 31 * (muOf q * q) = z at hest hscaled
  omega

/-- The quotient estimated by the reciprocal is at most 2 short: each of the two shifts and the reciprocal's own rounding takes less
than one q from the remainder (R32). -/
theorem lt_reciprocalQuotient {x q : Nat} (hq : 2 ^ 31 < q) (hx : x < 2 ^ 76) :
    x < x / 2 ^ 31 * muOf q / 2 ^ 45 * q + 3 * q := by
  have hmu : 2 ^ 76 ≤ muOf q * q + q := Nat.le_of_lt (Nat.lt_div_mul_add (by omega))
  have hest := le_estimate_mul (x / 2 ^ 31) (muOf q) q (Nat.two_pow_pos 45)
  have hscaled := Nat.mul_le_mul_left (x / 2 ^ 31) hmu
  rw [Nat.mul_add] at hscaled
  have hrounding : x / 2 ^ 31 * q ≤ 2 ^ 45 * q := Nat.mul_le_mul_right q (by omega)
  generalize x / 2 ^ 31 * muOf q / 2 ^ 45 * q = t at hest ⊢
  generalize x / 2 ^ 31 * (muOf q * q) = z at hest hscaled
  generalize x / 2 ^ 31 * q = r at hscaled hrounding
  omega

theorem reduce_eq_mod {q x : Nat} (hq : 2 ^ 31 < q) (hq' : q < 2 ^ 36) (hx : x < 2 ^ 76) : reduce x q (muOf q) = x % q := by
  have hle := reciprocalQuotient_le x q
  have hlt := lt_reciprocalQuotient hq hx
  simp only [reduce, Nat.shiftRight_eq_div_pow]
  generalize x / 2 ^ 31 * muOf q / 2 ^ 45 = t at hle hlt ⊢
  have hrem : condSub (x - t * q) q < 2 * q := condSub_lt (by omega) (by omega)
  rw [wrappedSub_eq hle (by omega), condSub_eq_mod hrem, condSub_mod, sub_mul_mod hle]

theorem shoupCompanion_eq_div (w q : Nat) : shoupCompanion w q = w * 2 ^ 36 / q := by
  rw [shoupCompanion, Nat.shiftLeft_eq]

/-- The quotient estimated by the companion is never above a·w / q (R34). -/
theorem shoupQuotient_le (a w q : Nat) : a * shoupCompanion w q / 2 ^ 36 * q ≤ a * w := by
  have hcomp : shoupCompanion w q * q ≤ w * 2 ^ 36 := by
    rw [shoupCompanion_eq_div]
    exact Nat.div_mul_le_self ..
  have hest := estimate_mul_le a (shoupCompanion w q) (2 ^ 36) q
  have hscaled := Nat.mul_le_mul_left a hcomp
  rw [← Nat.mul_assoc a w] at hscaled
  exact Nat.le_of_mul_le_mul_right (Nat.le_trans hest hscaled) (Nat.two_pow_pos 36)

/-- The quotient estimated by the companion is at most 1 short for a 36-bit operand (R34). -/
theorem lt_shoupQuotient {a q : Nat} (w : Nat) (hq : 0 < q) (ha : a < 2 ^ 36) :
    a * w < a * shoupCompanion w q / 2 ^ 36 * q + 2 * q := by
  have hcomp : w * 2 ^ 36 ≤ shoupCompanion w q * q + q := by
    rw [shoupCompanion_eq_div]
    exact Nat.le_of_lt (Nat.lt_div_mul_add hq)
  have hest := le_estimate_mul a (shoupCompanion w q) q (Nat.two_pow_pos 36)
  have hscaled := Nat.mul_le_mul_left a hcomp
  rw [← Nat.mul_assoc a w, Nat.mul_add] at hscaled
  have hrounding : a * q < 2 ^ 36 * q := Nat.mul_lt_mul_of_pos_right ha hq
  generalize a * shoupCompanion w q / 2 ^ 36 * q = t at hest ⊢
  generalize a * (shoupCompanion w q * q) = z at hest hscaled
  generalize a * q = r at hscaled hrounding
  generalize a * w = y at hscaled ⊢
  omega

/-! ### The primitive operations -/

theorem addM_eq_mod {q a b : Nat} (ha : a < q) (hb : b < q) : addM q a b = (a + b) % q := condSub_eq_mod (by omega)

theorem subM_eq_mod {q a b : Nat} (ha : a < q) (hb : b < q) : subM q a b = (a + q - b) % q := by
  unfold subM
  split
  case isTrue h => rw [Nat.sub_add_comm h, Nat.add_mod_right, Nat.mod_eq_of_lt (by omega)]
  case isFalse => rw [Nat.mod_eq_of_lt (by omega)]

theorem negM_eq_mod {q a : Nat} (ha : a < q) : negM q a = (q - a) % q := by
  unfold negM
  split
  case isTrue h => rw [h, Nat.sub_zero, Nat.mod_self]
  case isFalse => rw [Nat.mod_eq_of_lt (by omega)]

/-- The product of two residues and a third residue fit the range of the reduction. -/
theorem mul_add_lt_reduceRange {q a b c : Nat} (hq : q < 2 ^ 36) (ha : a < q) (hb : b < q) (hc : c < q) :
    a * b + c < 2 ^ 76 := by
  have hab : a * b ≤ 2 ^ 36 * 2 ^ 36 := Nat.mul_le_mul (by omega) (by omega)
  omega

theorem mulAddM_eq_mod {q a b c : Nat} (hq : 2 ^ 31 < q) (hq' : q < 2 ^ 36) (ha : a < q) (hb : b < q) (hc : c < q) :
    mulAddM q a b c = (a * b + c) % q :=
  reduce_eq_mod hq hq' (mul_add_lt_reduceRange hq' ha hb hc)

theorem mulM_eq_mod {q a b : Nat} (hq : 2 ^ 31 < q) (hq' : q < 2 ^ 36) (ha : a < q) (hb : b < q) : mulM q a b = a * b % q :=
  reduce_eq_mod hq hq' (Nat.lt_of_le_of_lt (Nat.le_add_right _ a) (mul_add_lt_reduceRange hq' ha hb ha))

/-- Multiplication in Shoup form takes any 36-bit operand and any constant (R34). -/
theorem mulConstM_eq_mod {q a : Nat} (w : Nat) (hq : 0 < q) (hq' : q < 2 ^ 36) (ha : a < 2 ^ 36) :
    mulConstM q a w = a * w % q := by
  have hle := shoupQuotient_le a w q
  have hlt := lt_shoupQuotient w hq ha
  simp only [mulConstM, mulShoup, Nat.shiftRight_eq_div_pow]
  generalize a * shoupCompanion w q / 2 ^ 36 = t at hle hlt ⊢
  rw [wrappedSub_eq hle (by omega), condSub_eq_mod (by omega), sub_mul_mod hle]

/-- Settles O6: the estimated quotient is at most 2 short, which the two conditional subtractions make good. -/
theorem reductionIsExact : Obligations.ReductionIsExact := by
  unfold Obligations.ReductionIsExact
  exact fun q x hq hq' hx => reduce_eq_mod hq hq' hx

/-- Settles O7: of folded operands, each operation's intermediate value is in the range its reduction takes. -/
theorem ringArithmetic : Obligations.RingArithmetic := by
  unfold Obligations.RingArithmetic
  intro q hq hq'
  refine ⟨fun v hv => fold_eq_mod (by omega), fun a b c ha hb hc => ?operations⟩
  case operations =>
    exact ⟨addM_eq_mod ha hb, subM_eq_mod ha hb, negM_eq_mod ha, mulM_eq_mod hq hq' ha hb, mulAddM_eq_mod hq hq' ha hb hc,
      mulConstM_eq_mod b (by omega) hq' (by omega)⟩

end Sys2Proof.Machine
end

section
/-! Modular powers, and the places to which an automorphism sends coefficients (R45). -/

namespace Sys2Proof.Machine

/-! ### Modular powers -/

theorem powMod_eq_pow_mod (q : Nat) : ∀ (fuel b e : Nat), e < 2 ^ fuel → powMod q b fuel e = b ^ e % q
  | 0, b, e, he => by
    obtain rfl : e = 0 := by omega
    rfl
  | fuel + 1, b, e, he => by
    have hsquares : (b * b) ^ (e / 2) = b ^ (2 * (e / 2)) := by rw [← Nat.pow_two, ← Nat.pow_mul]
    have ih : powMod q (b * b % q) fuel (e / 2) = b ^ (2 * (e / 2)) % q := by
      rw [powMod_eq_pow_mod q fuel _ _ (by omega), ← Nat.pow_mod, hsquares]
    simp only [powMod, ih]
    split
    case isTrue h => rw [h, Nat.pow_zero]
    case isFalse =>
      split
      case isTrue hodd => rw [← Nat.mul_mod, ← Nat.pow_add_one, show 2 * (e / 2) + 1 = e by omega]
      case isFalse heven => rw [show 2 * (e / 2) = e by omega]

theorem powM_eq_pow_mod (q b e : Nat) : powM q b e = b ^ e % q := powMod_eq_pow_mod q _ b e Nat.lt_log2_self

/-! ### Galois elements modulo 2N -/

/-- The square of a number that leaves 1 modulo 2h leaves 1 modulo 4h. -/
theorem mul_self_mod_double {h x : Nat} (hh : 0 < h) (hx : x % (2 * h) = 1) : x * x % (2 * (2 * h)) = 1 := by
  have hdivision : x = 2 * h * (x / (2 * h)) + 1 := by
    have hsplit := Nat.div_add_mod x (2 * h)
    omega
  generalize x / (2 * h) = c at hdivision
  have hsquare : x * x = 2 * (2 * h) * (h * c * c + c) + 1 := by
    subst hdivision
    grind
  rw [hsquare, Nat.mul_add_mod, Nat.mod_eq_of_lt (by omega)]

/-- An odd number to the power N leaves 1 modulo 2N, for N a power of two. -/
theorem odd_pow_mod {k : Nat} (hk : k % 2 = 1) : ∀ n : Nat, k ^ 2 ^ n % (2 * 2 ^ n) = 1
  | 0 => by rwa [Nat.pow_zero, Nat.pow_one]
  | n + 1 => by
    rw [Nat.pow_succ 2 n, Nat.pow_mul, Nat.pow_two, Nat.mul_comm (2 ^ n) 2]
    exact mul_self_mod_double (Nat.two_pow_pos n) (odd_pow_mod hk n)

/-- Modulo 2N the odd element k has the inverse k^(N − 1). -/
theorem galois_mul_inverse (n : Nat) {k : Nat} (hk : k % 2 = 1) : k * k ^ (2 ^ n - 1) % (2 * 2 ^ n) = 1 := by
  rw [← Nat.pow_add_one', Nat.sub_add_cancel (Nat.two_pow_pos n), odd_pow_mod hk]

theorem odd_pow {k : Nat} (hk : k % 2 = 1) (m : Nat) : k ^ m % 2 = 1 := by
  rw [Nat.pow_mod, hk, Nat.one_pow]

/-- An odd factor leaves N as it is modulo 2N. -/
theorem add_mul_odd_mod {m : Nat} (a N : Nat) (hm : m % 2 = 1) : (a + N * m) % (2 * N) = (a + N) % (2 * N) := by
  have hsplit : a + N * m = a + N + 2 * N * (m / 2) := by
    rw [show m = 2 * (m / 2) + 1 by omega, Nat.mul_add]
    grind
  rw [hsplit, Nat.add_mul_mod_self_left]

/-- The place i·k goes back to i under the inverse of k. -/
theorem place_mul_inverse (n i : Nat) {k : Nat} (hk : k % 2 = 1) :
    i * k % (2 * 2 ^ n) * k ^ (2 ^ n - 1) % (2 * 2 ^ n) = i % (2 * 2 ^ n) :=
  calc i * k % (2 * 2 ^ n) * k ^ (2 ^ n - 1) % (2 * 2 ^ n)
      = i * (k * k ^ (2 ^ n - 1)) % (2 * 2 ^ n) := by rw [Nat.mod_mul_mod, Nat.mul_assoc]
    _ = i * 1 % (2 * 2 ^ n) := by rw [← Nat.mul_mod_mod, galois_mul_inverse n hk]
    _ = i % (2 * 2 ^ n) := by rw [Nat.mul_one]

/-- A place past N, taken N lower, goes back to i + N under the inverse of k. -/
theorem place_sub_mul_inverse {n i k : Nat} (hk : k % 2 = 1) (hj : 2 ^ n ≤ i * k % (2 * 2 ^ n)) :
    (i * k % (2 * 2 ^ n) - 2 ^ n) * k ^ (2 ^ n - 1) % (2 * 2 ^ n) = (i + 2 ^ n) % (2 * 2 ^ n) := by
  have hback := place_mul_inverse n i hk
  have hodd := odd_pow hk (2 ^ n - 1)
  generalize i * k % (2 * 2 ^ n) = j at hj hback ⊢
  generalize k ^ (2 ^ n - 1) = r at hback hodd ⊢
  generalize 2 ^ n = N at hj hback ⊢
  calc (j - N) * r % (2 * N) = ((j - N) * r + 2 * N * r) % (2 * N) := (Nat.add_mul_mod_self_left ..).symm
    _ = (j * r + N * r) % (2 * N) := by rw [← Nat.add_mul, ← Nat.add_mul, show j - N + 2 * N = j + N by omega]
    _ = (j * r + N) % (2 * N) := add_mul_odd_mod _ N hodd
    _ = (i + N) % (2 * N) := by rw [Nat.add_mod, hback, ← Nat.add_mod]

/-! ### The automorphism in the coefficient domain -/

section
variable (q n k : Nat) (a : List Nat)

theorem length_automorphCoeff : (automorphCoeff q n k a).length = 2 ^ n := by
  rw [automorphCoeff, List.length_map, List.length_range]

variable {q n k} {j i : Nat}

/-- Place j holds the element whose index the inverse of k gives. -/
theorem el_automorphCoeff_of_source (hj : j < 2 ^ n) (hi : i < 2 * 2 ^ n)
    (hsource : j * k ^ (2 ^ n - 1) % (2 * 2 ^ n) = i % (2 * 2 ^ n)) :
    el (automorphCoeff q n k a) j = if i < 2 ^ n then el a i else negM q (el a (i - 2 ^ n)) := by
  have hindex : j * powM (2 * 2 ^ n) k (2 ^ n - 1) % (2 * 2 ^ n) = i := by
    rw [powM_eq_pow_mod, Nat.mul_mod_mod, hsource, Nat.mod_eq_of_lt hi]
  simp only [el, automorphCoeff, List.getD_eq_getElem?_getD, List.getElem?_map, List.getElem?_range hj, Option.map_some,
    Option.getD_some, hindex]

end

/-- Settles O9: the inverse of k takes each place back to the index whose coefficient it received, past N for a negated one. -/
theorem automorphismPlaces : Obligations.AutomorphismPlaces := by
  unfold Obligations.AutomorphismPlaces
  intro q n k i a _ hk _ hi
  have hplace : i * k % (2 * 2 ^ n) < 2 * 2 ^ n := Nat.mod_lt _ (by omega)
  refine ⟨length_automorphCoeff q n k a, fun hj => ?plain, fun hj => ?negated⟩
  case plain =>
    rw [el_automorphCoeff_of_source a hj (by omega) (place_mul_inverse n i hk), if_pos hi]
  case negated =>
    rw [el_automorphCoeff_of_source a (by omega) (by omega) (place_sub_mul_inverse hk hj), if_neg (by omega),
      Nat.add_sub_cancel]

end Sys2Proof.Machine
end

section
/-! Limb operations (R128, Table 5-4): a Glahus command that its partition takes at once runs, and a limb operation that passes its
checks leaves its function of the folded sources. -/

namespace Sys2Proof.Machine

section
variable {s : State} {p : Nat} {g : GInstr}

/-- A partition that is free takes a Glahus command at once. -/
theorem gCmd_of_free (hfree : s.gFree p) (o : Nat) (run : State → State) : s.gCmd p o g run = run s := by
  obtain ⟨hready, hheld⟩ := hfree
  simp only [State.gCmd, hready, hheld, List.isEmpty_nil, not_true_eq_false, if_false, if_true]

/-- A well-formed Glahus command at a free partition answers what its operation leaves. -/
theorem guarded_gCmd_of_free (hg : gOk p g = true) (hfree : s.gFree p) (o : Nat) (run : State → State) :
    guarded (gOk p g) (s.gCmd p o g run) = .next (run s) := by
  rw [guarded_next hg, gCmd_of_free hfree]

theorem gRun_of_valid (p : Nat) {invalid : Bool} (h : invalid = false) (f : State → State) :
    s.gRun p invalid f = f (s.gEnd p 0) := by
  rw [State.gRun, h, if_neg Bool.false_ne_true]

variable {u : Uses} {f2Max : Nat} {srcs extra : List Nat}

theorem gFree_of_limbPasses (h : s.limbPasses p g u f2Max srcs extra) : s.gFree p := h.1

/-- A limb operation that passes its checks leaves its function of the folded sources. -/
theorem limbOp_of_limbPasses (h : s.limbPasses p g u f2Max srcs extra) (f : LimbFn) :
    s.limbOp p g u f2Max srcs extra f = (s.gEnd p 0).limbResult p g fun c =>
      f ((s.gEnd p 0).pset g.pset) (limbOpEntry g c) (srcs.map fun v => (s.gEnd p 0).limbSrc p g v c) := by
  obtain ⟨-, hvalid, hcode, hread⟩ := h
  simp only [State.limbOp, gRun_of_valid p hvalid, hcode, hread, ne_eq, not_true_eq_false, if_false, List.map_map]
  rfl

/-- A limb command that passes its checks answers that state. -/
theorem exec_of_limbPasses (hg : gOk p g = true) (h : s.limbPasses p g u f2Max srcs extra) {c : Instr} {o : Nat}
    {run : State → State} {f : LimbFn} (hexec : exec c s = guarded (gOk p g) (s.gCmd p o g run))
    (hrun : run s = s.limbOp p g u f2Max srcs extra f) :
    exec c s = .next ((s.gEnd p 0).limbResult p g fun c =>
      f ((s.gEnd p 0).pset g.pset) (limbOpEntry g c) (srcs.map fun v => (s.gEnd p 0).limbSrc p g v c)) := by
  rw [hexec, guarded_gCmd_of_free hg (gFree_of_limbPasses h), hrun, limbOp_of_limbPasses h]

/-! ### The operations with checks of their own -/

theorem runLmulc_of_constant (hparam : g.param ≠ 0) (hw : s.kparam p (g.param - 1) < 2 ^ 36) :
    runLmulc p g s = s.limbOp p g { limbUses with param := true } 1 [g.ry] [] fun ps e l =>
      (l.getD 0 []).map fun v => mulConstM (ps.q e) v (fold (s.kparam p (g.param - 1)) (ps.q e)) := by
  simp only [runLmulc, if_neg hparam, if_neg (Nat.not_le.mpr hw)]

theorem runLaut_of_operand (hbad : autOperandBad g g.imm64 = false) (himm : g.imm64 < 2 ^ 34)
    (hgalois : bit g.imm64 33 = true → galoisBad g.f1 (autGalois g.f1 g.imm64 g.conj) = false) :
    runLaut p g s = s.limbOp p g { limbUses3 with conj := true } 3 [g.ry] [] fun ps e l =>
      if bit g.f2 1 then automorphEval g.f1 (autGalois g.f1 g.imm64 g.conj) (l.getD 0 [])
      else automorphCoeff (ps.q e) g.f1 (autGalois g.f1 g.imm64 g.conj) (l.getD 0 []) := by
  have hnamed : ¬ (bit g.imm64 33 = true ∧ galoisBad g.f1 (autGalois g.f1 g.imm64 g.conj) = true) := by
    rintro ⟨hbit, hrefused⟩
    exact Bool.false_ne_true ((hgalois hbit).symm.trans hrefused)
  simp only [runLaut, hbad, Bool.false_eq_true, if_false, if_neg (Nat.not_le.mpr himm), if_neg hnamed, List.append_nil]

end

/-- Settles O8: each command runs the shared limb operation, which leaves the function of the folded sources when it passes. -/
theorem limbOperations : Obligations.LimbOperations := by
  unfold Obligations.LimbOperations
  intro s p g hg
  refine ⟨fun h => ⟨?add, ?sub, ?mul⟩, fun h => ?mac, fun h => ⟨?neg, ?ntt, ?intt⟩, fun hparam hw h => ?mulc,
    fun hbad himm hgalois h => ?aut⟩
  case add => exact (exec_of_limbPasses hg h (c := .ladd p g) rfl rfl :)
  case sub => exact (exec_of_limbPasses hg h (c := .lsub p g) rfl rfl :)
  case mul => exact (exec_of_limbPasses hg h (c := .lmul p g) rfl rfl :)
  case mac => exact (exec_of_limbPasses hg h (c := .lmac p g) rfl rfl :)
  case neg => exact (exec_of_limbPasses hg h (c := .lneg p g) rfl rfl :)
  case ntt => exact (exec_of_limbPasses hg h (c := .lntt p g) rfl rfl :)
  case intt => exact (exec_of_limbPasses hg h (c := .lintt p g) rfl rfl :)
  case mulc => exact (exec_of_limbPasses hg h (c := .lmulc p g) rfl (runLmulc_of_constant hparam hw) :)
  case aut => exact (exec_of_limbPasses hg h (c := .laut p g) rfl (runLaut_of_operand hbad himm hgalois) :)

end Sys2Proof.Machine
end

section
/-! What the accessors of a partition read: two states that agree in it agree in what they answer. -/

namespace Sys2Proof.Machine

section
variable {s u : State} {p : Nat}

/-! ### The logical scratchpad (R123) -/

section
variable (htiles : u.tiles = s.tiles) (hsize : (u.part p).tiles = (s.part p).tiles)
include htiles hsize

theorem lgRead_congr (a n : Nat) : u.lgRead p a n = s.lgRead p a n := by
  induction n generalizing a with
  | zero => rfl
  | succ n ih => simp only [State.lgRead, State.lgPlace, State.tile, htiles, hsize, ih]

theorem lgLimb_congr (a n : Nat) : u.lgLimb p a n = s.lgLimb p a n := by
  simp only [State.lgLimb, lgRead_congr htiles hsize]

theorem lgValid_congr (a n : Nat) : u.lgValid p a n = s.lgValid p a n := by
  simp only [State.lgValid, State.lgPlace, State.tag, State.tile, htiles, hsize]

end

section
variable (hsize : (u.part p).tiles = (s.part p).tiles)
include hsize

theorem lgFits_congr (a : Int) (n : Nat) : u.lgFits p a n = s.lgFits p a n := by
  rw [State.lgFits, State.lgFits, State.lgSize, State.lgSize, hsize]

theorem capacity_congr (r : Region) (n : Nat) : u.capacity p r n = s.capacity p r n := by
  simp only [State.capacity, lgFits_congr hsize]

end

/-! ### Regions and headers (R124, R126) -/

section
variable (hseqs : u.seqs = s.seqs) (hseq : (u.part p).seq = (s.part p).seq)
include hseqs hseq

theorem pseq_congr : u.pseq p = s.pseq p := by simp only [State.pseq, State.seq, hseqs, hseq]

theorem hdr_congr (e : Nat) : u.hdr p e = s.hdr p e := by simp only [State.hdr, pseq_congr hseqs hseq]

theorem region_congr (v : Nat) : u.region p v = s.region p v := by
  simp only [State.region, State.kparam, pseq_congr hseqs hseq]

theorem bound_congr (hbinds : (u.part p).binds = (s.part p).binds) (e : Nat) : u.bound p e = s.bound p e := by
  simp only [State.bound, hbinds, region_congr hseqs hseq]

theorem opLimb_congr (hbinds : (u.part p).binds = (s.part p).binds) (htiles : u.tiles = s.tiles)
    (hsize : (u.part p).tiles = (s.part p).tiles) (ps : PrimeSet) (e c j : Nat) :
    u.opLimb p ps e c j = s.opLimb p ps e c j := by
  simp only [State.opLimb, State.bodyLimb, hdr_congr hseqs hseq, bound_congr hseqs hseq hbinds, lgLimb_congr htiles hsize]

end

/-! ### Memory of the partition (R161) -/

theorem inStacks_congr (hstks : (u.part p).stks = (s.part p).stks) (a n : Nat) : u.inStacks p a n = s.inStacks p a n := by
  simp only [State.inStacks, hstks]

end

/-! ### Ends of operations and bindings -/

section
variable (s : State) (p : Nat)

/-- A change of a partition that keeps one of its fields keeps it in every partition. -/
theorem part_modPart_field {α : Type} (f : Part → Part) (field : Part → α) (hf : ∀ x, field (f x) = field x) (p' : Nat) :
    field ((s.modPart p f).part p') = field (s.part p') := by
  simp only [State.modPart_part]
  split
  · next h => rw [hf, h]
  · rfl

/-- The end code of an operation is the only field of its partition that it sets, with the mark of its tokens. -/
theorem part_gEnd_field {α : Type} (code : Nat) (field : Part → α)
    (hf : ∀ x : Part, field { x with gCode := code, gTokens := false } = field x) (p' : Nat) :
    field ((s.gEnd p code).part p') = field (s.part p') :=
  part_modPart_field s p _ field hf p'

theorem opLimb_gEnd (code : Nat) (ps : PrimeSet) (e c j : Nat) : (s.gEnd p code).opLimb p ps e c j = s.opLimb p ps e c j :=
  opLimb_congr (u := s.gEnd p code) (s := s) rfl (part_gEnd_field s p code Part.seq (fun _ => rfl) p)
    (part_gEnd_field s p code Part.binds (fun _ => rfl) p) rfl (part_gEnd_field s p code Part.tiles (fun _ => rfl) p) ps e c j

end

end Sys2Proof.Machine
end

section
/-! Ciphertext operations (R67 to R81, Table 5-4): an operation that passes its checks leaves the predicted header and its body,
computed in the state in which its key's header has been read and its noise drawn. -/

namespace Sys2Proof.Machine

/-! ### What the bookkeeping of an operation leaves unchanged -/

section
variable (s : State) (p : Nat)

theorem readLine_frame (a : Nat) (allocate : Bool) : ∃ m, s.readLine p a allocate = { s with memc := m } := by
  unfold State.readLine
  split
  · exact ⟨_, rfl⟩
  · exact ⟨s.memc, rfl⟩

/-- A generate request changes the random bit generators, and the counter of free values where it reseeds. -/
theorem drbgRequest_frame (noise : Bool) (n : Nat) :
    ∃ c f, (s.drbgRequest noise n).2 = { s with sec := c, free := f } := by
  unfold State.drbgRequest
  dsimp only
  generalize (if noise = true then s.sec.noiseOk else s.sec.secOk) = ok
  generalize (if noise = true then s.sec.noiseDue else s.sec.secDue) = due
  by_cases hok : ok = true
  · by_cases hseed : due = true ∨ 2 ^ 20 ≤ (if noise = true then s.sec.noiseReqs else s.sec.secReqs)
    · by_cases hsource : s.sec.sourceOk = true
      · simp only [hok, hseed, hsource, not_true_eq_false, if_true, if_false]
        exact ⟨_, _, rfl⟩
      · simp only [hok, hseed, hsource, not_true_eq_false, if_true, if_false]
        exact ⟨_, s.free, rfl⟩
    · simp only [hok, hseed, not_true_eq_false, if_false]
      exact ⟨_, s.free, rfl⟩
  · exact ⟨s.sec, s.free, by simp only [hok, not_false_eq_true, if_true, Bool.false_eq_true]⟩

theorem drbgRequests_frame (noise : Bool) (l : List Nat) : ∃ c f, s.drbgRequests noise l = { s with sec := c, free := f } := by
  induction l generalizing s with
  | nil => exact ⟨s.sec, s.free, rfl⟩
  | cons n l ih =>
    obtain ⟨c, f, h⟩ := drbgRequest_frame s noise n
    obtain ⟨c', f', h'⟩ := ih (s.drbgRequest noise n).2
    exact ⟨c', f', h'.trans (by rw [h])⟩

theorem useNoise_frame (o imm8 n : Nat) : ∃ c f, s.useNoise o imm8 n = { s with sec := c, free := f } := by
  unfold State.useNoise
  split
  · exact drbgRequests_frame ..
  · exact ⟨s.sec, s.free, rfl⟩

/-- Reading the header of an operation's key, where it has one. -/
theorem keyRead_frame (o : Nat) (a : Nat) : ∃ m, (if keyKind o = 0 then s else s.readLine p a false) = { s with memc := m } := by
  split
  · exact ⟨s.memc, rfl⟩
  · exact readLine_frame ..

/-- The state in which a body is computed differs from the one its operation found in the end code, the memory controllers' line
marks, the generators and the counter of free values. -/
theorem ctState_frame (o : Nat) (g : GInstr) (h : Header) :
    ∃ m c f, s.ctState p o g h = { s.gEnd p 0 with memc := m, sec := c, free := f } := by
  obtain ⟨m, hm⟩ := keyRead_frame (s.gEnd p 0) p o ((s.gEnd p 0).gAddr p g)
  obtain ⟨c, f, h'⟩ := useNoise_frame { s.gEnd p 0 with memc := m } o g.imm8 h.logN
  exact ⟨m, c, f, by rw [State.ctState, hm, h']⟩

end

/-! ### Operands beside an update of the header file -/

section
variable (s : State) (p e : Nat) (f : Header → Header)

@[simp] theorem kparam_modHdr (p' k : Nat) : (s.modHdr p e f).kparam p' k = s.kparam p' k := by
  simp only [State.kparam, State.pseq, State.modHdr, State.modSeq_part, State.modSeq_seq]
  split
  · next h => rw [h]; rfl
  · rfl

@[simp] theorem region_modHdr (p' v : Nat) : (s.modHdr p e f).region p' v = s.region p' v := by
  simp only [State.region, kparam_modHdr]

@[simp] theorem bound_modHdr (p' e' : Nat) : (s.modHdr p e f).bound p' e' = s.bound p' e' := by
  simp only [State.bound, region_modHdr]
  rfl

end

/-! ### An operation that passes its checks -/

section
variable {s : State} {p o : Nat} {g : GInstr} {constant : Int} {h : Header}

theorem gFree_of_ctPasses (hpass : s.ctPasses p o g constant h) : s.gFree p := hpass.1

/-- An operation that passes computes its body in `ctState` and leaves it behind the predicted header. -/
theorem ctOp_of_ctPasses (hpass : s.ctPasses p o g constant h) (body : BodyFn) :
    s.ctOp p o g constant body =
      (body (s.ctState p o g h) ((s.gEnd p 0).pset g.pset) h).2.ctResult p g h
        (body (s.ctState p o g h) ((s.gEnd p 0).pset g.pset) h).1 := by
  obtain ⟨-, hvalid, hkey, hreg, hwidth, hchecks, hbinding, hnoise, hread⟩ := hpass
  have hflood : ¬ (o = oFlood ∧ floodWidthCode g.imm8 ≠ 0) := fun ⟨ho, hbad⟩ => hbad (hwidth ho)
  have hdrew : ¬ (drawsNoise o = true ∧ ¬ (s.ctState p o g h).sec.noiseOk = true) := fun ⟨ho, hbad⟩ => hbad (hnoise ho)
  obtain ⟨m, hm⟩ := keyRead_frame (s.gEnd p 0) p o ((s.gEnd p 0).gAddr p g)
  have hreg' : State.ctRegBad { s.gEnd p 0 with memc := m } p o g = false := hreg
  have hbinding' : State.bindingCode { s.gEnd p 0 with memc := m } p o g h ((s.gEnd p 0).hdr p g.f1) ((s.gEnd p 0).pset g.pset) = 0 :=
    hbinding
  have hstate : State.useNoise { s.gEnd p 0 with memc := m } o g.imm8 h.logN = s.ctState p o g h := by rw [State.ctState, hm]
  simp only [State.ctOp, gRun_of_valid p hvalid, hkey, hm, hreg', hflood, hchecks, hbinding', hstate, hdrew, hread, ne_eq,
    not_true_eq_false, if_false, Bool.false_eq_true, bound_modHdr, State.ctResult]

/-- A ciphertext command that passes answers that state. -/
theorem exec_of_ctPasses (hg : gOk p g = true) (hpass : s.ctPasses p o g constant h) {c : Instr} {run : State → State}
    {body : BodyFn} (hexec : exec c s = guarded (gOk p g) (s.gCmd p o g run)) (hrun : run s = s.ctOp p o g constant body) :
    exec c s = .next ((body (s.ctState p o g h) ((s.gEnd p 0).pset g.pset) h).2.ctResult p g h
      (body (s.ctState p o g h) ((s.gEnd p 0).pset g.pset) h).1) := by
  rw [hexec, guarded_gCmd_of_free hg (gFree_of_ctPasses hpass), hrun, ctOp_of_ctPasses hpass]

/-- The product outside BFV. -/
theorem exec_cmul_of_ctPasses (hg : gOk p g = true) (hpass : s.ctPasses p oCmul g 1 h) (hscheme : h.scheme ≠ 3) :
    exec (.cmul p g) s = .next ((s.gEnd p 0).ctResult p g h (bodyBy ((s.gEnd p 0).pset g.pset) h fun c j q =>
      let a := fun i => (s.gEnd p 0).opLimb p ((s.gEnd p 0).pset g.pset) g.f1 i j
      let b := fun i => (s.gEnd p 0).opLimb p ((s.gEnd p 0).pset g.pset) g.f2 i j
      if c = 0 then List.zipWith (mulM q) (a 0) (b 0)
      else if c = 1 then List.zipWith (addM q) (List.zipWith (mulM q) (a 0) (b 1)) (List.zipWith (mulM q) (a 1) (b 0))
      else List.zipWith (mulM q) (a 1) (b 1))) := by
  rw [exec_of_ctPasses hg hpass (c := .cmul p g) rfl rfl]
  simp only [if_neg hscheme]
  rfl

end

/-! ### Bodies limb by limb -/

section
variable (ps : PrimeSet) (h : Header) (f : Nat → Nat → Nat → List Nat)

theorem length_bodyBy : (bodyBy ps h f).length = h.bodyLimbs := by simp [bodyBy, upTo]

theorem getD_bodyBy {i : Nat} (hi : i < h.bodyLimbs) : (bodyBy ps h f).getD i [] =
    f (i / max 1 (h.limbs + h.specials)) (i % max 1 (h.limbs + h.specials))
      (bodyPrime ps h (i % max 1 (h.limbs + h.specials))) := by
  simp [bodyBy, upTo, hi]

/-- A body of the results level has a header's shape and canonical residues (log 15). -/
theorem bodyCanonical_levelBody (s : State) (p o : Nat) (g : GInstr) : bodyCanonical ps h (s.levelBody p o g ps h).1 := by
  dsimp only [State.levelBody]
  refine ⟨length_bodyBy .., fun i hi => ?_⟩
  rw [getD_bodyBy ps h _ hi]
  refine ⟨by simp [upTo], fun v hv => ?_⟩
  obtain ⟨x, -, rfl⟩ := List.mem_map.mp hv
  exact Nat.mod_lt _ (by omega)

/-- A body with a limb has limbs in each component. -/
theorem componentLimbs_pos {h : Header} {i : Nat} (hi : i < h.bodyLimbs) : 0 < h.limbs + h.specials := by
  refine Nat.pos_of_ne_zero fun hzero => ?_
  rw [Header.bodyLimbs, hzero, Nat.mul_zero] at hi
  exact Nat.not_lt_zero i hi

/-- A limb past those of component 0 belongs to another. -/
theorem component_ne_zero {h : Header} {i : Nat} (hi : i < h.bodyLimbs) (hpast : h.limbs + h.specials ≤ i) :
    i / max 1 (h.limbs + h.specials) ≠ 0 := by
  have hper := componentLimbs_pos hi
  exact Nat.ne_of_gt (Nat.div_pos (by omega) (by omega))

end

/-! ### Key switches, rescalings, encryption, lift and flooding -/

section
variable {s : State} {p o : Nat} {g : GInstr} {constant : Int} {h : Header}

/-- The operands read the same in the state in which a body is computed as in the one the operation found. -/
theorem opLimb_ctState (ps : PrimeSet) (e c j : Nat) : (s.ctState p o g h).opLimb p ps e c j = s.opLimb p ps e c j := by
  obtain ⟨m, sec, free, hstate⟩ := ctState_frame s p o g h
  rw [hstate, ← opLimb_gEnd s p 0]
  exact opLimb_congr (s := s.gEnd p 0) (u := { s.gEnd p 0 with memc := m, sec := sec, free := free }) rfl rfl rfl rfl rfl ps e c j

/-- A command whose body the results level fixes. -/
theorem exec_level_of_ctPasses (hg : gOk p g = true) (hpass : s.ctPasses p o g constant h) {c : Instr} {run : State → State}
    {body : BodyFn} (hexec : exec c s = guarded (gOk p g) (s.gCmd p o g run)) (hrun : run s = s.ctOp p o g constant body)
    (hbody : ∀ t ps, body t ps h = t.levelBody p o g ps h) :
    ∃ l, exec c s = .next (((s.ctState p o g h).drewNoise o g.imm8).ctResult p g h l) ∧ bodyCanonical (s.pset g.pset) h l := by
  rw [exec_of_ctPasses hg hpass hexec hrun, hbody]
  exact ⟨_, rfl, bodyCanonical_levelBody ..⟩

theorem exec_modraise_of_ctPasses (hg : gOk p g = true) (hpass : s.ctPasses p oModraise g 1 h) :
    ∃ l, exec (.modraise p g) s = .next (((s.ctState p oModraise g h).drewNoise oModraise g.imm8).ctResult p g h l) ∧
      l.length = h.bodyLimbs := by
  rw [exec_of_ctPasses hg hpass (c := .modraise p g) rfl rfl]
  dsimp only
  exact ⟨_, rfl, length_bodyBy ..⟩

theorem exec_flood_of_ctPasses (hg : gOk p g = true) (hpass : s.ctPasses p oFlood g 1 h) :
    ∃ l, exec (.flood p g) s = .next (((s.ctState p oFlood g h).drewNoise oFlood g.imm8).ctResult p g h l) ∧
      l.length = h.bodyLimbs ∧ ∀ i, h.limbs + h.specials ≤ i → i < h.bodyLimbs →
        l.getD i [] = s.opLimb p (s.pset g.pset) g.f1 (i / max 1 (h.limbs + h.specials)) (i % max 1 (h.limbs + h.specials)) := by
  rw [exec_of_ctPasses hg hpass (c := .flood p g) rfl rfl]
  dsimp only
  refine ⟨_, rfl, length_bodyBy .., fun i hpast hi => ?_⟩
  rw [getD_bodyBy _ _ _ hi, if_pos (component_ne_zero hi hpast), opLimb_ctState]
  rfl

end

/-- Settles O10: without a key and noise, the state in which the body is computed is the one the operation found. -/
theorem ciphertextOperations : Obligations.CiphertextOperations := by
  unfold Obligations.CiphertextOperations
  intro s p g h hg
  refine ⟨fun hp => ?add, fun hp => ?sub, fun hp => ?neg, fun hp => ?addPlain, fun hp => ?mulPlain, fun hp hscheme => ?mul,
    fun hp => ?mulConst, fun hp => ?drop, fun hp => ?bootClose, fun hp => ?toEval, fun hp => ?toCoef⟩
  case add => exact (exec_of_ctPasses hg hp (c := .cadd p g) rfl rfl :)
  case sub => exact (exec_of_ctPasses hg hp (c := .csub p g) rfl rfl :)
  case neg => exact (exec_of_ctPasses hg hp (c := .cneg p g) rfl rfl :)
  case addPlain => exact (exec_of_ctPasses hg hp (c := .caddp p g) rfl rfl :)
  case mulPlain => exact (exec_of_ctPasses hg hp (c := .cmulp p g) rfl rfl :)
  case mul => exact exec_cmul_of_ctPasses hg hp hscheme
  case mulConst => exact (exec_of_ctPasses hg hp (c := .cmuli p g) (run := runCmuli p g) rfl (by unfold runCmuli; rfl) :)
  case drop => exact (exec_of_ctPasses hg hp (c := .drop p g) rfl rfl :)
  case bootClose => exact (exec_of_ctPasses hg hp (c := .bootclose p g) rfl rfl :)
  case toEval => exact (exec_of_ctPasses hg hp (c := .toeval p g) rfl rfl :)
  case toCoef => exact (exec_of_ctPasses hg hp (c := .tocoef p g) rfl rfl :)

/-- Settles O11: each command runs the shared ciphertext operation; the bodies of the results level are canonical by their
reduction. -/
theorem keySwitchOperations : Obligations.KeySwitchOperations := by
  unfold Obligations.KeySwitchOperations
  intro s p g h hg
  refine ⟨fun hp => ?relin, fun hp => ?rot, fun hp => ?switch, fun hp => ?modUp, fun hp => ?modDown, fun hp => ?rescale,
    fun hp => ?modSwitch, fun hp hscheme => ?bfvProduct, fun hp => ?encrypt, fun hp => ?modRaise, fun hp => ?flood⟩
  case relin => exact exec_level_of_ctPasses hg hp (c := .relin p g) rfl rfl fun _ _ => rfl
  case rot => exact exec_level_of_ctPasses hg hp (c := .rot p g) rfl rfl fun _ _ => rfl
  case switch => exact exec_level_of_ctPasses hg hp (c := .ksw p g) rfl rfl fun _ _ => rfl
  case modUp => exact exec_level_of_ctPasses hg hp (c := .modup p g) rfl rfl fun _ _ => rfl
  case modDown => exact exec_level_of_ctPasses hg hp (c := .moddown p g) rfl rfl fun _ _ => rfl
  case rescale => exact exec_level_of_ctPasses hg hp (c := .rescale p g) rfl rfl fun _ _ => rfl
  case modSwitch => exact exec_level_of_ctPasses hg hp (c := .modsw p g) rfl rfl fun _ _ => rfl
  case bfvProduct => exact exec_level_of_ctPasses hg hp (c := .cmul p g) rfl rfl fun _ _ => if_pos hscheme
  case encrypt => exact exec_level_of_ctPasses hg hp (c := .encpk p g) rfl rfl fun _ _ => rfl
  case modRaise => exact exec_modraise_of_ctPasses hg hp
  case flood => exact exec_flood_of_ctPasses hg hp

end Sys2Proof.Machine
end

section
/-! Predicted output headers (Table 3-7), and the inputs that fix a body of the results level (R137). -/

namespace Sys2Proof.Machine

/-! ### Bodies of the results level -/

/-- R137: such a body is a function of the results level and the operation's inputs. -/
theorem levelBody_congr {s s' : State} {p p' o : Nat} {g g' : GInstr} {ps : PrimeSet} {h : Header}
    (hins : s'.ctInputs p' o g' ps (s'.noisePolys o g'.imm8 h.logN) = s.ctInputs p o g ps (s.noisePolys o g.imm8 h.logN))
    (hlevel : (s'.part p').rlActive = (s.part p).rlActive) : (s'.levelBody p' o g' ps h).1 = (s.levelBody p o g ps h).1 := by
  simp only [State.levelBody, hins, hlevel]

/-! ### The rows of Table 3-7 -/

section
variable {r : OpReq} {x : PrimeSet} {t : NoiseTable}

theorem predict_sum (ho : r.opcode = oCadd ∨ r.opcode = oCsub) :
    (predict r x t).hdr.comps = max r.a.comps r.b.comps ∧ (predict r x t).hdr.noise = ladd r.a.noise r.b.noise ∧
      (predict r x t).scale = r.a.scale := by
  simp only [predict, if_pos ho, and_self]

theorem predict_plainSum (ho : r.opcode = oCaddp) :
    (predict r x t).hdr.noise = ladd r.a.noise r.b.noise ∧ (predict r x t).hdr.comps = r.a.comps := by
  unfold predict
  dsimp only
  rw [ho]
  exact ⟨rfl, rfl⟩

theorem predict_toEval (ho : r.opcode = oToeval) :
    (predict r x t).hdr.domain = true ∧ (predict r x t).hdr.noise = r.a.noise := by
  unfold predict
  dsimp only
  rw [ho]
  exact ⟨rfl, rfl⟩

theorem predict_toCoef (ho : r.opcode = oTocoef) :
    (predict r x t).hdr.domain = false ∧ (predict r x t).hdr.noise = r.a.noise := by
  unfold predict
  dsimp only
  rw [ho]
  exact ⟨rfl, rfl⟩

/-- The product, whose row has a scale under CKKS alone. -/
theorem predict_product_ckks (ho : r.opcode = oCmul) (hs : r.a.scheme = 1) :
    (predict r x t).hdr.comps = 3 ∧ (predict r x t).scale = r.a.scale + r.b.scale := by
  unfold predict
  dsimp only
  rw [ho, hs]
  exact ⟨rfl, rfl⟩

/-- The two rows of the product agree in its components. -/
theorem predict_product_comps (ho : r.opcode = oCmul) : (predict r x t).hdr.comps = 3 := by
  by_cases hs : r.a.scheme = 1
  · exact (predict_product_ckks ho hs).1
  · unfold predict
    dsimp only
    rw [ho, if_neg (fun h : (oCmul = oCmulp ∨ oCmul = oCmul) ∧ r.a.scheme = 1 => hs h.2)]
    rfl

theorem predict_zeroProduct (ho : r.opcode = oCmuli) (hzero : r.constZero = true) :
    (predict r x t).hdr.noise = 0 ∧ (predict r x t).scale = r.a.scale := by
  unfold predict
  dsimp only
  rw [ho, hzero]
  exact ⟨rfl, rfl⟩

theorem predict_keySwitch (ho : r.opcode = oRelin ∨ r.opcode = oRot ∨ r.opcode = oKsw ∨ r.opcode = oModdown) :
    (predict r x t).hdr.comps = 2 ∧ (predict r x t).hdr.specials = 0 ∧
      (predict r x t).hdr.noise = ladd r.a.noise (t.ks.getD r.a.level 0) ∧
      (predict r x t).hdr.keyTag = if r.opcode = oKsw then r.targetTag else r.a.keyTag := by
  unfold predict
  dsimp only
  rcases ho with ho | ho | ho | ho <;> rw [ho] <;> exact ⟨rfl, rfl, rfl, rfl⟩

theorem predict_modUp (ho : r.opcode = oModup) : (predict r x t).hdr.specials = x.pcount := by
  unfold predict
  dsimp only
  rw [ho]
  exact rfl

theorem predict_rescale (ho : r.opcode = oRescale) (hlevel : r.a.level ≠ 0) :
    (predict r x t).hdr.level = r.a.level - 1 ∧ (predict r x t).hdr.limbs = r.a.limbs - x.width := by
  unfold predict
  dsimp only
  rw [ho, if_pos (⟨.inl rfl, hlevel⟩ : (oRescale = oRescale ∨ oRescale = oModsw) ∧ r.a.level ≠ 0)]
  exact ⟨rfl, rfl⟩

theorem predict_drop (ho : r.opcode = oDrop) (hlower : r.imm8 < r.a.level) :
    (predict r x t).hdr.level = r.imm8 ∧ (predict r x t).hdr.limbs = x.width * (r.imm8 + 1) ∧
      (predict r x t).hdr.noise = r.a.noise := by
  unfold predict
  dsimp only
  rw [ho, if_pos (⟨rfl, hlower⟩ : oDrop = oDrop ∧ r.imm8 < r.a.level)]
  exact ⟨rfl, rfl, rfl⟩

theorem predict_encryption (ho : r.opcode = oEncpk) :
    (predict r x t).hdr.level = r.imm8 ∧ (predict r x t).hdr.limbs = x.width * (r.imm8 + 1) % 256 ∧
      (predict r x t).hdr.comps = 2 ∧ (predict r x t).hdr.noise = t.fresh ∧ (predict r x t).hdr.keyTag = r.keyTag ∧
      (predict r x t).hdr.specials = 0 := by
  unfold predict
  dsimp only
  rw [ho]
  exact ⟨rfl, rfl, rfl, rfl, rfl, rfl⟩

theorem predict_modRaise (ho : r.opcode = oModraise) :
    (predict r x t).hdr.level = x.top ∧ (predict r x t).hdr.limbs = x.width * (x.top + 1) ∧ (predict r x t).hdr.boot = true := by
  unfold predict
  dsimp only
  rw [ho]
  exact ⟨rfl, rfl, rfl⟩

theorem predict_bootClose (ho : r.opcode = oBootclose) :
    (predict r x t).hdr.boot = false ∧ (predict r x t).hdr.noise = t.bootOut.getD r.a.level 0xFFFF := by
  unfold predict
  dsimp only
  rw [ho]
  exact ⟨rfl, rfl⟩

theorem predict_flood (ho : r.opcode = oFlood) :
    (predict r x t).hdr.flooded = true ∧ (predict r x t).hdr.noise = ladd r.a.noise (256 * (r.imm8 + r.a.logN)) := by
  unfold predict
  dsimp only
  rw [ho]
  exact ⟨rfl, rfl⟩

end

/-- Settles O12: the bodies by their inputs, the headers row by row. -/
theorem outputHeaders : Obligations.OutputHeaders := by
  unfold Obligations.OutputHeaders
  refine ⟨fun s s' p p' o g g' ps h => levelBody_congr, fun r x t => ?_⟩
  have keySwitch := fun ho => predict_keySwitch (r := r) (x := x) (t := t) ho
  refine ⟨predict_sum, predict_plainSum, predict_toEval, predict_toCoef, predict_product_comps,
    fun ho hs => (predict_product_ckks ho hs).2, predict_zeroProduct, fun ho => ?switch, fun ho => ?target, predict_modUp,
    predict_rescale, predict_drop, predict_encryption, predict_modRaise, predict_bootClose, predict_flood⟩
  case switch =>
    obtain ⟨hcomps, hspecials, hnoise, -⟩ := keySwitch ho
    exact ⟨hcomps, hspecials, hnoise⟩
  case target =>
    obtain ⟨-, -, -, htag⟩ := keySwitch (.inr (.inr (.inl ho)))
    exact htag.trans (if_pos ho)

end Sys2Proof.Machine
end

section
/-! Stream headers (R55, R61, R167, R169, R172): with each condition of the statement met, a header command takes the branch that
keeps what it has read. -/

namespace Sys2Proof.Machine

/-! ### A code of 0 records nothing -/

theorem memFault_zero (s : State) (p requester : Nat) (lines : List Nat) : s.memFault p requester lines 0 = s := rfl

theorem tileFault_zero (s : State) (t : Nat) (lines : List Nat) : s.tileFault t lines 0 = s := rfl

/-! ### Reading lines changes no check of a range -/

theorem inStacks_touch (s : State) (p a n b m : Nat) : (s.touch b m).inStacks p a n = s.inStacks p a n := rfl

/-! ### The commands -/

section
variable {s : State} {t i : Nat} (hslot : slotOk t i = true) (hactive : (s.slot t i).state = 2)
include hslot hactive

theorem exec_ctHeaderLoad_of_good {a : Nat} (ha : sd (s.slot t i).desc 319 256 = a) (hop : sdOp (s.slot t i).desc = 2)
    (hct : sdCt (s.slot t i).desc = true) (hfirst : (s.run t i).headerDone = false) (hline : s.lineCode a = 0)
    (hstacks : s.inStacks ((s.tilePart t).getD 0) a 64 = true) :
    exec (.ctHeaderLoad t i) s = .next (((s.touch a 64).modHdr ((s.tilePart t).getD 0) (sd (s.slot t i).desc 79 72) fun _ =>
      { headerOf (s.loadLE a 64) with bodyAddr := sd (s.slot t i).desc 191 128 + (s.run t i).base }).modRun t i
        fun r => { r with headerDone := true, skipBody := false }) := by
  change guarded (slotOk t i) _ = _
  rw [guarded_next hslot]
  simp [hactive, hop, hct, hfirst, ha, hline, hstacks, inStacks_touch, tileFault_zero]

theorem exec_keyHeaderCheck_of_good {a : Nat} (ha : sd (s.slot t i).desc 319 256 = a) (hop : sdOp (s.slot t i).desc = 4)
    (hfirst : (s.run t i).keyChecked = false) (hkick : (s.run t i).kickSeq = none) (hfetch : s.fetchCode t a 64 = 0)
    (hkey : keyCheck ((s.run t i).latch.getD {}) (keyHeaderOf (s.loadLE a 64)) (s.cache (t / 32)).ways = 0) :
    exec (.keyHeaderCheck t i) s = .next (((s.delivered [a] false).modRun t i fun r =>
      { r with keyChecked := true, keyHdr := keyHeaderOf (s.loadLE a 64) }).emitTile t (sd (s.slot t i).desc 27 24)
        { status := 0, source := 1, tag := 0xFF }) := by
  change guarded (slotOk t i) _ = _
  rw [guarded_next hslot]
  simp [hactive, hop, hfirst, ha, hfetch, hkey, hkick]

theorem exec_tensorHeaderRead_of_good {a : Nat} (ha : sd (s.slot t i).desc 191 128 + (s.run t i).base = a)
    (htensor : sdIsTensor (s.slot t i).desc = true) (hfirst : (s.run t i).headerDone = false) (hfetch : s.fetchCode t a 64 = 0)
    (hzero : (tensorOf (s.loadLE a 64)).zeroBad = false)
    (hvalid : (tensorOf (s.loadLE a 64)).invalid (sdOp (s.slot t i).desc == 6) = false) :
    exec (.tensorHeaderRead t i) s = .next ((s.touch a 64).modRun t i fun r =>
      { r with headerDone := true, tensor := BitVec.ofNat 512 (s.loadLE a 64) }) := by
  change guarded (slotOk t i) _ = _
  rw [guarded_next hslot]
  simp [hactive, htensor, hfirst, ha, hfetch, hzero, hvalid]

theorem exec_coordinateListRead_of_good {tn : Tensor} {idx a v : Nat} (htn : tensorOf (s.run t i).tensor.toNat = tn)
    (ha : tn.listAddr + 8 * idx = a) (hv : s.loadLE a 8 = v) (htensor : sdIsTensor (s.slot t i).desc = true)
    (hheader : (s.run t i).headerDone = true) (hmode : tn.mode = 1) (hidx : idx < tn.listCount)
    (hfetch : s.fetchCode t a 8 = 0) (hrange : v % 2 ^ 16 = 0xFFFF ∨
      (bits v 15 0 < tn.tcMax ∧ bits v 31 16 < tn.trMax ∧ bits v 47 32 < tn.d2 ∧ bits v 63 48 < tn.d3)) :
    exec (.coordinateListRead t i idx) s = .next ((s.touch a 8).modRun t i fun r =>
      { r with coords := smSet 0 r.coords idx (2 ^ 64 + v) }) := by
  have hgood : ¬ (v % 2 ^ 16 ≠ 0xFFFF ∧
      (tn.tcMax ≤ bits v 15 0 ∨ tn.trMax ≤ bits v 31 16 ∨ tn.d2 ≤ bits v 47 32 ∨ tn.d3 ≤ bits v 63 48)) := by omega
  change guarded (slotOk t i) _ = _
  rw [guarded_next hslot]
  simp only [htn, ha, hv, hactive, htensor, hheader, hmode, Nat.not_le.mpr hidx, hfetch, hgood, and_self, if_true, if_false,
    ne_eq, not_true_eq_false, tileFault_zero]

end

/-- Settles O28: the conditions on the slot and on the lines read are the guards of each command's good branch. -/
theorem streamHeaders : Obligations.StreamHeaders := by
  unfold Obligations.StreamHeaders
  intro s t i ht hi hactive
  have hslot : slotOk t i = true := by simp [slotOk, ht, hi]
  refine ⟨?ct, ?key, ?tensor, ?coordinate⟩
  case ct => exact fun hop hct hfirst hline hstacks => exec_ctHeaderLoad_of_good hslot hactive rfl hop hct hfirst hline hstacks
  case key => exact fun hop hfirst hkick hfetch hkey => exec_keyHeaderCheck_of_good hslot hactive rfl hop hfirst hkick hfetch hkey
  case tensor =>
    exact fun htensor hfirst hfetch hzero hvalid => exec_tensorHeaderRead_of_good hslot hactive rfl htensor hfirst hfetch hzero hvalid
  case coordinate =>
    exact fun idx htensor hheader hmode hidx hfetch hrange =>
      exec_coordinateListRead_of_good hslot hactive rfl rfl rfl htensor hheader hmode hidx hfetch hrange

end Sys2Proof.Machine
end

section
/-! Good lines (R203, R216, R219): where every line of a range is good, a partition's store performs whole, and what a store or a
read leaves unchanged keeps good lines good. -/

namespace Sys2Proof.Machine

/-! ### Lines and ranges -/

section
variable {s u : State}

theorem lineCode_eq_zero_iff (s : State) (a : Nat) :
    s.lineCode a = 0 ↔ s.decodeCode a = 0 ∧ smGet 0 s.poison (lineOf a) = 0 := by
  have hread : cPoisonRead ≠ 0 := by decide
  by_cases hdecode : s.decodeCode a = 0
  · by_cases hpoison : smGet 0 s.poison (lineOf a) = 0
    · simp [State.lineCode, hdecode, hpoison]
    · by_cases hfresh : smGet 0 s.memc.fresh (lineOf a) = 0 <;> simp [State.lineCode, hdecode, hpoison, hfresh, hread]
  · simp [State.lineCode, hdecode]

theorem find_ne_zero_getD_eq_zero_iff (l : List Nat) : (l.find? (· != 0)).getD 0 = 0 ↔ ∀ c ∈ l, c = 0 := by
  induction l with
  | nil => simp
  | cons c l ih =>
    by_cases hc : c = 0
    · simpa [hc] using ih
    · simp [hc]

theorem rangeCode_eq_zero_iff (s : State) (a n : Nat) : s.rangeCode a n = 0 ↔ ∀ l ∈ linesOf a n, s.lineCode l = 0 := by
  rw [State.rangeCode, find_ne_zero_getD_eq_zero_iff]
  simp

theorem mem_linesOf (a n l : Nat) : l ∈ linesOf a n ↔ 0 < n ∧ ∃ k, a / 128 ≤ k ∧ k ≤ (a + n - 1) / 128 ∧ l = k * 128 := by
  unfold linesOf
  split
  · next h => simp [h]
  · next h =>
    simp only [upTo, List.mem_map, List.mem_range]
    constructor
    · rintro ⟨i, hi, rfl⟩
      exact ⟨by omega, a / 128 + i, by omega, by omega, rfl⟩
    · rintro ⟨-, k, hlo, hhi, rfl⟩
      exact ⟨k - a / 128, by omega, by rw [Nat.add_sub_cancel' hlo]⟩

/-- The lines of a range within another are among its lines. -/
theorem rangeCode_within {a n b m : Nat} (hrange : s.rangeCode a n = 0) (hlo : a ≤ b) (hhi : b + m ≤ a + n) :
    s.rangeCode b m = 0 := by
  rw [rangeCode_eq_zero_iff] at hrange ⊢
  intro l hl
  obtain ⟨hm, k, hklo, hkhi, rfl⟩ := (mem_linesOf b m l).mp hl
  exact hrange _ ((mem_linesOf a n _).mpr ⟨by omega, k, by omega, by omega, rfl⟩)

/-- A line of a range that begins with a line. -/
theorem lineCode_of_rangeCode {a n i : Nat} (hrange : s.rangeCode a n = 0) (ha : a % 128 = 0) (hi : 128 * i < n) :
    s.lineCode (a + 128 * i) = 0 :=
  (rangeCode_eq_zero_iff s a n).mp hrange _
    ((mem_linesOf a n _).mpr ⟨by omega, a / 128 + i, by omega, by omega, by omega⟩)

theorem lineCode_zero_mono (hwithdrawn : u.withdrawn = s.withdrawn)
    (hpoison : ∀ l, smGet 0 s.poison l = 0 → smGet 0 u.poison l = 0) {a : Nat} (h : s.lineCode a = 0) : u.lineCode a = 0 := by
  have hdecode : u.decodeCode a = s.decodeCode a := by
    rw [State.decodeCode, State.decodeCode, State.isWithdrawn, State.isWithdrawn, hwithdrawn]
  rw [lineCode_eq_zero_iff] at h ⊢
  exact ⟨hdecode.trans h.1, hpoison _ h.2⟩

theorem rangeCode_zero_mono (hwithdrawn : u.withdrawn = s.withdrawn)
    (hpoison : ∀ l, smGet 0 s.poison l = 0 → smGet 0 u.poison l = 0) {a n : Nat} (h : s.rangeCode a n = 0) :
    u.rangeCode a n = 0 := by
  rw [rangeCode_eq_zero_iff] at h ⊢
  exact fun l hl => lineCode_zero_mono hwithdrawn hpoison (h l hl)

end

/-! ### What a partition's stores leave unchanged -/

/-- State u differs from s by stores of partitions: in memory, the line marks, poison that whole lines cleared, and ledgers. -/
structure StoredOnly (s u : State) : Prop where
  frame : u = { s with mem := u.mem, poison := u.poison, memc := u.memc, parts := u.parts }
  part : ∀ p, u.part p = { s.part p with ledger := (u.part p).ledger }
  poison : ∀ l, smGet 0 s.poison l = 0 → smGet 0 u.poison l = 0

namespace StoredOnly

variable {s t u : State}

theorem refl (s : State) : StoredOnly s s := ⟨rfl, fun _ => rfl, fun _ h => h⟩

theorem trans (h : StoredOnly s t) (h' : StoredOnly t u) : StoredOnly s u := by
  refine ⟨?_, fun p => ?_, fun l hl => h'.poison l (h.poison l hl)⟩
  · have hframe := h'.frame
    rw [h.frame] at hframe
    exact hframe
  · have hpart := h'.part p
    rw [h.part p] at hpart
    exact hpart

theorem modLedger (s : State) (p : Nat) (f : Ledger → Ledger) : StoredOnly s (s.modLedger p f) := by
  refine ⟨rfl, fun p' => ?_, fun _ h => h⟩
  by_cases h : p' = p
  · subst h
    simp [State.modLedger]
  · simp [State.modLedger, h]

theorem storeLine (s : State) (a : Nat) (d : List Byte) : StoredOnly s (s.storeLine a d).1 := by
  have hframe := storeLine_frame s a d
  refine ⟨?_, fun p => ?_, fun l hl => ?_⟩
  · rw [hframe]
  · rw [hframe]
    rfl
  · unfold State.storeLine
    dsimp only
    split
    · exact hl
    · split
      · exact hl
      · dsimp only
        split
        · rw [smGet_smSet, hl, ite_self]
        · exact hl

theorem storeLineP (s : State) (p a : Nat) (d : List Byte) : StoredOnly s (s.storeLineP p a d).1 := by
  unfold State.storeLineP
  dsimp only
  exact ((modLedger s p _).trans (storeLine _ a d)).trans (modLedger _ p _)

theorem storeLinesP (p fuel : Nat) (s : State) (a : Nat) (d : List Byte) : StoredOnly s (State.storeLinesP p fuel s a d).1 := by
  induction fuel generalizing s a d with
  | zero => exact refl s
  | succ fuel ih =>
    unfold State.storeLinesP
    split
    · exact refl s
    · exact (storeLineP s p a _).trans (ih ..)

theorem storeP (s : State) (p a : Nat) (d : List Byte) : StoredOnly s (s.storeP p a d).1 := storeLinesP ..

variable (h : StoredOnly s u)
include h

theorem part_field {α : Type} (field : Part → α) (hfield : ∀ (x : Part) l, field { x with ledger := l } = field x) (p : Nat) :
    field (u.part p) = field (s.part p) := by
  rw [h.part p, hfield]

theorem tiles : u.tiles = s.tiles := (congrArg State.tiles h.frame :)

theorem withdrawn : u.withdrawn = s.withdrawn := (congrArg State.withdrawn h.frame :)

theorem inStacks (p a n : Nat) : u.inStacks p a n = s.inStacks p a n :=
  inStacks_congr (h.part_field Part.stks (fun _ _ => rfl) p) a n

theorem lgLimb (p a n : Nat) : u.lgLimb p a n = s.lgLimb p a n :=
  lgLimb_congr h.tiles (h.part_field Part.tiles (fun _ _ => rfl) p) a n

theorem lgValid (p a n : Nat) : u.lgValid p a n = s.lgValid p a n :=
  lgValid_congr h.tiles (h.part_field Part.tiles (fun _ _ => rfl) p) a n

theorem lineCode {a : Nat} (hline : s.lineCode a = 0) : u.lineCode a = 0 := lineCode_zero_mono h.withdrawn h.poison hline

theorem rangeCode {a n : Nat} (hrange : s.rangeCode a n = 0) : u.rangeCode a n = 0 :=
  rangeCode_zero_mono h.withdrawn h.poison hrange

end StoredOnly

/-! ### A store over good lines performs whole -/

theorem storeLineP_code_of_good (s : State) (p : Nat) {a : Nat} (d : List Byte) (h : s.lineCode a = 0) :
    (s.storeLineP p a d).2 = 0 := by
  obtain ⟨hdecode, hpoison⟩ := (lineCode_eq_zero_iff s a).mp h
  exact (storeLine_good (s.modLedger p fun l => l.wrIssue 1) hdecode (.inl hpoison)).1

theorem storeLinesP_code_of_good (p fuel : Nat) (s : State) (a : Nat) (d : List Byte) (ha : a % 128 = 0)
    (hgood : ∀ i, 128 * i < d.length → s.lineCode (a + 128 * i) = 0) : (State.storeLinesP p fuel s a d).2 = 0 := by
  induction fuel generalizing s a d with
  | zero => rfl
  | succ fuel ih =>
    unfold State.storeLinesP
    split
    · rfl
    · next hne =>
      have hlen : 0 < d.length := List.length_pos_iff.mpr (by simpa using hne)
      have hfirst := storeLineP_code_of_good s p (d.take (128 - 0)) (hgood 0 (by omega))
      rw [Nat.mul_zero, Nat.add_zero] at hfirst
      rw [ha]
      dsimp only
      rw [if_neg (not_not_intro hfirst)]
      refine ih _ _ _ (by omega) fun i hi => (StoredOnly.storeLineP s p a _).lineCode ?_
      rw [List.length_drop] at hi
      have hnext := hgood (i + 1) (by omega)
      rwa [show a + 128 * (i + 1) = a + (128 - 0) + 128 * i by omega] at hnext

/-- A store that begins with a line, over good lines. -/
theorem storeP_code_of_good (s : State) (p : Nat) {a : Nat} {d : List Byte} (ha : a % 128 = 0)
    (hrange : s.rangeCode a d.length = 0) : (s.storeP p a d).2 = 0 :=
  storeLinesP_code_of_good p _ s a d ha fun _ hi => lineCode_of_rangeCode hrange ha hi

end Sys2Proof.Machine
end

section
/-! Limb formats (R38 to R40) and body order (Table 3-3): the bytes a limb takes, and where a body's limbs stand in memory. -/

namespace Sys2Proof.Machine

/-! ### Lengths -/

theorem length_toBytes (n v : Nat) : (toBytes n v).length = n := by
  induction n generalizing v with
  | zero => rfl
  | succ n ih => simp [toBytes, ih]

theorem length_lgRead (s : State) (p a n : Nat) : (s.lgRead p a n).length = n := by
  induction n generalizing a with
  | zero => rfl
  | succ n ih => simp [State.lgRead, ih]

theorem length_packGroups (n : Nat) (r : List Nat) : (packGroups n r).length = 36 * n := by
  induction n generalizing r with
  | zero => rfl
  | succ n ih => simp only [packGroups, List.length_append, length_toBytes, ih]; omega

theorem length_unpackGroups (n : Nat) (b : List Byte) : (unpackGroups n b).length = 8 * n := by
  induction n generalizing b with
  | zero => rfl
  | succ n ih => simp only [unpackGroups, unpackGroup, upTo, List.length_append, List.length_map, List.length_range, ih]; omega

theorem length_packWide (r : List Nat) : (packWide r).length = 8 * r.length := by
  induction r with
  | nil => rfl
  | cons v r ih =>
    simp only [packWide, List.map_cons, List.flatten_cons, List.length_append, length_toBytes, List.length_cons] at ih ⊢
    omega

/-! ### Limbs of the module's rings -/

section
variable {n : Nat} (hn : 12 ≤ n)
include hn

/-- A limb takes whole lines in both formats. -/
theorem limbBytes_mod_line (wide : Bool) : limbBytes n wide % 128 = 0 := by
  obtain ⟨m, rfl⟩ := Nat.exists_eq_add_of_le' hn
  cases wide <;> simp only [limbBytes, Nat.pow_add, Bool.false_eq_true, if_true, if_false] <;> omega

theorem length_lgLimb (s : State) (p a : Nat) : (s.lgLimb p a n).length = 2 ^ n := by
  obtain ⟨m, rfl⟩ := Nat.exists_eq_add_of_le' hn
  simp only [State.lgLimb, unpack36, length_unpackGroups, length_lgRead, limbBytes, Nat.pow_add, Bool.false_eq_true, if_false]
  omega

theorem length_encodeElems (wide : Bool) {r : List Nat} (hr : r.length = 2 ^ n) :
    (encodeElems wide r).length = limbBytes n wide := by
  obtain ⟨m, rfl⟩ := Nat.exists_eq_add_of_le' hn
  cases wide with
  | true => simp only [encodeElems, length_packWide, limbBytes, hr, if_true]
  | false =>
    simp only [encodeElems, pack36, length_packGroups, ceilDiv, limbBytes, hr, Nat.pow_add, Bool.false_eq_true, if_false]
    omega

end

/-! ### The order of a body -/

/-- Limb i of a body has a place below the body's limbs under either ORDER. -/
theorem memLimb_lt {h : Header} {i : Nat} (hi : i < h.bodyLimbs) :
    memLimb h (i / max 1 (h.limbs + h.specials)) (i % max 1 (h.limbs + h.specials)) < h.bodyLimbs := by
  have hper := componentLimbs_pos hi
  rw [Nat.max_eq_right hper]
  simp only [memLimb, Header.bodyLimbs] at hi ⊢
  generalize h.limbs + h.specials = per at hi hper
  split
  · have hcomp : i / per < h.comps := (Nat.div_lt_iff_lt_mul hper).mpr hi
    calc i % per * h.comps + i / per < i % per * h.comps + h.comps := by omega
      _ = (i % per + 1) * h.comps := (Nat.succ_mul _ _).symm
      _ ≤ per * h.comps := Nat.mul_le_mul_right _ (Nat.mod_lt i hper)
      _ = h.comps * per := Nat.mul_comm _ _
  · rwa [Nat.div_add_mod']

/-- A limb's place in a body of n limbs lies in its bytes. -/
theorem limb_within {lb m n : Nat} (hm : m < n) : lb * m + lb ≤ lb * n := by
  calc lb * m + lb = lb * (m + 1) := (Nat.mul_succ _ _).symm
    _ ≤ lb * n := Nat.mul_le_mul_left _ hm

end Sys2Proof.Machine
end

section
/-! Loads and stores of limbs and ciphertexts (R29, R40, R55, R126, R128, R431): over good lines every limb moves, in order, and the
accumulated code stays 0. -/

namespace Sys2Proof.Machine

/-! ### Folds that meet no fault -/

section
variable {f : State × Nat → Nat → State × Nat} {step : Nat → State → State} {s : State}

/-- What every step keeps, all steps keep. -/
theorem each_keeps (P : State → Prop) (l : List Nat) (hs : P s) (hstep : ∀ u, P u → ∀ i ∈ l, P (step i u)) : P (s.each l step) := by
  induction l generalizing s with
  | nil => exact hs
  | cons i l ih =>
    exact ih (hstep s hs i List.mem_cons_self) fun u hu j hj => hstep u hu j (List.mem_cons_of_mem i hj)

/-- A fold that accumulates a code takes each step plainly where no step, in a state with what the steps keep, finds a code. -/
theorem foldl_eq_each (P : State → Prop) (l : List Nat) (hs : P s)
    (hstep : ∀ u, P u → ∀ i ∈ l, f (u, 0) i = (step i u, 0) ∧ P (step i u)) : l.foldl f (s, 0) = (s.each l step, 0) := by
  induction l generalizing s with
  | nil => rfl
  | cons i l ih =>
    obtain ⟨hfirst, hkept⟩ := hstep s hs i List.mem_cons_self
    rw [List.foldl_cons, hfirst, ih hkept fun u hu j hj => hstep u hu j (List.mem_cons_of_mem i hj)]
    rfl

theorem each_congr {step' : Nat → State → State} (l : List Nat) (h : ∀ i ∈ l, step i = step' i) : s.each l step = s.each l step' := by
  induction l generalizing s with
  | nil => rfl
  | cons i l ih =>
    change (step i s).each l step = (step' i s).each l step'
    rw [h i List.mem_cons_self, ih fun j hj => h j (List.mem_cons_of_mem i hj)]

end

/-! ### What a load leaves unchanged -/

theorem lgWriteLoop_frame (fuel : Nat) (s : State) (p a : Nat) (d : List Byte) (stamp : Nat) :
    ∃ x, State.lgWriteLoop fuel s p a d stamp = { s with tiles := x } := by
  induction fuel generalizing s a d with
  | zero => exact ⟨s.tiles, rfl⟩
  | succ fuel ih =>
    unfold State.lgWriteLoop
    split
    · exact ⟨s.tiles, rfl⟩
    · obtain ⟨x, hx⟩ := ih (s.lgPut p a (d.take (128 - a % 128)) stamp) (a + (128 - a % 128)) (d.drop (128 - a % 128))
      exact ⟨x, hx⟩

theorem lgWrite_frame (s : State) (p a : Nat) (d : List Byte) (stamp : Nat) :
    ∃ x, s.lgWrite p a d stamp = { s with tiles := x } := lgWriteLoop_frame ..

/-- State u differs from s by loads: in tiles and the memory controllers' line marks. -/
def LoadedOnly (s u : State) : Prop := ∃ x m, u = { s with tiles := x, memc := m }

namespace LoadedOnly

variable {s u : State}

theorem refl (s : State) : LoadedOnly s s := ⟨s.tiles, s.memc, rfl⟩

theorem lgWrite_touch (h : LoadedOnly s u) (a n p b : Nat) (d : List Byte) (stamp : Nat) :
    LoadedOnly s ((u.touch a n).lgWrite p b d stamp) := by
  obtain ⟨x, m, rfl⟩ := h
  obtain ⟨y, hy⟩ := lgWrite_frame (State.touch { s with tiles := x, memc := m } a n) p b d stamp
  exact ⟨y, _, hy⟩

variable (h : LoadedOnly s u)
include h

theorem inStacks (p a n : Nat) : u.inStacks p a n = s.inStacks p a n := by
  obtain ⟨x, m, rfl⟩ := h
  rfl

theorem noiseMissing (p a n : Nat) : u.noiseMissing p a n = s.noiseMissing p a n := by
  obtain ⟨x, m, rfl⟩ := h
  rfl

theorem load (a n : Nat) : u.load a n = s.load a n := by
  obtain ⟨x, m, rfl⟩ := h
  rfl

theorem rangeCode {a n : Nat} (hrange : s.rangeCode a n = 0) : u.rangeCode a n = 0 := by
  obtain ⟨x, m, hu⟩ := h
  exact rangeCode_zero_mono (by rw [hu]) (by rw [hu]; exact fun _ hl => hl) hrange

end LoadedOnly

/-! ### Limbs -/

section
variable {s : State} {p : Nat} {g : GInstr} {a : Nat}

theorem line_aligned {lb : Nat} (ha : a % 2048 = 0) (hlb : lb % 128 = 0) (c : Nat) : (a + lb * c) % 128 = 0 := by
  obtain ⟨k, rfl⟩ := Nat.dvd_of_mod_eq_zero hlb
  rw [Nat.mul_assoc]
  omega

theorem logN_of_stl_valid (hvalid : s.stlBad p g = false) : 12 ≤ g.f1 := by
  simp only [State.stlBad, Bool.or_eq_false_iff, decide_eq_false_iff_not] at hvalid
  omega

/-- STL of a region whose limbs are valid, to good lines of the partition's stacks. -/
theorem exec_stl_of_good (hg : gOk p g = true) (hfree : s.gFree p) (ha : (s.gEnd p 0).gAddr p g = a) (haligned : a % 2048 = 0)
    (hvalid : s.stlBad p g = false) {r : Region} (hr : (s.gEnd p 0).region p g.ry = r) {lb : Nat}
    (hlb : limbBytes g.f1 (g.imm8 == 1) = lb)
    (hgood : ∀ c, c < r.count → (s.gEnd p 0).inStacks p (a + lb * c) lb = true ∧ (s.gEnd p 0).rangeCode (a + lb * c) lb = 0 ∧
      (s.gEnd p 0).lgValid p (r.limbAt c).toNat (limbBytes g.f1 false) = true) :
    exec (.stl p g) s = .next ((s.gEnd p 0).each (upTo r.count) fun c u =>
      (u.storeP p (a + lb * c) (encodeElems (g.imm8 == 1) ((s.gEnd p 0).lgLimb p (r.limbAt c).toNat g.f1))).1) := by
  have hlogN := logN_of_stl_valid hvalid
  change guarded (gOk p g) (s.gCmd p 0x0104 g (runStl p g)) = _
  rw [guarded_gCmd_of_free hg hfree, runStl, gRun_of_valid p hvalid]
  dsimp only
  rw [ha, hr, hlb, if_neg (not_not_intro haligned), foldl_eq_each (StoredOnly (s.gEnd p 0)) _ (.refl _) ?limb]
  · rfl
  case limb =>
    intro u hu c hc
    obtain ⟨hin, hrange, hrows⟩ := hgood c (List.mem_range.mp hc)
    refine ⟨?_, hu.trans (.storeP u p _ _)⟩
    simp only [hu.inStacks, hu.lgValid, hu.lgLimb, hin, hrows, ne_eq, not_true_eq_false, if_false]
    refine Prod.ext rfl (storeP_code_of_good u p (line_aligned haligned (hlb ▸ limbBytes_mod_line hlogN _) c) ?_)
    rw [length_encodeElems hlogN _ (length_lgLimb hlogN ..), hlb]
    exact hu.rangeCode hrange

/-- LDL of good lines of the partition's stacks, canonical where it checks. -/
theorem exec_ldl_of_good (hg : gOk p g = true) (hfree : s.gFree p) (ha : (s.gEnd p 0).gAddr p g = a) (haligned : a % 2048 = 0)
    (hvalid : s.ldlBad p g = false) {r : Region} (hr : (s.gEnd p 0).region p g.rx = r) {lb : Nat}
    (hlb : limbBytes g.f1 (g.imm8 == 1) = lb) {raw : Nat → List Nat}
    (hraw : ∀ c, decodeElems (g.imm8 == 1) ((s.gEnd p 0).load (a + lb * c) lb) = raw c)
    (hgood : ∀ c, c < r.count → (s.gEnd p 0).inStacks p (a + lb * c) lb = true ∧
      (s.gEnd p 0).noiseMissing p (a + lb * c) lb = false ∧ (s.gEnd p 0).rangeCode (a + lb * c) lb = 0 ∧
      (g.canon = true → ldlPrime ((s.gEnd p 0).pset g.pset) g c ≠ 0 ∧
        canonBad (ldlPrime ((s.gEnd p 0).pset g.pset) g c) (raw c) = false)) :
    exec (.ldl p g) s = .next ((s.gEnd p 0).each (upTo r.count) fun c u =>
      (u.touch (a + lb * c) lb).lgWrite p (r.limbAt c).toNat (pack36 ((raw c).map fun v => v % 2 ^ 36)) 0) := by
  change guarded (gOk p g) (s.gCmd p 0x0103 g (runLdl p g)) = _
  rw [guarded_gCmd_of_free hg hfree, runLdl, gRun_of_valid p hvalid]
  dsimp only
  rw [ha, hr, hlb, if_neg (not_not_intro haligned), foldl_eq_each (LoadedOnly (s.gEnd p 0)) _ (.refl _) ?limb]
  · rfl
  case limb =>
    intro u hu c hc
    obtain ⟨hin, hnoise, hrange, hcanon⟩ := hgood c (List.mem_range.mp hc)
    have hchecked : ¬ (g.canon = true ∧ (ldlPrime ((s.gEnd p 0).pset g.pset) g c = 0 ∨
        canonBad (ldlPrime ((s.gEnd p 0).pset g.pset) g c) (raw c) = true)) := by
      rintro ⟨hc, hbad⟩
      simp [hcanon hc] at hbad
    refine ⟨?_, hu.lgWrite_touch ..⟩
    simp only [hu.load, hraw, hu.inStacks, hu.noiseMissing, hu.rangeCode hrange, hin, hnoise, hchecked, ne_eq, not_true_eq_false,
      if_false, Bool.false_eq_true]

end


/-! ### Ciphertexts -/

section
variable {s : State} {p : Nat} {g : GInstr} {a : Nat}

/-- Every field of a partition but its bindings is the same after a BIND (R126). -/
theorem part_bindEntry_field {α : Type} (t : State) (e v : Nat) (field : Part → α)
    (hf : ∀ (x : Part) b, field { x with binds := b } = field x) (p' : Nat) :
    field ((t.bindEntry p e v).part p') = field (t.part p') :=
  part_modPart_field t p _ field (fun x => hf x _) p'

theorem region_bindEntry (t : State) (e v w : Nat) : (t.bindEntry p e v).region p w = t.region p w :=
  region_congr (u := t.bindEntry p e v) (s := t) rfl (part_bindEntry_field t e v Part.seq (fun _ _ => rfl) p) w

theorem inStacks_bindEntry (t : State) (e v b n : Nat) : (t.bindEntry p e v).inStacks p b n = t.inStacks p b n :=
  inStacks_congr (part_bindEntry_field t e v Part.stks (fun _ _ => rfl) p) b n

theorem capacity_bindEntry (t : State) (e v : Nat) (r : Region) (n : Nat) :
    (t.bindEntry p e v).capacity p r n = t.capacity p r n :=
  capacity_congr (part_bindEntry_field t e v Part.tiles (fun _ _ => rfl) p) r n

theorem capacity_touch (t : State) (b m : Nat) (r : Region) (n : Nat) : (t.touch b m).capacity p r n = t.capacity p r n :=
  capacity_congr (u := t.touch b m) (s := t) rfl r n

theorem load_touch (t : State) (b m c n : Nat) : (t.touch b m).load c n = t.load c n := rfl

theorem load_bindEntry (t : State) (e v c n : Nat) : (t.bindEntry p e v).load c n = t.load c n := rfl

theorem pset_touch (t : State) (b m i : Nat) : (t.touch b m).pset i = t.pset i := rfl

theorem pset_bindEntry (t : State) (e v i : Nat) : (t.bindEntry p e v).pset i = t.pset i := rfl

theorem rangeCode_touch (t : State) (b m : Nat) {c n : Nat} (h : t.rangeCode c n = 0) : (t.touch b m).rangeCode c n = 0 :=
  rangeCode_zero_mono (s := t) (u := t.touch b m) rfl (fun _ hl => hl) h

theorem rangeCode_bindEntry (t : State) (e v : Nat) {c n : Nat} (h : t.rangeCode c n = 0) : (t.bindEntry p e v).rangeCode c n = 0 :=
  rangeCode_zero_mono (s := t) (u := t.bindEntry p e v) rfl (fun _ hl => hl) h

/-- A checked load of canonical limbs finds none that is not. -/
theorem canonical_body {ps : PrimeSet} {n : Nat} {entry : Nat → Nat} {raw : Nat → List Nat}
    (hcanon : ∀ i, i < n → g.canon = true → entry i < ps.primes.length ∧ canonBad (ps.q (entry i)) (raw i) = false) :
    ¬ (g.canon = true ∧
      (upTo n).any (fun i => decide (ps.primes.length ≤ entry i) || canonBad (ps.q (entry i)) (raw i)) = true) := by
  rintro ⟨hchecked, hbad⟩
  obtain ⟨i, hi, hbad⟩ := List.any_eq_true.mp hbad
  obtain ⟨hentry, hresidues⟩ := hcanon i (List.mem_range.mp hi) hchecked
  simp [hresidues, Nat.not_le.mpr hentry] at hbad

/-- What LDCT does once it has read a good header: the checks of its body, then the body and the entry. -/
def State.ldctBody (s : State) (p : Nat) (g : GInstr) (a : Nat) (r : Region) (h : Header) : State :=
  let n := if logNOk h then h.bodyLimbs else 0
  if logNOk h ∧ s.capacity p r h.logN < n then
    (s.modHdr p g.f0 (fun _ => { h with valid := false })).gFault p cBindingShort
  else
    let lb := limbBytes h.logN h.format
    let ps := s.pset g.pset
    let per := h.limbs + h.specials
    let place := fun i => a + 2048 + lb * memLimb h (i / max 1 per) (i % max 1 per)
    let raw := fun i => decodeElems h.format (s.load (place i) lb)
    if ¬ s.inStacks p (a + 2048) (lb * n) then
      ((s.dropLimbs p r h.logN).modHdr p g.f0 (fun _ => h)).gFault p cStreamRange
    else if g.canon ∧ (upTo n).any (fun i =>
        let e := ps.limbEntry h.limbs (i % max 1 per)
        decide (ps.primes.length ≤ e) || canonBad (ps.q e) (raw i)) then
      ((s.dropLimbs p r h.logN).modHdr p g.f0 (fun _ => h)).gFault p cNoncanonicalInput
    else
      let c := ((upTo n).map (fun i => s.rangeCode (place i) lb)).find? (· != 0) |>.getD 0
      let h := if c ≠ 0 then { h with poison := true, poisonCause := c } else h
      let body := (upTo n).map (fun i => (raw i).map (fun v => v % 2 ^ 36))
      let s := (s.gMem p (linesOf (a + 2048) (lb * n)) c).touch (a + 2048) (lb * n)
      (s.each (upTo body.length) fun i x => x.lgWrite p (r.limbAt i).toNat (pack36 (body.getD i [])) 0).modHdr p g.f0 fun _ => h

/-- LDCT reads the header of a line it can read, and goes on to the body. -/
theorem runLdct_eq (p : Nat) (g : GInstr) (s : State) : runLdct p g s = s.gRun p (s.ldctBad p g) fun t =>
    let a := t.gAddr p g
    let u := t.bindEntry p g.f0 g.rx
    let m := u.lineCode a
    let h := { headerOf (u.loadLE a 64) with bodyAddr := a + 2048 }
    if a % 2048 ≠ 0 then u.gFault p cParamRange
    else if ¬ u.inStacks p a 2048 then u.gFault p cStreamRange
    else if m ≠ 0 then ((u.touch a 64).gMem p [a] m).modHdr p g.f0 fun _ => { h with poison := true, poisonCause := m }
    else (u.touch a 64).ldctBody p g a (u.region p g.rx) h := rfl

/-- An LDCT whose header's line is good goes on to its body. -/
theorem runLdct_of_header (hvalid : s.ldctBad p g = false) (ha : (s.gEnd p 0).gAddr p g = a) (haligned : a % 2048 = 0)
    {h : Header} (hh : { headerOf ((s.gEnd p 0).loadLE a 64) with bodyAddr := a + 2048 } = h) {r : Region}
    (hr : (s.gEnd p 0).region p g.rx = r) (hin : (s.gEnd p 0).inStacks p a 2048 = true) (hline : (s.gEnd p 0).lineCode a = 0) :
    runLdct p g s = (((s.gEnd p 0).bindEntry p g.f0 g.rx).touch a 64).ldctBody p g a r h := by
  have hline' : ((s.gEnd p 0).bindEntry p g.f0 g.rx).lineCode a = 0 := hline
  rw [runLdct_eq, gRun_of_valid p hvalid]
  dsimp only
  rw [ha, region_bindEntry, hr, inStacks_bindEntry, if_neg (not_not_intro haligned), if_neg (not_not_intro hin),
    if_neg (not_not_intro hline'), ← hh]
  rfl

/-- A body that its binding holds, of good lines in the partition's stacks, canonical where it is checked, is placed whole. -/
theorem ldctBody_of_good {h : Header} {r : Region} {lb : Nat} (hlb : limbBytes h.logN h.format = lb) {place : Nat → Nat}
    (hplace : ∀ i, a + 2048 + lb * memLimb h (i / max 1 (h.limbs + h.specials)) (i % max 1 (h.limbs + h.specials)) = place i)
    {raw : Nat → List Nat} (hraw : ∀ i, decodeElems h.format (s.load (place i) lb) = raw i)
    (hfits : h.bodyLimbs ≤ s.capacity p r h.logN) (hsize : logNOk h = true ∨ h.bodyLimbs = 0)
    (hbody : s.inStacks p (a + 2048) (lb * h.bodyLimbs) = true)
    (hrange : ∀ i, i < h.bodyLimbs → s.rangeCode (place i) lb = 0)
    (hcanon : ∀ i, i < h.bodyLimbs → g.canon = true →
      (s.pset g.pset).limbEntry h.limbs (i % max 1 (h.limbs + h.specials)) < (s.pset g.pset).primes.length ∧
      canonBad ((s.pset g.pset).q ((s.pset g.pset).limbEntry h.limbs (i % max 1 (h.limbs + h.specials)))) (raw i) = false) :
    s.ldctBody p g a r h = State.modHdr ((s.touch (a + 2048) (lb * h.bodyLimbs)).each (upTo h.bodyLimbs) fun i u =>
      u.lgWrite p (r.limbAt i).toNat (pack36 ((raw i).map fun v => v % 2 ^ 36)) 0) p g.f0 fun _ => h := by
  have hcount : (if logNOk h = true then h.bodyLimbs else 0) = h.bodyLimbs := by
    rcases hsize with hok | hnone
    · rw [if_pos hok]
    · rw [hnone, ite_self]
  have hcode : (((upTo h.bodyLimbs).map fun i => s.rangeCode (place i) lb).find? (· != 0)).getD 0 = 0 := by
    rw [find_ne_zero_getD_eq_zero_iff, List.forall_mem_map]
    exact fun i hi => hrange i (List.mem_range.mp hi)
  have hlimbs : ((upTo h.bodyLimbs).map fun i => (raw i).map fun v => v % 2 ^ 36).length = h.bodyLimbs := by simp [upTo]
  simp only [State.ldctBody, hcount, Nat.not_lt.mpr hfits, and_false, hlb, hplace, hraw, hbody, canonical_body hcanon, hcode, hlimbs,
    ne_eq, not_true_eq_false, if_false, State.gMem, memFault_zero]
  congr 1
  refine each_congr _ fun i hi => ?_
  have hi := List.mem_range.mp hi
  simp [upTo, hi]

/-- LDCT of good lines of the partition's stacks, canonical where it checks. -/
theorem exec_ldct_of_good (hg : gOk p g = true) (hfree : s.gFree p) (ha : (s.gEnd p 0).gAddr p g = a) (haligned : a % 2048 = 0)
    (hvalid : s.ldctBad p g = false) {h : Header} (hh : { headerOf ((s.gEnd p 0).loadLE a 64) with bodyAddr := a + 2048 } = h)
    {r : Region} (hr : (s.gEnd p 0).region p g.rx = r) {lb : Nat} (hlb : limbBytes h.logN h.format = lb) {place : Nat → Nat}
    (hplace : ∀ i, a + 2048 + lb * memLimb h (i / max 1 (h.limbs + h.specials)) (i % max 1 (h.limbs + h.specials)) = place i)
    {raw : Nat → List Nat} (hraw : ∀ i, decodeElems h.format ((s.gEnd p 0).load (place i) lb) = raw i)
    (hin : (s.gEnd p 0).inStacks p a 2048 = true) (hline : (s.gEnd p 0).lineCode a = 0)
    (hfits : h.bodyLimbs ≤ (s.gEnd p 0).capacity p r h.logN) (hsize : logNOk h = true ∨ h.bodyLimbs = 0)
    (hbody : (s.gEnd p 0).inStacks p (a + 2048) (lb * h.bodyLimbs) = true)
    (hrange : ∀ i, i < h.bodyLimbs → (s.gEnd p 0).rangeCode (place i) lb = 0)
    (hcanon : ∀ i, i < h.bodyLimbs → g.canon = true →
      ((s.gEnd p 0).pset g.pset).limbEntry h.limbs (i % max 1 (h.limbs + h.specials)) < ((s.gEnd p 0).pset g.pset).primes.length ∧
      canonBad (((s.gEnd p 0).pset g.pset).q (((s.gEnd p 0).pset g.pset).limbEntry h.limbs (i % max 1 (h.limbs + h.specials))))
        (raw i) = false) :
    exec (.ldct p g) s = .next (State.modHdr
      (((((s.gEnd p 0).bindEntry p g.f0 g.rx).touch a 64).touch (a + 2048) (lb * h.bodyLimbs)).each (upTo h.bodyLimbs) fun i u =>
        u.lgWrite p (r.limbAt i).toNat (pack36 ((raw i).map fun v => v % 2 ^ 36)) 0) p g.f0 fun _ => h) := by
  change guarded (gOk p g) (s.gCmd p 0x0100 g (runLdct p g)) = _
  rw [guarded_gCmd_of_free hg hfree, runLdct_of_header hvalid ha haligned hh hr hin hline]
  refine congrArg Host.Outcome.next (ldctBody_of_good hlb hplace ?raw ?fits hsize ?body (fun i hi => ?range) ?canon)
  case raw => simpa only [load_touch, load_bindEntry] using hraw
  case fits => simpa only [capacity_touch, capacity_bindEntry] using hfits
  case body => simpa only [inStacks_touch, inStacks_bindEntry] using hbody
  case range => exact rangeCode_touch _ _ _ (rangeCode_bindEntry _ _ _ (hrange i hi))
  case canon => simpa only [pset_touch, pset_bindEntry] using hcanon

/-- Limb i of a body that STCT stores from region r, in the header's format and order, and the state after it. -/
def State.stctLimb (t : State) (p a : Nat) (h : Header) (r : Region) (i : Nat) (u : State) : State × Nat :=
  u.storeP p (a + 2048 + limbBytes h.logN h.format * memLimb h (i / max 1 (h.limbs + h.specials)) (i % max 1 (h.limbs + h.specials)))
    (encodeElems h.format (t.lgLimb p (r.limbAt i).toNat h.logN))

section
variable {t : State} {h : Header} {n : Nat} (hn : (if logNOk h = true then h.bodyLimbs else 0) = n) (haligned : a % 2048 = 0)
  (hrange : t.rangeCode a (2048 + limbBytes h.logN h.format * n) = 0)
include hn haligned hrange

/-- Each limb of a body lies in good lines of the object, which the stores before it keep good. -/
theorem stctLimb_code {u : State} (hu : StoredOnly t u) (r : Region) {i : Nat} (hi : i < n) : (t.stctLimb p a h r i u).2 = 0 := by
  obtain ⟨hok, rfl⟩ : logNOk h = true ∧ h.bodyLimbs = n := by
    split at hn
    · exact ⟨‹_›, hn⟩
    · omega
  have hlogN : 12 ≤ h.logN := by simp only [logNOk, Bool.and_eq_true, decide_eq_true_eq] at hok; omega
  refine storeP_code_of_good u p (line_aligned (by omega) (limbBytes_mod_line hlogN _) _) (hu.rangeCode ?_)
  rw [length_encodeElems hlogN _ (length_lgLimb hlogN ..)]
  have hwithin := limb_within (lb := limbBytes h.logN h.format) (memLimb_lt hi)
  exact rangeCode_within hrange (by omega) (by omega)

theorem stctBody_fold (r : Region) : (upTo n).foldl (fun (acc : State × Nat) i =>
      ((t.stctLimb p a h r i acc.1).1, if acc.2 ≠ 0 then acc.2 else (t.stctLimb p a h r i acc.1).2)) (t, 0) =
    (t.each (upTo n) fun i u => (t.stctLimb p a h r i u).1, 0) := by
  refine foldl_eq_each (StoredOnly t) _ (.refl t) fun u hu i hi => ⟨?_, hu.trans (.storeP ..)⟩
  simp only [stctLimb_code hn haligned hrange hu r (List.mem_range.mp hi), ne_eq, not_true_eq_false, if_false]

end

theorem storedOnly_stctBody (t : State) (h : Header) (r : Region) (n : Nat) :
    StoredOnly t (t.each (upTo n) fun i u => (t.stctLimb p a h r i u).1) :=
  each_keeps (StoredOnly t) _ (.refl t) fun _ hu _ _ => hu.trans (.storeP ..)

/-- STCT of valid limbs to good lines of the partition's stacks. -/
theorem exec_stct_of_good (hg : gOk p g = true) (hfree : s.gFree p) (ha : (s.gEnd p 0).gAddr p g = a) (haligned : a % 2048 = 0)
    (hvalid : s.stctBad p g = false) {h : Header} (hh : (s.gEnd p 0).hdr p g.f0 = h) {r : Region}
    (hr : ((s.gEnd p 0).bound p g.f0).getD {} = r) {n : Nat} (hn : (if logNOk h = true then h.bodyLimbs else 0) = n)
    (hfits : n ≤ (s.gEnd p 0).capacity p r h.logN)
    (hin : (s.gEnd p 0).inStacks p a (2048 + limbBytes h.logN h.format * n) = true)
    (hrange : (s.gEnd p 0).rangeCode a (2048 + limbBytes h.logN h.format * n) = 0)
    (hrows : ∀ i, i < n → (s.gEnd p 0).lgValid p (r.limbAt i).toNat (limbBytes h.logN false) = true) :
    exec (.stct p g) s = .next (State.modHdr
      (((s.gEnd p 0).each (upTo n) fun i u => ((s.gEnd p 0).stctLimb p a h r i u).1).storeP p a
        (toBytes 64 (storedHeader h (a + 2048)))).1 p g.f0 fun x => { x with bodyAddr := a + 2048 }) := by
  change guarded (gOk p g) (s.gCmd p 0x0101 g (runStct p g)) = _
  rw [guarded_gCmd_of_free hg hfree, runStct, gRun_of_valid p hvalid]
  generalize s.gEnd p 0 = t at *
  have hvalidRows : (upTo n).any (fun i => !t.lgValid p (r.limbAt i).toNat (limbBytes h.logN false)) = false := by
    simpa [upTo] using hrows
  have hheader : ((t.each (upTo n) fun i u => (t.stctLimb p a h r i u).1).storeP p a (toBytes 64 (storedHeader h (a + 2048)))).2 = 0 := by
    refine storeP_code_of_good _ p (by omega) ((storedOnly_stctBody t h r n).rangeCode ?_)
    rw [length_toBytes]
    exact rangeCode_within hrange (by omega) (by omega)
  have hfold := stctBody_fold (p := p) hn haligned hrange r
  unfold State.stctLimb at hfold hheader ⊢
  simp only [ha, hh, hr, hn, haligned, Nat.not_lt.mpr hfits, hin, hvalidRows, hfold, hheader, ne_eq, not_true_eq_false, Bool.false_eq_true,
    if_false]

end

/-- Settles O14: the limbs of a transfer that meets no fault move one after another; a store keeps good lines good, a load keeps
memory. -/
theorem limbAndCiphertextMoves : Obligations.LimbAndCiphertextMoves := by
  unfold Obligations.LimbAndCiphertextMoves
  refine ⟨fun s p g hg hfree haligned => ⟨fun hvalid hgood => ?ldl, fun hvalid hgood => ?stl⟩,
    fun s p g hg hfree haligned => ⟨fun hvalid hin hline hfits hsize hbody hgood => ?ldct,
      fun hvalid hfits hin hrange hrows => ?stct⟩⟩
  case ldl => exact exec_ldl_of_good hg hfree rfl haligned hvalid rfl rfl (fun _ => rfl) hgood
  case stl => exact exec_stl_of_good hg hfree rfl haligned hvalid rfl rfl hgood
  case ldct =>
    exact exec_ldct_of_good hg hfree rfl haligned hvalid rfl rfl rfl (fun _ => rfl) (fun _ => rfl) hin hline hfits hsize hbody
      (fun i hi => (hgood i hi).1) (fun i hi => (hgood i hi).2)
  case stct => exact exec_stct_of_good hg hfree rfl haligned hvalid rfl rfl rfl hfits hin hrange hrows

end Sys2Proof.Machine
end

section
/-! Fetched descriptors and their completions (R336, R337): a queue's descriptor of some opcode runs its action, and its completion
changes the host interface and the dwells of the power controller alone. -/

namespace Sys2Proof.Machine

/-! ### Running a descriptor -/

/-- Queue q of function n holds descriptor d, which is not running yet, and the service core of d's partition runs. -/
structure State.Fetched (s : State) (n q : Nat) (d : Desc) : Prop where
  fn : n < 9
  queue : q < 8
  desc : (s.qp n q).desc = some d
  waiting : d.running = false
  core : (s.core (s.part d.part).core).state = 0

section
variable {s : State} {n q : Nat} {d : Desc}

/-- A fetched descriptor with the opcode of an action runs that action. -/
theorem withDesc_of_fetched (h : s.Fetched n q d) {op : Nat} (hop : d.entry.opcode = op) (f : Desc → State) :
    s.withDesc n q op f = f d := by
  obtain ⟨-, -, hdesc, hwaiting, hcore⟩ := h
  have hready : d.entry.opcode = op ∧ ¬ d.running = true ∧ (s.core (s.part d.part).core).state = 0 :=
    ⟨hop, by simp [hwaiting], hcore⟩
  simp only [State.withDesc, hdesc, if_pos hready]

theorem descOk_of_fetched (h : s.Fetched n q d) : descOk n q = true := by
  simp [descOk, h.fn, h.queue]

/-- The command of a fetched descriptor answers what its action leaves. -/
theorem exec_of_fetched (h : s.Fetched n q d) {op : Nat} (hop : d.entry.opcode = op) {c : Instr} {f : Desc → State}
    (hexec : exec c s = guarded (descOk n q) (s.withDesc n q op f)) : exec c s = .next (f d) := by
  rw [hexec, guarded_next (descOk_of_fetched h), withDesc_of_fetched h hop]

end

/-! ### Completions -/

section
variable (s : State) (n q : Nat)

theorem msi_frame (v : Nat) : ∃ x, s.msi n v = { s with host := x } := by
  unfold State.msi
  split <;> exact ⟨_, rfl⟩

theorem signal_frame : ∃ x, s.signal n q = { s with host := x } := by
  unfold State.signal
  dsimp only
  split
  · obtain ⟨x, hx⟩ := msi_frame (s.modQp n q fun y => { y with unsignalled := 0 }) n (s.qp n q).vec
    exact ⟨x, hx⟩
  · exact ⟨s.host, rfl⟩

theorem ltr_frame : ∃ x w, s.ltr = { s with host := x, pwr := w } ∧ x.fns = s.host.fns := by
  unfold State.ltr
  dsimp only
  generalize (if s.queueBusy = true then _ else _ : Nat × Nat × Bool) = latency
  split <;> exact ⟨_, _, rfl, rfl⟩

/-- A completion changes the host interface and the dwells of the power controller alone (R337, R342). -/
theorem post_frame (status result : Nat) : ∃ x w, s.post n q status result = { s with host := x, pwr := w } := by
  unfold State.post
  dsimp only
  split
  · exact ⟨s.host, s.pwr, rfl⟩
  · generalize hposted : State.modQp _ n q _ = posted
    obtain ⟨x, hx⟩ := signal_frame posted n q
    obtain ⟨y, w, hy, -⟩ := ltr_frame { posted with host := x }
    exact ⟨y, w, by rw [hx, hy, ← hposted]; rfl⟩

section
variable (status result : Nat)

@[simp] theorem post_mem : (s.post n q status result).mem = s.mem := by
  obtain ⟨x, w, h⟩ := post_frame s n q status result
  rw [h]

@[simp] theorem post_poison : (s.post n q status result).poison = s.poison := by
  obtain ⟨x, w, h⟩ := post_frame s n q status result
  rw [h]

@[simp] theorem post_tiles : (s.post n q status result).tiles = s.tiles := by
  obtain ⟨x, w, h⟩ := post_frame s n q status result
  rw [h]

@[simp] theorem post_seqs : (s.post n q status result).seqs = s.seqs := by
  obtain ⟨x, w, h⟩ := post_frame s n q status result
  rw [h]

@[simp] theorem post_seq (z : Nat) : (s.post n q status result).seq z = s.seq z := by
  rw [State.seq, post_seqs, State.seq]

@[simp] theorem post_part (p : Nat) : (s.post n q status result).part p = s.part p := by
  obtain ⟨x, w, h⟩ := post_frame s n q status result
  rw [h]
  rfl

end

theorem msi_desc (v m r : Nat) : ((s.msi n v).qp m r).desc = (s.qp m r).desc := by
  unfold State.msi
  split
  · simp only [State.qp, State.modFn_fn]
    split
    · next h => rw [h]
    · rfl
  · rfl

theorem signal_desc (m r : Nat) : ((s.signal n q).qp m r).desc = (s.qp m r).desc := by
  unfold State.signal
  dsimp only
  split
  · rw [msi_desc, State.modQp_qp]
    split
    · next h => rw [h.1, h.2]
    · rfl
  · rfl

theorem ltr_qp (m r : Nat) : s.ltr.qp m r = s.qp m r := by
  obtain ⟨x, w, h, hfns⟩ := ltr_frame s
  rw [h]
  simp only [State.qp, State.fn, hfns]

/-- A completion ends the descriptor of its queue (R337). -/
theorem post_desc (status result : Nat) : ((s.post n q status result).qp n q).desc = none := by
  unfold State.post
  dsimp only
  split
  · assumption
  · rw [ltr_qp, signal_desc, State.modQp_qp, if_pos ⟨rfl, rfl⟩]

end

end Sys2Proof.Machine
end

section
/-! What records of errors and control packets leave unchanged (R300, R317, R400): memory, the sequencers, and every partition but its
count of events. -/

namespace Sys2Proof.Machine

/-- State u differs from s, as far as memory, sequencers and partitions go, in the partitions' counts of events alone. -/
structure EventsOnly (s u : State) : Prop where
  mem : u.mem = s.mem
  seqs : u.seqs = s.seqs
  part : ∀ p, u.part p = { s.part p with events := (u.part p).events }

namespace EventsOnly

variable {s t u : State}

theorem of_eq (hmem : u.mem = s.mem) (hseqs : u.seqs = s.seqs) (hparts : u.parts = s.parts) : EventsOnly s u := by
  refine ⟨hmem, hseqs, fun p => ?_⟩
  rw [State.part, State.part, hparts]

theorem refl (s : State) : EventsOnly s s := of_eq rfl rfl rfl

theorem trans (h : EventsOnly s t) (h' : EventsOnly t u) : EventsOnly s u := by
  refine ⟨h'.mem.trans h.mem, h'.seqs.trans h.seqs, fun p => ?_⟩
  have hpart := h'.part p
  rw [h.part p] at hpart
  exact hpart

theorem ite {c : Prop} [Decidable c] (h : EventsOnly s t) (h' : EventsOnly s u) : EventsOnly s (if c then t else u) := by
  split
  · exact h
  · exact h'

theorem foldl {α : Type} (f : State → α → State) (hf : ∀ x a, EventsOnly x (f x a)) (l : List α) (s : State) :
    EventsOnly s (l.foldl f s) :=
  List.foldlRecOn l f (refl s) fun _ hb a _ => hb.trans (hf _ a)

/-- A field of a partition other than its count of events. -/
theorem part_field (h : EventsOnly s u) {α : Type} (field : Part → α)
    (hfield : ∀ (x : Part) k, field { x with events := k } = field x) (p : Nat) : field (u.part p) = field (s.part p) := by
  rw [h.part p, hfield]

variable (s)

theorem countEvent (p : Nat) (f : Nat → Nat) : EventsOnly s (s.modPart p fun x => { x with events := f x.events }) := by
  refine ⟨rfl, rfl, fun p' => ?_⟩
  by_cases h : p' = p
  · subst h
    simp
  · simp [h]

theorem evRecord : EventsOnly s s.evRecord := by
  unfold State.evRecord
  refine .ite (refl s) ?_
  obtain ⟨x, hx⟩ := msi_frame (s.modFn 0 fun x => { x with errorRecord := true }) 0 15
  rw [hx]
  exact of_eq rfl rfl rfl

theorem record (code : Nat) (l : ErrLoc) : EventsOnly s (s.record code l) := by
  unfold State.record
  split
  · exact of_eq rfl rfl rfl
  · refine .trans (.ite ?counted ?stored) (evRecord _)
    case counted =>
      refine .trans ?_ (countEvent _ l.part (satInc 16))
      exact of_eq rfl rfl rfl
    case stored => exact of_eq rfl rfl rfl

theorem memFault (p requester : Nat) (l : List Nat) (code : Nat) : EventsOnly s (s.memFault p requester l code) :=
  .ite (record ..) (refl s)

theorem routeCtl (x : Packet) : EventsOnly s (s.routeCtl x) := by
  unfold State.routeCtl
  split
  · exact of_eq rfl rfl rfl
  · exact record ..

theorem sendCtl (dests : List Nat) (subtype : Nat) (fields : List Nat) : EventsOnly s (s.sendCtl dests subtype fields) :=
  foldl _ (fun x _ => .trans (t := x.noteCtl _ subtype fields) (of_eq rfl rfl rfl) (routeCtl ..)) dests s

/-! ### A package that has loaded into the job's partition (R317) -/

theorem newCeilings : EventsOnly s s.newCeilings := by
  unfold State.newCeilings
  extract_lets fab pwr u v
  have hu : EventsOnly s u := of_eq rfl rfl rfl
  have hsent : EventsOnly u v := sendCtl ..
  refine .ite (hu.trans (hsent.trans ?_)) hu
  exact of_eq rfl rfl rfl

theorem setJob (status : Nat) : EventsOnly s (s.setJob status) := by
  refine .trans ?_ (newCeilings _)
  exact of_eq rfl rfl rfl

theorem tryJoin : EventsOnly s s.tryJoin := by
  unfold State.tryJoin
  refine .ite (refl s) (.ite (refl s) (.ite (sendCtl ..) (.ite ?mismatch (.ite ?joined (refl s)))))
  case mismatch => exact (sendCtl ..).trans (setJob ..)
  case joined => exact (sendCtl ..).trans (setJob ..)

theorem joinJob : EventsOnly s s.joinJob := by
  unfold State.joinJob
  refine .ite (refl s) (.trans ?_ (tryJoin _))
  exact of_eq rfl rfl rfl

end EventsOnly

end Sys2Proof.Machine
end

section
/-! Package descriptors (R132, R136, R336): a package that loads is listed, an idle one leaves its partition and the kernel table, and
a RUN starts its kernel on the idle sequencer. -/

namespace Sys2Proof.Machine

/-! ### Sparse maps written key by key -/

section
variable {α : Type} [DecidableEq α] (d : α) (m : SMap α)

/-- n values written from key k up. -/
theorem smGet_foldl_smSet (f : Nat → α) (k n j : Nat) :
    smGet d ((upTo n).foldl (fun m i => smSet d m (i + k) (f i)) m) j = if k ≤ j ∧ j < n + k then f (j - k) else smGet d m j := by
  induction n with
  | zero => rw [if_neg (by omega)]; rfl
  | succ n ih =>
    rw [upTo, List.range_succ, List.foldl_append, List.foldl_cons, List.foldl_nil, smGet_smSet]
    split
    · next h => rw [if_pos (by omega), h, Nat.add_sub_cancel]
    · next h =>
      rw [upTo] at ih
      rw [ih]
      congr 1
      simp only [eq_iff_iff]
      omega

/-- A key that is cleared stays cleared. -/
theorem smGet_foldl_clear {β : Type} (key : β → Nat) (l : List β) {j : Nat} (h : smGet d m j = d) :
    smGet d (l.foldl (fun m b => smSet d m (key b) d) m) j = d := by
  refine List.foldlRecOn (motive := fun m => smGet d m j = d) l _ h fun m hm b _ => ?_
  rw [smGet_smSet, hm, ite_self]

/-- Clearing keys one after the other clears each of them. -/
theorem smGet_foldl_clear_of_mem {β : Type} (key : β → Nat) (l : List β) {b : β} (hb : b ∈ l) :
    smGet d (l.foldl (fun m b => smSet d m (key b) d) m) (key b) = d := by
  induction l generalizing m with
  | nil => cases hb
  | cons c l ih =>
    rw [List.foldl_cons]
    rcases List.mem_cons.mp hb with rfl | hb
    · exact smGet_foldl_clear _ _ key l (by rw [smGet_smSet, if_pos rfl])
    · exact ih _ hb

end

/-! ### Loading -/

/-- An answer r has property P where its code is 0. -/
def IfDone {α : Type} (code : α → Nat) (P : α → Prop) (r : α) : Prop := code r = 0 → P r

/-- The code of an answer with a RESULT. -/
def answerCode (r : State × Nat × Nat) : Nat := r.2.1

section
variable {α : Type} {f : α → Nat} {P : α → Prop}

theorem ifDone_of {r : α} (h : P r) : IfDone f P r := fun _ => h

theorem ifDone_ite {c : Prop} [Decidable c] {r r' : α} (h : c → IfDone f P r) (h' : ¬ c → IfDone f P r') :
    IfDone f P (if c then r else r') := by
  split
  · exact h ‹_›
  · exact h' ‹_›

theorem ifDone_of_refused {P : State × Nat × Nat → Prop} {s : State} {code result : Nat} (h : code ≠ 0) :
    IfDone answerCode P (s, code, result) := fun hcode => absurd hcode h

end

/-- The package that an answer names is listed in partition p. -/
def Listed (p : Nat) (r : State × Nat × Nat) : Prop := (r.1.part p).pkgs.any (fun g => g.id == r.2.2) = true

section
variable {p : Nat}

theorem ifDone_of_listed {s : State} {result : Nat} (h : (s.part p).pkgs.any (fun g => g.id == result) = true) :
    IfDone answerCode (Listed p) (s, 0, result) := ifDone_of h

/-- Joining the job keeps the packages of every partition. -/
theorem pkgs_joinJob (s : State) : (s.joinJob.part p).pkgs = (s.part p).pkgs :=
  (EventsOnly.joinJob s).part_field Part.pkgs (fun _ _ => rfl) p

/-- A translation that succeeds adds its package to the list (Table 5-9, step 7). -/
theorem listed_translatePackage (s : State) (b : List Byte) : IfDone answerCode (Listed p) (s.translatePackage p b) := by
  unfold State.translatePackage
  extract_lets x vs level rel
  refine ifDone_ite (fun _ => ifDone_of_refused (by decide)) fun _ => ifDone_ite (fun _ => ifDone_of_refused (by decide)) fun _ => ?_
  split
  next => exact ifDone_of_refused (by decide)
  next v _ =>
    extract_lets ks src
    split
    next => exact ifDone_of_refused (by decide)
    next =>
      refine ifDone_ite (fun _ => ifDone_of_refused (by decide)) fun _ => ?_
      split
      next => exact ifDone_of_refused (by decide)
      next es _ =>
        refine ifDone_ite (fun _ => ifDone_of_refused (by decide)) fun _ => ?_
        extract_lets translated g loaded
        have hloaded : (loaded.part p).pkgs.any (fun y => y.id == g.id) = true := by simp [loaded]
        refine ifDone_of_listed ?_
        split
        · rw [pkgs_joinJob, hloaded]
        · exact hloaded

/-- A package that loads, or that was loaded before, is listed (R132, R136). -/
theorem listed_loadPackage (s : State) (a : Nat) : IfDone answerCode (Listed p) (s.loadPackage p a) := by
  unfold State.loadPackage
  extract_lets h c total n b t
  refine ifDone_ite ifDone_of_refused fun _ => ?_
  refine ifDone_ite (fun _ => ifDone_of_refused (by decide)) fun _ => ?_
  refine ifDone_ite ifDone_of_refused fun _ => ?_
  refine ifDone_ite (fun _ => ifDone_of_refused (by decide)) fun _ => ?_
  refine ifDone_ite (fun hlisted => ?_) fun _ => ?_
  · exact ifDone_of_listed hlisted
  · exact listed_translatePackage t b

end

/-! ### Unloading -/

section
variable {s : State} {p : Nat} (g : Package) (hidle : (s.pseq p).kern = none) (hjob : s.fab.cfg.jobPart ≠ p)
include hidle hjob

/-- A package of an idle sequencer leaves the list and the kernel table; the last one takes the results level along (R136). -/
theorem unloadPackage_of_idle : ∃ u, s.unloadPackage p g = (u, 0) ∧
    (u.part p).pkgs = (s.part p).pkgs.filter (fun x => x.id != g.id) ∧
    (∀ k ∈ g.kernels, (u.seq (s.part p).seq).kt k.ktab = 0) ∧ ((u.part p).pkgs = [] → (u.part p).rlActive = 0) := by
  unfold State.unloadPackage
  simp only [hidle, Bool.false_eq_true, if_false]
  have hcleared : ∀ k ∈ g.kernels, ((s.dropPackage p g).seq (s.part p).seq).kt k.ktab = 0 := fun k hk => by
    rw [State.dropPackage, State.modSeq_seq, if_pos rfl, Seq.kt]
    exact smGet_foldl_clear_of_mem 0 _ PkgKernel.ktab g.kernels hk
  generalize hlisted : (s.dropPackage p g).modPart p (fun x => { x with pkgs := x.pkgs.filter fun e => e.id != g.id }) = t
  have hpkgs : (t.part p).pkgs = (s.part p).pkgs.filter fun e => e.id != g.id := by
    rw [← hlisted, State.modPart_part, if_pos rfl]
    rfl
  have hktab : ∀ k ∈ g.kernels, (t.seq (s.part p).seq).kt k.ktab = 0 := by
    rw [← hlisted]
    exact hcleared
  have hjob' : t.fab.cfg.jobPart ≠ p := by
    rw [← hlisted]
    exact hjob
  split
  case isTrue hempty =>
    refine ⟨t.modPart p fun x => { x with rlActive := 0 }, ?_, ?_, hktab, fun _ => ?_⟩
    · exact congrArg (·, 0) (if_neg hjob')
    · rw [State.modPart_part, if_pos rfl, hpkgs]
    · rw [State.modPart_part, if_pos rfl]
  case isFalse hmore =>
    exact ⟨t, rfl, hpkgs, hktab, fun hnone => absurd (by rw [hnone]; rfl) hmore⟩

end

/-! ### Starting a kernel -/

section
variable (s : State)

theorem each_modTile_frame (l : List Nat) (f : Nat → Tile → Tile) :
    ∃ x, (s.each l fun t y => y.modTile t (f t)) = { s with tiles := x } := by
  refine each_keeps (fun u => ∃ x, u = { s with tiles := x }) l ⟨s.tiles, rfl⟩ fun u hu t _ => ?_
  obtain ⟨x, rfl⟩ := hu
  exact ⟨_, rfl⟩

section
variable (l : List Nat) (f : Nat → Tile → Tile)

@[simp] theorem each_modTile_mem : (s.each l fun t y => y.modTile t (f t)).mem = s.mem := by
  obtain ⟨x, h⟩ := each_modTile_frame s l f
  rw [h]

@[simp] theorem each_modTile_host : (s.each l fun t y => y.modTile t (f t)).host = s.host := by
  obtain ⟨x, h⟩ := each_modTile_frame s l f
  rw [h]

@[simp] theorem each_modTile_seq (z : Nat) : (s.each l fun t y => y.modTile t (f t)).seq z = s.seq z := by
  obtain ⟨x, h⟩ := each_modTile_frame s l f
  rw [h]
  rfl

end

@[simp] theorem stir_seq (z : Nat) : s.stir.seq z = s.seq z := rfl

section
variable (p : Nat)

@[simp] theorem clearMatrix_mem : (s.clearMatrix p).mem = s.mem := each_modTile_mem s _ _

@[simp] theorem clearMatrix_host : (s.clearMatrix p).host = s.host := each_modTile_host s _ _

@[simp] theorem clearMatrix_seq (z : Nat) : (s.clearMatrix p).seq z = s.seq z := each_modTile_seq s _ _ z

end

variable {s} {z p : Nat}

/-- A valid kernel starts on an idle sequencer (R107): it runs with the registers it was started with, memory and the host interface as
they were. -/
theorem startKernel_of_valid {kernel replays : Nat} (noList : Bool) (o : Option RunOwner) (hidle : (s.seq z).state = 0)
    (hpart : s.seqPart z = some p) (hvalid : ktValid ((s.seq z).kt kernel) = true) (hreplays : replays ≠ 0) :
    ∃ (v : State) (k : Kern), s.startKernel z kernel replays noList o =
        v.modSeq z (fun x => { x with state := 1, count := 0, replayIndex := 0, kern := some k }) ∧
      v.seq z = { s.seq z with kernel := kernel, replays := replays, noList := noList } ∧ v.mem = s.mem ∧ v.host = s.host := by
  have hpart' : ∀ f, (s.modSeq z f).seqPart z = some p := fun _ => hpart
  unfold State.startKernel
  simp only [hidle, hpart', hvalid, hreplays, ne_eq, not_true_eq_false, if_false]
  refine ⟨_, _, rfl, ?seq, ?mem, ?host⟩
  case seq =>
    simp only [State.modPart_seq, each_modTile_seq, clearMatrix_seq, stir_seq, State.modSeq_seq, if_true, hidle]
  case mem =>
    simp only [State.modPart_mem, each_modTile_mem, clearMatrix_mem]
    rfl
  case host =>
    simp only [State.modPart_host, each_modTile_host, clearMatrix_host]
    rfl

/-! ### RUN -/

/-- A RUN whose kernel is valid starts it on the idle sequencer with its list or its defaults (R107, R125, R336). -/
theorem startRun_of_valid {n q : Nat} {d : Desc} {k : PkgKernel} (hidle : (s.seq (s.part d.part).seq).state = 0)
    (hpart : s.seqPart (s.part d.part).seq = some p) (hvalid : ktValid ((s.seq (s.part d.part).seq).kt k.ktab) = true)
    (hreplays : bits d.entry.a1 31 8 ≠ 0) :
    ∃ (u : State) (x : Seq), s.startRun n q d k = u ∧ u.seq (s.part d.part).seq = x ∧ x.state = 1 ∧ x.kernel = k.ktab ∧
      x.replays = bits d.entry.a1 31 8 ∧ x.noList = bit d.entry.a1 32 ∧ (bit d.entry.a1 32 = false → x.replayBase = d.entry.a2) ∧
      (bit d.entry.a1 32 = true → ∀ i, i < 12 → x.reg (4 + i) = k.defaults.getD i 0 % 2 ^ 64) ∧
      (u.qp n q).desc = some { d with running := true } ∧ u.mem = s.mem := by
  unfold State.startRun
  extract_lets e z noList t v own w
  have hw : w.seq z = { s.seq z with
      replayBase := if noList then (s.seq z).replayBase else e.a2
      params := own (if noList then (upTo 12).foldl (fun m i => smSet 0 m (i + 4) (BitVec.ofNat 64 (k.defaults.getD i 0))) (s.seq z).params
        else (s.seq z).params) } := by
    simp only [w, State.modSeq_seq, if_true]
    rfl
  obtain ⟨r, kern, hstart, hregs, hmem, hhost⟩ := startKernel_of_valid (s := w) (z := z) (p := p) noList
    (some { fn := n, qp := q, cid := e.cid, pkg := e.a0 }) (by rw [hw]; exact hidle) hpart (by rw [hw]; exact hvalid) hreplays
  refine ⟨_, _, rfl, rfl, ?_⟩
  rw [hstart, State.modSeq_seq, if_pos rfl, hregs, hw]
  refine ⟨rfl, rfl, rfl, rfl, fun hlist => ?list, fun hdefaults i hi => ?defaults, ?desc, ?mem⟩
  case list => exact if_neg (by simp [noList, e, hlist])
  case defaults =>
    have hown : ∀ m, smGet 0 (own m) (4 + i) = smGet 0 m (4 + i) := fun m =>
      (smGet_foldl_smSet 0 m _ 0 4 _).trans (if_neg (by omega))
    have hnoList : noList = true := hdefaults
    rw [Seq.reg, hown, if_pos hnoList, smGet_foldl_smSet, if_pos (by omega), Nat.add_sub_cancel_left, BitVec.toNat_ofNat]
  case desc =>
    have hqp : (r.qp n q).desc = (t.qp n q).desc := by simp only [State.qp, State.fn, hhost]; rfl
    exact hqp.trans (congrArg QPair.desc ((State.modQp_qp ..).trans (if_pos ⟨rfl, rfl⟩)))
  case mem => exact hmem

end

/-- Settles O46: each descriptor runs its action, which its conditions keep off every fault; the completion leaves memory, sequencers
and partitions. -/
theorem packageDescriptors : Obligations.PackageDescriptors := by
  unfold Obligations.PackageDescriptors
  intro s n q d hn hq hdesc hwaiting hcore
  have hfetched : s.Fetched n q d := ⟨hn, hq, hdesc, hwaiting, hcore⟩
  refine ⟨fun hop => ?nop, fun hop hcode => ?load, fun g hop hg hidle hjob => ?unload,
    fun g k hop hidle hfirst hg hk hpart hvalid hreplays => ?run⟩
  case nop => exact (exec_of_fetched hfetched hop (c := .nopDescriptor n q) rfl :)
  case load =>
    refine ⟨_, exec_of_fetched hfetched hop (c := .loadPkg n q) rfl, by rw [State.finish, hcode], ?_⟩
    rw [State.finish, post_part]
    exact listed_loadPackage s _ hcode
  case unload =>
    refine ⟨_, exec_of_fetched hfetched hop (c := .unloadPkg n q) rfl, ?_⟩
    obtain ⟨u, hu, hpkgs, hktab, hlast⟩ := unloadPackage_of_idle g hidle hjob
    simp only [hg, hu, State.finish, post_part, post_seq, post_desc]
    exact ⟨hpkgs, hktab, hlast, trivial⟩
  case run =>
    obtain ⟨u, x, hu, hx, hrest⟩ := startRun_of_valid (n := n) (q := q) (d := d) hidle hpart hvalid hreplays
    refine ⟨u, ?_, ?_⟩
    · rw [exec_of_fetched hfetched hop (c := .run n q) rfl]
      have hready : ¬ ((s.pseq d.part).state ≠ 0 ∨ ¬ s.firstRun d = true) := by simp [hfirst, State.pseq, hidle]
      simp only [if_neg hready, hg, Option.bind_some, hk, hu]
    · rw [hx]
      exact hrest

end Sys2Proof.Machine
end

section
/-! Bytes in memory (R206, R212, R219): what a read returns after a write, and a partition's store that answers no code as one write
of all its bytes. -/

namespace Sys2Proof.Machine

/-! ### Reads and writes in pieces -/

theorem memBytes_add (m : Mem) (a n k : Nat) : memBytes m a (n + k) = memBytes m a n ++ memBytes m (a + n) k := by
  induction n generalizing a with
  | zero => simp [memBytes]
  | succ n ih => rw [Nat.add_right_comm, memBytes, memBytes, ih, List.cons_append, Nat.add_assoc a 1 n, Nat.add_comm 1 n]

theorem length_memBytes (m : Mem) (a n : Nat) : (memBytes m a n).length = n := by
  induction n generalizing a with
  | zero => rfl
  | succ n ih => rw [memBytes, List.length_cons, ih]

theorem memWrite_append (m : Mem) (a : Nat) (d e : List Byte) :
    memWrite m a (d ++ e) = memWrite (memWrite m a d) (a + d.length) e := by
  induction d generalizing m a with
  | nil => rfl
  | cons x d ih => rw [List.cons_append, memWrite, memWrite, ih, List.length_cons, Nat.add_assoc, Nat.add_comm 1]

theorem memWrite_take_drop (m : Mem) (a k : Nat) (d : List Byte) :
    memWrite (memWrite m a (d.take k)) (a + k) (d.drop k) = memWrite m a d := by
  by_cases hk : k ≤ d.length
  · have happend := memWrite_append m a (d.take k) (d.drop k)
    rw [List.take_append_drop, List.length_take, Nat.min_eq_left hk] at happend
    exact happend.symm
  · rw [List.take_of_length_le (by omega), List.drop_eq_nil_of_le (by omega), memWrite]

/-- A read within what was written returns that part of it. -/
theorem memBytes_memWrite (m : Mem) (a : Nat) (d : List Byte) {i n : Nat} (h : i + n ≤ d.length) :
    memBytes (memWrite m a d) (a + i) n = (d.drop i).take n := by
  induction n generalizing i with
  | zero => simp [memBytes]
  | succ n ih =>
    have hi : i < d.length := by omega
    have hbyte : memByte (memWrite m a d) (a + i) = d[i] := by
      rw [memByte_memWrite, if_pos (by omega), Nat.add_sub_cancel_left, List.getD_eq_getElem?_getD, List.getElem?_eq_getElem hi,
        Option.getD_some]
    rw [memBytes, hbyte, Nat.add_assoc, ih (by omega), ← List.getElem_cons_drop hi, List.take_succ_cons]

theorem memBytes_memWrite_self (m : Mem) (a : Nat) (d : List Byte) : memBytes (memWrite m a d) a d.length = d := by
  have h := memBytes_memWrite m a d (i := 0) (n := d.length) (by omega)
  rwa [Nat.add_zero, List.drop_zero, List.take_length] at h

/-! ### Stores of a partition -/

section
variable (s : State) (p : Nat)

theorem partialCode_ne_zero {a : Nat} (h : s.lineCode a ≠ 0) : s.partialCode a ≠ 0 := by
  unfold State.partialCode
  split
  · decide
  · exact h

/-- A line's write that answers no code has written its bytes. -/
theorem storeLine_mem_of_done {a : Nat} {d : List Byte} (hd : d.length ≤ 128) (h : (s.storeLine a d).2 = 0) :
    (s.storeLine a d).1.mem = memWrite s.mem a d := by
  have hdecode : s.decodeCode a = 0 := Decidable.byContradiction fun hbad => by
    rw [storeLine_bad s d hbad] at h
    exact hbad h
  refine (storeLine_good s hdecode (Decidable.byContradiction fun hpoisoned => ?_)).2
  obtain ⟨hpoison, hpart⟩ := not_or.mp hpoisoned
  rw [storeLine_poisoned s hdecode hpoison (by omega)] at h
  exact partialCode_ne_zero s (fun hline => hpoison ((lineCode_eq_zero_iff s a).mp hline).2) h

theorem storeLineP_mem_of_done {a : Nat} {d : List Byte} (hd : d.length ≤ 128) (h : (s.storeLineP p a d).2 = 0) :
    (s.storeLineP p a d).1.mem = memWrite s.mem a d :=
  storeLine_mem_of_done (s.modLedger p fun l => l.wrIssue 1) hd h

/-- A store that answers no code has written all its bytes. -/
theorem storeLinesP_mem_of_done (fuel : Nat) (s : State) (a : Nat) (d : List Byte) (hfuel : d.length < fuel)
    (h : (State.storeLinesP p fuel s a d).2 = 0) : (State.storeLinesP p fuel s a d).1.mem = memWrite s.mem a d := by
  induction fuel generalizing s a d with
  | zero => omega
  | succ fuel ih =>
    unfold State.storeLinesP at h ⊢
    split
    case isTrue hempty =>
      rw [List.isEmpty_iff.mp hempty]
      rfl
    case isFalse hmore =>
      have hlen : 0 < d.length := List.length_pos_iff.mpr (by simpa using hmore)
      simp only [hmore, if_false, Bool.false_eq_true] at h
      have hline : (s.storeLineP p a (d.take (128 - a % 128))).2 = 0 := Decidable.byContradiction fun hbad => by
        rw [if_pos hbad] at h
        exact hbad h
      have hlong : (d.take (128 - a % 128)).length ≤ 128 := by
        rw [List.length_take]
        omega
      rw [if_neg (not_not_intro hline)] at h
      dsimp only
      rw [ih _ _ _ (by rw [List.length_drop]; omega) h, storeLineP_mem_of_done s p hlong hline, memWrite_take_drop]

theorem storeP_mem_of_done {a : Nat} {d : List Byte} (h : (s.storeP p a d).2 = 0) : (s.storeP p a d).1.mem = memWrite s.mem a d :=
  storeLinesP_mem_of_done p _ s a d (Nat.lt_succ_self _) h

end

end Sys2Proof.Machine
end

section
/-! Pieces of a range within its lines (R340): they lie end to end, and a copy over good lines moves every one of them. -/

namespace Sys2Proof.Machine

/-! ### Pieces -/

/-- Pieces lie end to end from offset o to offset e. -/
def EndToEnd : Nat → List (Nat × Nat) → Nat → Prop
  | o, [], e => o = e
  | o, y :: r, e => y.1 = o ∧ EndToEnd (o + y.2) r e

theorem endToEnd_concat {o m : Nat} {l : List (Nat × Nat)} (h : EndToEnd o l m) (k : Nat) : EndToEnd o (l ++ [(m, k)]) (m + k) := by
  induction l generalizing o with
  | nil => exact ⟨h.symm, by rw [h]; rfl⟩
  | cons y l ih => exact ⟨h.1, ih h.2⟩

theorem endToEnd_le {o e : Nat} {l : List (Nat × Nat)} (h : EndToEnd o l e) : o ≤ e := by
  induction l generalizing o with
  | nil => exact Nat.le_of_eq h
  | cons y l ih => exact Nat.le_trans (Nat.le_add_right o y.2) (ih h.2)

/-- The piece of a range in the i-th of its lines. -/
def pieceAt (a n i : Nat) : Nat × Nat :=
  (max ((a / 128 + i) * 128) a - a, min ((a / 128 + i) * 128 + 128) (a + n) - max ((a / 128 + i) * 128) a)

theorem piecesOf_eq_map {a n : Nat} (hn : 0 < n) : piecesOf a n = (upTo ((a + n - 1) / 128 - a / 128 + 1)).map (pieceAt a n) := by
  rw [piecesOf, linesOf, if_neg (by omega), List.map_map]
  rfl

/-- The pieces of the first m lines of a range reach to the end of those lines. -/
theorem endToEnd_firstPieces {a n m : Nat} (hn : 0 < n) (hm : m ≤ (a + n - 1) / 128 - a / 128 + 1) :
    EndToEnd 0 ((upTo m).map (pieceAt a n)) (min ((a / 128 + m) * 128) (a + n) - a) := by
  induction m with
  | zero =>
    change 0 = _
    omega
  | succ m ih =>
    have hbegin : min ((a / 128 + m) * 128) (a + n) - a = (pieceAt a n m).1 := by
      simp only [pieceAt]
      omega
    have hend : min ((a / 128 + (m + 1)) * 128) (a + n) - a = (pieceAt a n m).1 + (pieceAt a n m).2 := by
      simp only [pieceAt]
      omega
    have hbefore := ih (by omega)
    rw [hbegin] at hbefore
    rw [hend, upTo, List.range_succ, List.map_append]
    exact endToEnd_concat hbefore _

theorem endToEnd_piecesOf (a n : Nat) : EndToEnd 0 (piecesOf a n) n := by
  by_cases hn : n = 0
  · subst hn
    exact rfl
  · have hall := endToEnd_firstPieces (a := a) (n := n) (by omega) (Nat.le_refl _)
    rwa [← piecesOf_eq_map (by omega), show min ((a / 128 + ((a + n - 1) / 128 - a / 128 + 1)) * 128) (a + n) - a = n by omega] at hall

theorem mem_piecesOf {a n : Nat} {y : Nat × Nat} (h : y ∈ piecesOf a n) :
    0 < y.2 ∧ (a + y.1) % 128 + y.2 ≤ 128 ∧ y.1 + y.2 ≤ n ∧ lineOf (a + y.1) ∈ linesOf a n := by
  obtain ⟨l, hl, rfl⟩ := List.mem_map.mp h
  have hline := hl
  obtain ⟨hn, k, hlo, hhi, rfl⟩ := (mem_linesOf a n l).mp hl
  dsimp only
  refine ⟨by omega, by omega, by omega, ?_⟩
  rwa [show lineOf (a + (max (k * 128) a - a)) = k * 128 by unfold lineOf; omega]

/-! ### Good lines -/

section
variable (s : State)

/-- Every address of a line decodes as the line does. -/
theorem decodeCode_lineOf (a : Nat) : s.decodeCode (lineOf a) = s.decodeCode a := by
  have hno : stackNo (lineOf a) = stackNo a := by
    simp only [stackNo, lineOf, Nat.shiftRight_eq_div_pow]
    omega
  have hrow : stackOff (lineOf a) / Config.unitBytes = stackOff a / Config.unitBytes := by
    simp only [stackOff, lineOf, Config.unitBytes]
    omega
  have htop : Config.stackTop ≤ lineOf a ↔ Config.stackTop ≤ a := by
    simp only [lineOf, Config.stackTop]
    omega
  have hoff : Config.stackBytes ≤ stackOff (lineOf a) ↔ Config.stackBytes ≤ stackOff a := by
    simp only [stackOff, lineOf, Config.stackBytes]
    omega
  have hunit : unitKey (lineOf a) = unitKey a := by rw [unitKey, hno, hrow, unitKey]
  simp only [State.decodeCode, hunit, htop, hoff]

theorem lineCode_lineOf (a : Nat) : s.lineCode (lineOf a) = s.lineCode a := by
  have hline : lineOf (lineOf a) = lineOf a := by unfold lineOf; omega
  simp only [State.lineCode, decodeCode_lineOf, hline]

/-- A piece of a range of good lines begins in a good line. -/
theorem lineCode_of_mem_piecesOf {a n : Nat} (hrange : s.rangeCode a n = 0) {y : Nat × Nat} (h : y ∈ piecesOf a n) :
    s.lineCode (a + y.1) = 0 := by
  obtain ⟨-, -, -, hline⟩ := mem_piecesOf h
  rw [← lineCode_lineOf]
  exact (rangeCode_eq_zero_iff s a n).mp hrange _ hline

end

/-! ### Copies in -/

section
variable {s : State} {p : Nat}

/-- A store within one line is that line's store. -/
theorem storeP_one_line (s : State) (p : Nat) {a : Nat} {d : List Byte} (hd : 0 < d.length) (h : a % 128 + d.length ≤ 128) :
    s.storeP p a d = s.storeLineP p a d := by
  have hsome : ¬ d.isEmpty = true := by
    rw [List.isEmpty_iff_length_eq_zero]
    omega
  have htake : d.take (128 - a % 128) = d := List.take_of_length_le (by omega)
  have hrest : d.drop (128 - a % 128) = [] := List.drop_eq_nil_of_le (by omega)
  have hnil : ∀ u b, State.storeLinesP p d.length u b [] = (u, 0) := by
    obtain ⟨m, hm⟩ := Nat.exists_eq_succ_of_ne_zero (Nat.ne_of_gt hd)
    exact fun u b => by rw [hm]; rfl
  rw [State.storeP, State.storeLinesP, if_neg hsome]
  simp only [htake, hrest, hnil]
  split
  · rfl
  · next hcode => exact Prod.ext rfl (Decidable.not_not.mp hcode).symm

/-- A line's write over a good line leaves every line's poison as it was (R219). -/
theorem storeLine_poison_of_good {a : Nat} (d : List Byte) (h : s.lineCode a = 0) (l : Nat) :
    smGet 0 (s.storeLine a d).1.poison l = smGet 0 s.poison l := by
  obtain ⟨hdecode, hpoison⟩ := (lineCode_eq_zero_iff s a).mp h
  simp only [State.storeLine, hdecode, hpoison, ne_eq, not_true_eq_false, false_and, if_false]
  split
  · rw [smGet_smSet]
    split
    · next hl => rw [hl, hpoison]
    · rfl
  · rfl

/-- State u differs from s by good stores, which write d from address a. -/
structure GoodStore (s u : State) (a : Nat) (d : List Byte) : Prop where
  stored : StoredOnly s u
  mem : u.mem = memWrite s.mem a d
  poison : ∀ l, smGet 0 u.poison l = smGet 0 s.poison l

/-- A piece of a good line is stored whole. -/
theorem storeP_of_good_line {a : Nat} {d : List Byte} (hd : 0 < d.length) (h : a % 128 + d.length ≤ 128) (hline : s.lineCode a = 0) :
    ∃ u, s.storeP p a d = (u, 0) ∧ GoodStore s u a d := by
  have hdone : (s.storeP p a d).2 = 0 := by
    rw [storeP_one_line s p hd h]
    exact storeLineP_code_of_good s p d hline
  refine ⟨(s.storeP p a d).1, Prod.ext rfl hdone, .storeP s p a d, storeP_mem_of_done s p hdone, fun l => ?_⟩
  rw [storeP_one_line s p hd h]
  exact storeLine_poison_of_good (s := s.modLedger p fun l => l.wrIssue 1) d hline l

/-- Pieces that lie end to end over good lines are all stored: together they write the host's bytes. -/
theorem copyInPieces_of_good {a o e : Nat} {host : List Byte} {l : List (Nat × Nat)} (hends : EndToEnd o l e) (he : e ≤ host.length)
    (hgood : ∀ y ∈ l, 0 < y.2 ∧ (a + y.1) % 128 + y.2 ≤ 128 ∧ s.lineCode (a + y.1) = 0) :
    ∃ u, State.copyInPieces p a host l s = (u, 0) ∧ GoodStore s u (a + o) ((host.drop o).take (e - o)) := by
  induction l generalizing o s with
  | nil =>
    obtain rfl : o = e := hends
    refine ⟨s, rfl, .refl s, ?_, fun _ => rfl⟩
    rw [Nat.sub_self, List.take_zero, memWrite]
  | cons y l ih =>
    obtain ⟨x, m⟩ := y
    obtain ⟨rfl, hrest⟩ := hends
    have hreach : x + m ≤ e := endToEnd_le hrest
    obtain ⟨hm, hwithin, hline⟩ := hgood _ List.mem_cons_self
    have hlen : ((host.drop x).take m).length = m := by
      rw [List.length_take, List.length_drop]
      omega
    obtain ⟨t, ht, hstore⟩ := storeP_of_good_line (s := s) (p := p) (a := a + x) (d := (host.drop x).take m) (by omega)
      (by rw [hlen]; exact hwithin) hline
    obtain ⟨u, hu, hstores⟩ := ih (s := t) hrest fun y hy => by
      obtain ⟨hsome, hin, hgoodLine⟩ := hgood y (List.mem_cons_of_mem _ hy)
      exact ⟨hsome, hin, hstore.stored.lineCode hgoodLine⟩
    refine ⟨u, ?_, hstore.stored.trans hstores.stored, ?_, fun l => (hstores.poison l).trans (hstore.poison l)⟩
    · have hread : ¬ host.length < x + m := by omega
      rw [State.copyInPieces, if_neg hread]
      simp only [ht, ne_eq, not_true_eq_false, if_false, hu]
    · have hjoin : (host.drop x).take (e - x) = (host.drop x).take m ++ (host.drop (x + m)).take (e - (x + m)) := by
        rw [← List.drop_drop, ← List.take_add]
        congr 1
        omega
      rw [hjoin, memWrite_append, ← hstore.mem, hlen, hstores.mem, Nat.add_assoc]

/-- A range of good lines is copied in whole. -/
theorem copyIn_of_good (s : State) (p a : Nat) {host : List Byte} (hrange : s.rangeCode a host.length = 0) :
    ∃ u, State.copyInPieces p a host (piecesOf a host.length) s = (u, 0) ∧ GoodStore s u a host := by
  have hcopied := copyInPieces_of_good (s := s) (p := p) (host := host) (endToEnd_piecesOf a host.length) (Nat.le_refl _) fun y hy => by
    obtain ⟨hsome, hin, -, -⟩ := mem_piecesOf hy
    exact ⟨hsome, hin, lineCode_of_mem_piecesOf s hrange hy⟩
  rwa [Nat.add_zero, List.drop_zero, Nat.sub_zero, List.take_length] at hcopied

end

/-! ### Copies out -/

section
variable (s : State) {a : Nat}

/-- Pieces that lie end to end read as the range. -/
theorem flatMap_load {o e : Nat} {l : List (Nat × Nat)} (hends : EndToEnd o l e) :
    l.flatMap (fun y => s.load (a + y.1) y.2) = s.load (a + o) (e - o) := by
  induction l generalizing o with
  | nil =>
    obtain rfl : o = e := hends
    rw [Nat.sub_self]
    rfl
  | cons y l ih =>
    obtain ⟨rfl, hrest⟩ := hends
    have hreach := endToEnd_le hrest
    rw [List.flatMap_cons, ih hrest, State.load, State.load, ← Nat.add_assoc, ← memBytes_add]
    congr 1
    omega

/-- A copy out of good lines reads the range's bytes and meets no code (R340). -/
theorem copyOutRead_of_good {n : Nat} (hrange : s.rangeCode a n = 0) : s.copyOutRead a (piecesOf a n) = (s.load a n, 0, 0) := by
  have hgood : ∀ y ∈ piecesOf a n, s.lineCode (a + y.1) = 0 := fun y hy => lineCode_of_mem_piecesOf s hrange hy
  have hnone : (piecesOf a n).find? (fun y => s.lineCode (a + y.1) != 0) = none := by
    simpa using hgood
  have hbytes : (piecesOf a n).flatMap (fun y => if s.lineCode (a + y.1) = 0 then s.load (a + y.1) y.2 else List.replicate y.2 0#8) =
      (piecesOf a n).flatMap fun y => s.load (a + y.1) y.2 := by
    rw [List.flatMap_def, List.flatMap_def, List.map_congr_left fun y hy => if_pos (hgood y hy)]
  rw [State.copyOutRead, hnone, hbytes, flatMap_load s (endToEnd_piecesOf a n)]
  rfl

end

end Sys2Proof.Machine
end

section
/-! Context images (R140 to R143), and the descriptors that move memory (R340): a save that answers no code has stored its image; a
restore that answers no code leaves memory as it was and the image's parameters in the sequencer. -/

namespace Sys2Proof.Machine

/-! ### Saving -/

section
variable (s : State) (p : Nat)

theorem contextPackage_seqs : (s.contextPackage p).2.seqs = s.seqs := by
  unfold State.contextPackage
  dsimp only
  split <;> rfl

/-- The first bytes of an image: its magic and its version (R140). -/
def imageFront : List Byte := toBytes 4 0x58435A4B ++ toBytes 1 1

/-- An answer's state has stored, from dst up, bytes that begin as an image does, in a state with the sequencers of s (R141). -/
def SavedImage (s : State) (p dst : Nat) (r : State × Nat × Nat) : Prop :=
  ∃ (t : State) (rest : List Byte), t.seqs = s.seqs ∧ r.1 = (t.storeP p dst (imageFront ++ rest)).1 ∧
    (t.storeP p dst (imageFront ++ rest)).2 = 0

variable {s p} {dst : Nat}

theorem ifDone_of_saved {t : State} {w : State × Nat} {rest : List Byte} {total : Nat} (hseqs : t.seqs = s.seqs)
    (hw : w = t.storeP p dst (imageFront ++ rest)) (hdone : ¬ w.2 ≠ 0) : IfDone answerCode (SavedImage s p dst) (w.1, 0, total) := by
  subst hw
  exact ifDone_of ⟨t, rest, hseqs, rfl, Decidable.not_not.mp hdone⟩

theorem savedImage_saveContext (list n : Nat) : IfDone answerCode (SavedImage s p dst) (s.saveContext p dst list n) := by
  unfold State.saveContext
  extract_lets c t ops byteRegions t1 regions entries recs placed total regionOf k t2 front body t3 hdr w
  refine ifDone_ite (fun _ => ifDone_of_refused (by decide)) fun _ => ?_
  refine ifDone_ite ifDone_of_refused fun _ => ?_
  refine ifDone_ite (fun _ => ifDone_of_refused (by decide)) fun _ => ?_
  refine ifDone_ite (fun _ => ifDone_of_refused (by decide)) fun _ => ?_
  refine ifDone_ite ifDone_of_refused fun hstored => ?_
  have himage : ∃ rest, hdr ++ body = imageFront ++ rest := by
    simp only [hdr, imageFront, List.append_assoc]
    exact ⟨_, rfl⟩
  obtain ⟨rest, hrest⟩ := himage
  have hw : w = t3.storeP p dst (imageFront ++ rest) := by rw [← hrest]
  have hseqs : t3.seqs = s.seqs := contextPackage_seqs t1 p
  exact ifDone_of_saved hseqs hw hstored

/-- A successful save leaves the magic and the version at its destination, and the sequencers as they were. -/
theorem reads_of_savedImage {r : State × Nat × Nat} (h : SavedImage s p dst r) :
    r.1.loadLE dst 4 = 0x58435A4B ∧ r.1.loadLE (dst + 4) 1 = 1 ∧ r.1.seqs = s.seqs := by
  obtain ⟨t, rest, hseqs, hr, hdone⟩ := h
  have hmem : r.1.mem = memWrite t.mem dst (imageFront ++ rest) := by rw [hr, storeP_mem_of_done t p hdone]
  have hlen : 5 ≤ (imageFront ++ rest).length := by
    rw [List.length_append]
    exact Nat.le_add_right 5 _
  refine ⟨?magic, ?version, ?seqs⟩
  case magic =>
    have hread := memBytes_memWrite t.mem dst (imageFront ++ rest) (i := 0) (n := 4) (by omega)
    rw [Nat.add_zero] at hread
    have hmagic : ((imageFront ++ rest).drop 0).take 4 = toBytes 4 0x58435A4B := rfl
    rw [State.loadLE, memLE, hmem, hread, hmagic]
    decide
  case version =>
    have hversion : ((imageFront ++ rest).drop 4).take 1 = toBytes 1 1 := rfl
    rw [State.loadLE, memLE, hmem, memBytes_memWrite _ _ _ (by omega), hversion]
    decide
  case seqs =>
    rw [hr, (StoredOnly.storeP t p dst _).frame]
    exact hseqs

end

/-! ### Restoring -/

/-- State u keeps what a restore reads back from s: memory, and each sequencer's parameters and its partition. -/
structure ParamsKept (s u : State) : Prop where
  mem : u.mem = s.mem
  params : ∀ q, (u.seq q).params = (s.seq q).params
  seq : ∀ p, (u.part p).seq = (s.part p).seq

namespace ParamsKept

variable {s t u : State}

theorem refl (s : State) : ParamsKept s s := ⟨rfl, fun _ => rfl, fun _ => rfl⟩

theorem trans (h : ParamsKept s t) (h' : ParamsKept t u) : ParamsKept s u :=
  ⟨h'.mem.trans h.mem, fun q => (h'.params q).trans (h.params q), fun p => (h'.seq p).trans (h.seq p)⟩

theorem foldl {α : Type} (f : State → α → State) (hf : ∀ x a, ParamsKept x (f x a)) (l : List α) (s : State) :
    ParamsKept s (l.foldl f s) :=
  List.foldlRecOn l f (refl s) fun _ hb a _ => hb.trans (hf _ a)

theorem of_eventsOnly (h : EventsOnly s u) : ParamsKept s u :=
  ⟨h.mem, fun q => by rw [State.seq, h.seqs, State.seq], h.part_field Part.seq fun _ _ => rfl⟩

theorem setTiles (s : State) (x : SMap Tile) : ParamsKept s { s with tiles := x } := ⟨rfl, fun _ => rfl, fun _ => rfl⟩

theorem lgWrite (s : State) (p a : Nat) (d : List Byte) (stamp : Nat) : ParamsKept s (s.lgWrite p a d stamp) := by
  obtain ⟨x, hx⟩ := lgWrite_frame s p a d stamp
  rw [hx]
  exact setTiles s x

theorem modSeq (s : State) (q : Nat) (f : Seq → Seq) (hf : ∀ x, (f x).params = x.params) : ParamsKept s (s.modSeq q f) := by
  refine ⟨rfl, fun q' => ?_, fun _ => rfl⟩
  rw [State.modSeq_seq]
  split
  · next h => rw [hf, h]
  · rfl

theorem modPart (s : State) (p : Nat) (f : Part → Part) (hf : ∀ x, (f x).seq = x.seq) : ParamsKept s (s.modPart p f) :=
  ⟨rfl, fun _ => rfl, part_modPart_field s p f Part.seq hf⟩

end ParamsKept

/-- The parameters that an image gives a sequencer: P4 to P15 (R140, R143). -/
def restoredParams (b : List Byte) (m : SMap Word) : SMap Word :=
  (upTo 12).foldl (fun m i => smSet 0 m (i + 4) (BitVec.ofNat 64 (leAt b (128 + 8 * i) 8))) m

theorem smGet_restoredParams (b : List Byte) (m : SMap Word) {i : Nat} (hi : i < 12) :
    smGet 0 (restoredParams b m) (4 + i) = BitVec.ofNat 64 (leAt b (128 + 8 * i) 8) := by
  rw [restoredParams, smGet_foldl_smSet, if_pos (by omega), Nat.add_sub_cancel_left]

section
variable (s : State) (p a : Nat) (b : List Byte)

/-- A restore sets parameters once, between what keeps them: the records, tags and rows before, the headers and bindings after. -/
theorem putContext_steps : ∃ (t : State) (f : Seq → Seq), ParamsKept s t ∧ (∀ x, (f x).params = restoredParams b x.params) ∧
    ParamsKept (t.modSeq (s.part p).seq f) (s.putContext p a b) := by
  unfold State.putContext
  extract_lets nh regions code q codes t1 t2 t3 t4
  have hrecords : ParamsKept s t1 := .foldl _ (fun _ _ => .of_eventsOnly (.memFault ..)) regions s
  have htags : ParamsKept t1 t2 := .foldl _ (fun x _ => .setTiles x _) _ t1
  have hrows : ParamsKept t2 t3 := by
    refine .foldl _ (fun x r => ?_) regions t2
    split
    · exact .refl x
    · exact .foldl _ (fun y _ => .lgWrite y ..) _ x
  refine ⟨t3, _, (hrecords.trans htags).trans hrows, ?params, .foldl _ (fun x i => ?header) _ t4⟩
  case params => exact fun _ => rfl
  case header =>
    dsimp -zeta only
    extract_lets o e g m h h' y
    have hy : ParamsKept x y := .modSeq x q _ fun _ => rfl
    exact hy.trans (.modPart y p _ fun _ => rfl)

theorem putContext_mem : (s.putContext p a b).mem = s.mem := by
  obtain ⟨t, f, hbefore, -, hafter⟩ := putContext_steps s p a b
  exact hafter.mem.trans hbefore.mem

/-- The partition's sequencer has the image's parameters (R143). -/
theorem putContext_params {i : Nat} (hi : i < 12) :
    smGet 0 ((s.putContext p a b).pseq p).params (4 + i) = BitVec.ofNat 64 (leAt b (128 + 8 * i) 8) := by
  obtain ⟨t, f, hbefore, hset, hafter⟩ := putContext_steps s p a b
  have hseq : ((s.putContext p a b).part p).seq = (s.part p).seq := (hafter.seq p).trans (hbefore.seq p)
  rw [State.pseq, hseq, hafter.params, State.modSeq_seq, if_pos rfl, hset, smGet_restoredParams b _ hi]

theorem pseq_touch (c n : Nat) : (s.touch c n).pseq p = s.pseq p := rfl

variable {s p a}

/-- An answer's state has put an image of at least its fixed length (R142). -/
def PutImage (s : State) (p a : Nat) (r : State × Nat) : Prop :=
  ∃ total, 224 ≤ total ∧ r.1 = (s.putContext p a (s.load a total)).touch a total

theorem ifDone_of_rejected {P : State × Nat → Prop} {u : State} {code : Nat} (h : code ≠ 0) : IfDone Prod.snd P (u, code) :=
  fun hcode => absurd hcode h

theorem ifDone_of_put {total : Nat} {image : List Byte} (h : 224 ≤ total) (himage : image = s.load a total) :
    IfDone Prod.snd (PutImage s p a) ((s.putContext p a image).touch a total, 0) := ifDone_of ⟨total, h, by rw [himage]⟩

theorem putImage_restoreContext : IfDone Prod.snd (PutImage s p a) (s.restoreContext p a) := by
  unfold State.restoreContext
  extract_lets hdr total front b
  refine ifDone_ite (fun _ => ifDone_of_rejected (by decide)) fun _ => ?_
  refine ifDone_ite (fun _ => ifDone_of_rejected (by decide)) fun _ => ?_
  refine ifDone_ite (fun _ => ifDone_of_rejected (by decide)) fun hread => ?_
  refine ifDone_ite (fun _ => ifDone_of_rejected (by decide)) fun _ => ?_
  refine ifDone_ite (fun _ => ifDone_of_rejected (by decide)) fun _ => ?_
  refine ifDone_ite (fun _ => ifDone_of_rejected (by decide)) fun _ => ?_
  refine ifDone_ite (fun _ => ifDone_of_rejected (by decide)) fun _ => ?_
  have htotal : 224 ≤ total := by omega
  exact ifDone_of_put htotal rfl

theorem leAt_load_of_le (m : State) (c : Nat) {off k n n' : Nat} (h : off + k ≤ n) (h' : n ≤ n') :
    leAt (m.load c n') off k = leAt (m.load c n) off k := by
  obtain ⟨r, rfl⟩ := Nat.exists_eq_add_of_le h'
  rw [leAt, leAt, State.load, State.load, memBytes_add, List.drop_append_of_le_length (by rw [length_memBytes]; omega),
    List.take_append_of_le_length (by rw [List.length_drop, length_memBytes]; omega)]

theorem ofBytes_lt_pow (l : List Byte) : ofBytes l < 256 ^ l.length := by
  induction l with
  | nil => exact Nat.one_pos
  | cons x l ih =>
    have hx := x.isLt
    rw [ofBytes, List.length_cons, Nat.pow_succ]
    omega

theorem leAt_lt_pow (l : List Byte) (off k : Nat) : leAt l off k < 256 ^ k := by
  refine Nat.lt_of_lt_of_le (ofBytes_lt_pow _) (Nat.pow_le_pow_right (by decide) ?_)
  rw [List.length_take]
  exact Nat.min_le_left ..

/-- A successful restore gives the partition's kernel parameters the image's values and leaves memory as it was. -/
theorem reads_of_putImage {r : State × Nat} (h : PutImage s p a r) :
    (∀ i, i < 12 → (r.1.pseq p).reg (4 + i) = leAt (s.load a 224) (128 + 8 * i) 8) ∧ r.1.mem = s.mem := by
  obtain ⟨total, htotal, hr⟩ := h
  rw [hr]
  refine ⟨fun i hi => ?_, putContext_mem s p a _⟩
  rw [pseq_touch, Seq.reg, putContext_params s p a _ hi, leAt_load_of_le s a (by omega) htotal, BitVec.toNat_ofNat]
  exact Nat.mod_eq_of_lt (leAt_lt_pow _ _ 8)

end

/-! ### The descriptors -/

section
variable {s : State} {n q : Nat} {d : Desc} (h : s.Fetched n q d)
include h

theorem exec_copyIn_of_good (hop : d.entry.opcode = 4) {host : List Byte} (hlen : host.length = d.entry.a2)
    (hrange : s.rangeCode d.entry.a1 d.entry.a2 = 0) :
    ∃ v, exec (.copyIn n q host) s = .next (v.post n q 0 d.entry.a2) ∧ GoodStore s v d.entry.a1 host := by
  rw [← hlen] at hrange
  obtain ⟨v, hv, hstore⟩ := copyIn_of_good s d.part d.entry.a1 hrange
  refine ⟨v, ?_, hstore⟩
  rw [exec_of_fetched h hop (c := .copyIn n q host) rfl, ← hlen, hv]
  rfl

theorem exec_copyOut_of_good (hop : d.entry.opcode = 5) {hostOk : Nat} (hhost : d.entry.a2 ≤ hostOk)
    (hrange : s.rangeCode d.entry.a0 d.entry.a2 = 0) :
    exec (.copyOut n q hostOk) s = .next ({
      s.delivered ((piecesOf d.entry.a0 d.entry.a2).map fun (y : Nat × Nat) => d.entry.a0 + y.1) true with
      host := { s.host with mem := memWrite s.host.mem d.entry.a1 (s.load d.entry.a0 d.entry.a2) } }.post n q 0 d.entry.a2) := by
  have htaken : (piecesOf d.entry.a0 d.entry.a2).filter (fun y => decide (y.1 + y.2 ≤ hostOk)) = piecesOf d.entry.a0 d.entry.a2 :=
    List.filter_eq_self.mpr fun y hy => by
      obtain ⟨-, -, hend, -⟩ := mem_piecesOf hy
      exact decide_eq_true (Nat.le_trans hend hhost)
  have hbad : (piecesOf d.entry.a0 d.entry.a2).filter (fun y => s.lineCode (d.entry.a0 + y.1) != 0) = [] :=
    List.filter_eq_nil_iff.mpr fun y hy => by simp [lineCode_of_mem_piecesOf s hrange hy]
  rw [exec_of_fetched h hop (c := .copyOut n q hostOk) rfl]
  simp only [htaken, hbad, copyOutRead_of_good s hrange, ne_eq, not_true_eq_false, if_false]
  rfl

end

/-- Settles O47: over good lines the pieces of a copy move one after the other; a save stores its image with one write, and a restore
sets the parameters once. -/
theorem memoryDescriptors : Obligations.MemoryDescriptors := by
  unfold Obligations.MemoryDescriptors
  refine ⟨fun s n q d hn hq hdesc hwaiting hcore => ⟨fun host hop hlen hrange => ?copyIn, fun hostOk hop hhost hrange => ?copyOut⟩,
    fun s n q d hn hq hdesc hwaiting hcore => ⟨fun hop hcode => ?save, fun hop hcode => ?restore⟩⟩
  all_goals have hfetched : s.Fetched n q d := ⟨hn, hq, hdesc, hwaiting, hcore⟩
  case copyIn =>
    obtain ⟨v, hv, hstored, hmem, hpoison⟩ := exec_copyIn_of_good hfetched hop hlen hrange
    refine ⟨_, v, hv, rfl, ?bytes, fun a ha => ?others, fun l => ?poison, ?tiles, ?seqs, ?host⟩
    case bytes => rw [State.load, post_mem, hmem, ← hlen, memBytes_memWrite_self]
    case others => rw [post_mem, hmem, memByte_memWrite, if_neg (by omega)]
    case poison => rw [post_poison, hpoison]
    case tiles => rw [post_tiles, hstored.tiles]
    case seqs => rw [post_seqs, hstored.frame]
    case host => rw [hstored.frame]
  case copyOut => exact exec_copyOut_of_good hfetched hop hhost hrange
  case save =>
    obtain ⟨hmagic, hversion, hseqs⟩ := reads_of_savedImage (savedImage_saveContext d.entry.a1 d.entry.a2 hcode)
    refine ⟨_, exec_of_fetched hfetched hop (c := .ctxSave n q) rfl, by rw [State.finish, hcode], ?_⟩
    rw [State.finish, State.loadLE, State.loadLE, post_mem, post_seqs]
    exact ⟨hmagic, hversion, hseqs⟩
  case restore =>
    obtain ⟨hparams, hmem⟩ := reads_of_putImage (putImage_restoreContext hcode)
    refine ⟨_, exec_of_fetched hfetched hop (c := .ctxRestore n q) rfl, ?_, ?_, ?_⟩
    · rw [State.finish]
      exact congrArg (fun c => State.post _ n q c 0) hcode
    · simpa only [State.finish, State.pseq, post_part, post_seq] using hparams
    · rw [State.finish, post_mem]
      exact hmem

end Sys2Proof.Machine
end

section
/-! Stream slots (R155, R156, R160, R177, Table 6-8): what a change of a slot or of its run reads as, the words of a descriptor, and the
register commands of a slot under its state. -/

namespace Sys2Proof.Machine

theorem slotOk_of_lt {t i : Nat} (ht : t < 64) (hi : i < 24) : slotOk t i = true := by
  simp [slotOk, ht, hi]

/-! ### Slots and runs after updates -/

section
variable (s : State) (t i : Nat)

theorem modSlot_congr {f g : Slot → Slot} (h : f (s.slot t i) = g (s.slot t i)) : s.modSlot t i f = s.modSlot t i g := by
  have hslot : f (smGet {} (s.tile t).slots i) = g (smGet {} (s.tile t).slots i) := h
  simp only [State.modSlot, State.modTile, smMod, hslot]

/-- A change of a slot's run is settled by what it does to the run in progress. -/
theorem modRun_congr {f g : StreamRun → StreamRun} (h : f (s.run t i) = g (s.run t i)) : s.modRun t i f = s.modRun t i g := by
  refine modSlot_congr s t i ?_
  cases hrun : (s.slot t i).run with
  | none => rfl
  | some r =>
    have hr : s.run t i = r := by simp [State.run, hrun]
    rw [hr] at h
    simp [h]

@[simp] theorem slot_modSlot (f : Slot → Slot) : (s.modSlot t i f).slot t i = f (s.slot t i) := by
  simp [State.slot, State.modSlot, smMod]

end

/-! ### The words of a descriptor -/

section
variable {x y w j : Nat}

/-- A word below bit 64·w is settled by the bits below it. -/
theorem word_congr_below (hj : j < w) (h : x % 2 ^ (64 * w) = y % 2 ^ (64 * w)) :
    x / 2 ^ (64 * j) % 2 ^ 64 = y / 2 ^ (64 * j) % 2 ^ 64 := by
  have hdvd : 2 ^ (64 * j) * 2 ^ 64 ∣ 2 ^ (64 * w) := by
    rw [← Nat.pow_add]
    exact Nat.pow_dvd_pow 2 (by omega)
  rw [← Nat.mod_mul_right_div_self, ← Nat.mod_mul_right_div_self, ← Nat.mod_mod_of_dvd x hdvd, h, Nat.mod_mod_of_dvd y hdvd]

/-- A word from bit 64·w on is settled by the bits from there on. -/
theorem word_congr_above (hj : w ≤ j) (h : x / 2 ^ (64 * w) = y / 2 ^ (64 * w)) :
    x / 2 ^ (64 * j) % 2 ^ 64 = y / 2 ^ (64 * j) % 2 ^ 64 := by
  have hpow : 2 ^ (64 * j) = 2 ^ (64 * w) * 2 ^ (64 * (j - w)) := by
    rw [← Nat.pow_add]
    congr 1
    omega
  rw [hpow, ← Nat.div_div_eq_div_mul, ← Nat.div_div_eq_div_mul, h]

end

theorem toNat_bitVecOfNat_of_lt {n x : Nat} (h : x < 2 ^ n) : (BitVec.ofNat n x).toNat = x := by
  rw [BitVec.toNat_ofNat, Nat.mod_eq_of_lt h]

section
variable (d : BitVec 512) {w : Nat} (v : Word) (hw : w < 8)
include hw

/-- The stored word stands between the bits below and above it. -/
theorem toNat_putWord : (putWord d w v).toNat =
    2 ^ (64 * w) * (2 ^ 64 * (d.toNat / 2 ^ (64 * (w + 1))) + v.toNat) + d.toNat % 2 ^ (64 * w) := by
  have hlow : d.toNat % 2 ^ (64 * w) < 2 ^ (64 * w) := Nat.mod_lt _ (Nat.two_pow_pos _)
  have hhigh : d.toNat / 2 ^ (64 * (w + 1)) < 2 ^ (448 - 64 * w) := by
    refine Nat.div_lt_of_lt_mul ?_
    rw [← Nat.pow_add, show 64 * (w + 1) + (448 - 64 * w) = 512 by omega]
    exact d.isLt
  have hsplit : 2 ^ (64 * (w + 1)) = 2 ^ (64 * w) * 2 ^ 64 := by rw [← Nat.pow_add, Nat.mul_succ]
  have hpow : 2 ^ (64 * w) * (2 ^ 64 * 2 ^ (448 - 64 * w)) = 2 ^ 512 := by
    have hwidth : 64 * w + (64 + (448 - 64 * w)) = 512 := by omega
    rw [← hwidth, Nat.pow_add, Nat.pow_add]
  have hv := v.isLt
  rw [putWord, Nat.shiftRight_eq_div_pow, Nat.shiftLeft_eq, Nat.shiftLeft_eq]
  generalize d.toNat / 2 ^ (64 * (w + 1)) = high at hhigh ⊢
  generalize d.toNat % 2 ^ (64 * w) = low at hlow ⊢
  rw [hsplit]
  generalize 2 ^ (64 * w) = b at hlow hpow ⊢
  generalize 2 ^ (448 - 64 * w) = c at hhigh hpow
  have hfits : b * (2 ^ 64 * high + v.toNat) + low < 2 ^ 512 :=
    calc b * (2 ^ 64 * high + v.toNat) + low < b * (2 ^ 64 * high + v.toNat) + b := by omega
      _ = b * (2 ^ 64 * high + v.toNat + 1) := (Nat.mul_succ _ _).symm
      _ ≤ b * (2 ^ 64 * c) := Nat.mul_le_mul_left b (by omega)
      _ = 2 ^ 512 := hpow
  have hsum : low + v.toNat * b + high * (b * 2 ^ 64) = b * (2 ^ 64 * high + v.toNat) + low := by
    rw [Nat.mul_add, Nat.mul_comm v.toNat b, Nat.mul_left_comm high b, Nat.mul_comm high]
    omega
  rw [hsum]
  exact toNat_bitVecOfNat_of_lt hfits

theorem putWord_div : (putWord d w v).toNat / 2 ^ (64 * w) = 2 ^ 64 * (d.toNat / 2 ^ (64 * (w + 1))) + v.toNat := by
  rw [toNat_putWord d v hw, Nat.mul_add_div (Nat.two_pow_pos _), Nat.div_eq_of_lt (Nat.mod_lt _ (Nat.two_pow_pos _)), Nat.add_zero]

/-- The stored word reads back. -/
theorem word_putWord_self : (putWord d w v).toNat / 2 ^ (64 * w) % 2 ^ 64 = v.toNat := by
  rw [putWord_div d v hw, Nat.mul_add_mod, Nat.mod_eq_of_lt v.isLt]

theorem word_putWord_ne {j : Nat} (hj : j ≠ w) :
    (putWord d w v).toNat / 2 ^ (64 * j) % 2 ^ 64 = d.toNat / 2 ^ (64 * j) % 2 ^ 64 := by
  rcases Nat.lt_or_gt_of_ne hj with hbelow | habove
  · refine word_congr_below hbelow ?_
    rw [toNat_putWord d v hw, Nat.mul_add_mod, Nat.mod_mod]
  · refine word_congr_above habove ?_
    have hsplit : 2 ^ (64 * (w + 1)) = 2 ^ (64 * w) * 2 ^ 64 := by rw [← Nat.pow_add, Nat.mul_succ]
    rw [hsplit, ← Nat.div_div_eq_div_mul, putWord_div d v hw, Nat.mul_add_div (Nat.two_pow_pos 64), Nat.div_eq_of_lt v.isLt,
      Nat.add_zero, hsplit]

end

/-! ### Arming, aborting and writing -/

section
variable {s z : State} {t i : Nat} (hslot : slotOk t i = true) (hz : s.wake = z)
include hslot hz

theorem exec_streamArm_of_free (hfree : (z.slot t i).state = 0) (hgood : armBad (z.slot t i).desc = false) :
    exec (.streamArm t i) s = .next (z.modSlot t i fun x => { x with state := 1, run := none }) := by
  subst hz
  change guarded (slotOk t i) _ = _
  rw [guarded_next hslot]
  simp [hfree, hgood]

theorem exec_streamArm_of_rejected (hfree : (z.slot t i).state = 0) (hbad : armBad (z.slot t i).desc = true) :
    exec (.streamArm t i) s = .next (z.modSlot t i fun x => { x with error := true, errCode := cDescriptorInvalid }) := by
  subst hz
  change guarded (slotOk t i) _ = _
  rw [guarded_next hslot]
  simp [hfree, hbad]

theorem exec_streamAbort_of_armed (harmed : (z.slot t i).state = 1) :
    exec (.streamAbort t i) s = .next (z.modSlot t i fun x => { x with state := 0, run := none }) := by
  subst hz
  change guarded (slotOk t i) _ = _
  rw [guarded_next hslot]
  simp [harmed]

section
variable {w : Nat} (v : Word) (hw : w < 8)
include hw

theorem exec_slotWrite_of_free (hfree : (z.slot t i).state = 0) :
    exec (.slotWrite t i w v) s = .next (z.modSlot t i fun x => { x with desc := putWord x.desc w v }) := by
  subst hz
  change guarded (slotOk t i && decide (w < 8)) _ = _
  rw [guarded_next (by simp [hslot, hw])]
  simp [hfree]

theorem exec_slotWrite_of_busy (hbusy : (z.slot t i).state ≠ 0) :
    exec (.slotWrite t i w v) s = .next (z.modSlot t i fun x => { x with dropped := true }) := by
  subst hz
  change guarded (slotOk t i && decide (w < 8)) _ = _
  rw [guarded_next (by simp [hslot, hw])]
  simp [hbusy]

end

end

/-! ### The context counts (Table 6-8) -/

theorem fetchStatus_eq (x : Tile) : fetchStatus x = x.ctxUsed + x.ctxHigh * 2 ^ 11 := by
  simp only [fetchStatus, pack, Nat.shiftLeft_eq, Nat.pow_zero, Nat.mul_one, Nat.add_zero]

theorem exec_fetchStatusRead {s z : State} (hz : s.wake = z) {t : Nat} (ht : t < 64) : exec (.fetchStatusRead t) s =
    .next { z.modTile t (fun x => { x with ctxHigh := 0 }) with
      host := { z.host with readData := z.host.readData ++ [(z.tile t).ctxUsed + (z.tile t).ctxHigh * 2 ^ 11] } } := by
  subst hz
  rw [← fetchStatus_eq]
  exact guarded_next (decide_eq_true ht)

/-! ### GO (R156) -/

section
variable {s z : State} {t i : Nat} (hslot : slotOk t i = true) (hz : s.wake = z)

section
include hslot hz

/-- A GO that fails a check sets ERROR with the check's code and leaves the slot's state (R177). -/
theorem exec_streamGo_of_failed {c : Nat} (hcode : z.kickCode (z.pseq ((z.tilePart t).getD 0)) t i = c) (hc : c ≠ 0) :
    exec (.streamGo t i) s = .next (z.modSlot t i fun x => { x with error := true, errCode := c }) := by
  subst hz hcode
  change guarded (slotOk t i) _ = _
  rw [guarded_next hslot]
  simp only [if_pos hc]

theorem exec_streamGo_of_passed (hcode : z.kickCode (z.pseq ((z.tilePart t).getD 0)) t i = 0) :
    exec (.streamGo t i) s = .next (z.kick (z.pseq ((z.tilePart t).getD 0)) t i none none) := by
  subst hz
  change guarded (slotOk t i) _ = _
  rw [guarded_next hslot]
  simp only [hcode, ne_eq, not_true_eq_false, if_false]

end

variable (x : Seq)

theorem kickCode_of_free (h : (z.slot t i).state = 0) : z.kickCode x t i = cStreamSlotEmpty := by
  simp [State.kickCode, h]

theorem kickCode_of_running (h : (z.slot t i).state = 2 ∨ (z.slot t i).state = 3) : z.kickCode x t i = cStreamBusy := by
  rcases h with h | h <;> simp [State.kickCode, h]

variable (hrow : sd (z.slot t i).desc 55 52 = 0)
include hrow

/-- The check of an ARMED slot without ROW_SEL is that of the base its BASE_SEL names. -/
theorem kickCode_of_armed (harmed : (z.slot t i).state = 1) {b : Nat} (hb : sd (z.slot t i).desc 51 48 = b) :
    z.kickCode x t i = if b ≠ 0 ∧ 2 ^ 41 ≤ x.reg b then cParamRange else 0 := by
  simp [State.kickCode, harmed, hrow, hb]

/-- A run without ROW_SEL starts with the base its BASE_SEL names. -/
theorem kick_of_armed {b : Nat} (hb : sd (z.slot t i).desc 51 48 = b) {base : Nat}
    (hbase : (if b = 0 then 0 else x.reg b % 2 ^ 41) = base) :
    z.kick x t i none none = z.stir.modSlot t i fun y => { y with state := 2, blockIndex := 0, run := some { base := base } } := by
  refine modSlot_congr z.stir t i ?_
  have hstir : z.stir.slot t i = z.slot t i := rfl
  simp only [hstir, hrow, hb, hbase, if_true]

end

/-- Settles O25: each command of a slot takes the branch of the slot's state; a stored word stands between the bits of the others. -/
theorem streamSlots : Obligations.StreamSlots := by
  unfold Obligations.StreamSlots
  refine ⟨fun s t i ht hi => ?registers, fun d w v hw => ⟨word_putWord_self d v hw, fun j _ hj => word_putWord_ne d v hw hj⟩,
    fun s t i ht hi => ?go⟩
  all_goals have hslot := slotOk_of_lt ht hi
  case registers =>
    exact ⟨exec_streamArm_of_free hslot rfl, exec_streamArm_of_rejected hslot rfl, exec_streamAbort_of_armed hslot rfl,
      fun _ v hw => exec_slotWrite_of_free hslot rfl v hw, fun _ v hw => exec_slotWrite_of_busy hslot rfl v hw,
      exec_fetchStatusRead rfl ht⟩
  case go =>
    refine ⟨fun hfree => ?empty, fun hrunning => ?busy, fun harmed hb hrow => ?noBase, fun b hb hbase hrow harmed => ?base⟩
    case empty => exact exec_streamGo_of_failed hslot rfl (kickCode_of_free _ hfree) (by decide)
    case busy => exact exec_streamGo_of_failed hslot rfl (kickCode_of_running _ hrunning) (by decide)
    case noBase =>
      rw [exec_streamGo_of_passed hslot rfl (kickCode_of_armed _ hrow harmed hb), kick_of_armed _ hrow hb rfl]
      rfl
    case base =>
      have hcode := kickCode_of_armed (s.wake.pseq ((s.wake.tilePart t).getD 0)) hrow harmed hb
      dsimp only
      split
      case isTrue hlarge =>
        rw [if_pos ⟨hbase, hlarge⟩] at hcode
        exact exec_streamGo_of_failed hslot rfl hcode (by decide)
      case isFalse hfits =>
        rw [if_neg (fun h => hfits h.2)] at hcode
        rw [exec_streamGo_of_passed hslot rfl hcode, kick_of_armed _ hrow hb (if_neg hbase), Nat.mod_eq_of_lt (Nat.not_le.mp hfits)]

end Sys2Proof.Machine
end

section
/-! Ends of stream blocks, runs and slots (R55, R157, R160, R174, R175): what an end leaves of the slots, and the commands that end a
block, a run or an abort. -/

namespace Sys2Proof.Machine

/-! ### What leaves every slot as it was -/

/-- State u differs from s in tiles, partitions, sequencers and the memory controllers alone, and every slot of its tiles is that of
s. -/
structure SlotsKept (s u : State) : Prop where
  frame : u = { s with tiles := u.tiles, parts := u.parts, seqs := u.seqs, memc := u.memc }
  slots : ∀ t, (u.tile t).slots = (s.tile t).slots

namespace SlotsKept

variable {s t u : State}

theorem refl (s : State) : SlotsKept s s := ⟨rfl, fun _ => rfl⟩

theorem trans (h : SlotsKept s t) (h' : SlotsKept t u) : SlotsKept s u := by
  refine ⟨?_, fun n => (h'.slots n).trans (h.slots n)⟩
  have hframe := h'.frame
  rw [h.frame] at hframe
  exact hframe

theorem slot (h : SlotsKept s u) (n i : Nat) : u.slot n i = s.slot n i := by
  rw [State.slot, State.slot, h.slots]

theorem of_tiles_eq (hframe : u = { s with parts := u.parts, seqs := u.seqs, memc := u.memc }) : SlotsKept s u := by
  have htiles : u.tiles = s.tiles := (congrArg State.tiles hframe :)
  refine ⟨?_, fun n => by rw [State.tile, htiles, State.tile]⟩
  rw [htiles]
  exact hframe

variable (s)

theorem modTile (n : Nat) (f : Tile → Tile) (hf : ∀ x, (f x).slots = x.slots) : SlotsKept s (s.modTile n f) := by
  refine ⟨rfl, fun m => ?_⟩
  rw [State.modTile_tile]
  split
  · next h => rw [hf, h]
  · rfl

theorem tileLedger (n : Nat) (f : Ledger → Ledger) : SlotsKept s (s.tileLedger n f) := by
  unfold State.tileLedger
  split
  · exact of_tiles_eq rfl
  · exact refl s

theorem emitTile (n q : Nat) (k : Token) : SlotsKept s (s.emitTile n q k) := by
  unfold State.emitTile
  split
  · refine (modTile s n _ ?_).trans (tileLedger ..)
    exact fun _ => rfl
  · refine modTile s n _ ?_
    exact fun _ => rfl

theorem kickEnded (n i : Nat) (r : StreamRun) (code : Nat) : SlotsKept s (s.kickEnded n i r code) := by
  unfold State.kickEnded
  split
  · exact refl s
  · exact of_tiles_eq rfl

theorem freeStaging (n : Nat) (p : Chain → Bool) : SlotsKept s (s.freeStaging n p) := of_tiles_eq rfl

theorem dropRange (n : Nat) (row : Int) (k : Nat) : SlotsKept s (s.dropRange n row k) := by
  unfold State.dropRange State.invalidRows
  refine modTile s n _ ?_
  exact fun _ => rfl

theorem dropRows (n i : Nat) : SlotsKept s (s.dropRows n i) := by
  unfold State.dropRows
  dsimp only
  split
  · exact refl s
  · refine each_keeps (SlotsKept s) _ (refl s) fun x hx j _ => ?_
    split
    · exact hx
    · refine each_keeps (SlotsKept s) _ hx fun y hy k _ => ?_
      split
      · exact (hy.trans (dropRange y ..)).trans (dropRange _ ..)
      · exact hy.trans (dropRange y ..)

end SlotsKept

theorem checkLedger_of_good {s : State} {p : Nat} (h : s.ledgerBad p = 0) : s.checkLedger p false = s := by
  simp [State.checkLedger, h]

/-! ### Blocks and runs -/

section
variable {s : State} {t i : Nat} (hslot : slotOk t i = true)
include hslot

/-- The next block in list order, complete, counts as such and its token leaves (R157). -/
theorem exec_streamBlockComplete_of_done {b : Block} (hactive : (s.slot t i).state = 2)
    (hb : (s.run t i).blocks[(s.run t i).completed]? = some b) (hdone : blockDone (s.slot t i).desc (s.run t i) b = true) {u : State}
    (hu : s.modSlot t i (fun x => { x with
      blockIndex := x.blockIndex + 1, run := x.run.map (fun r => { r with completed := r.completed + 1 }) }) = u) :
    exec (.streamBlockComplete t i) s = .next (if be b.entry 176 176 = 1 then
      u.emitTile t (sd (s.slot t i).desc 19 16) { status := 0, source := 1, tag := be b.entry 191 184 } else u) := by
  subst hu
  change guarded (slotOk t i) (s.completeOne t i) = _
  rw [guarded_next hslot, State.completeOne]
  simp only [hb, hactive, hdone, and_self, if_true]

/-- The end of a run at w: its kick ends, the slot returns to ARMED or FREE and the completion token leaves. -/
def State.runEnded (w : State) (t i : Nat) (d : BitVec 512) (r : StreamRun) : State :=
  let u := (w.kickEnded t i r 0).modSlot t i slotIdle
  if sd d 28 28 = 1 then u.emitTile t (sd d 19 16) { status := 0, source := 1, tag := sd d 87 80 } else u

section
variable (hactive : (s.slot t i).state = 2) (hlast : (s.run t i).completed = sdBlocks (s.slot t i).desc)
  (hheader : headerPending (s.slot t i).desc (s.run t i) = false)
include hactive hlast hheader

/-- A run of complete blocks that has no header to write ends. -/
theorem exec_streamRunComplete_of_bare (hbare : sdCt (s.slot t i).desc = false ∨
      (sdOp (s.slot t i).desc ≠ 3 ∧ (sdOp (s.slot t i).desc ≠ 2 ∨ (s.run t i).poison = 0))) :
    exec (.streamRunComplete t i) s = .next (s.runEnded t i (s.slot t i).desc (s.run t i)) := by
  have hgood : ¬ (sdOp (s.slot t i).desc = 2 ∧ sdCt (s.slot t i).desc = true ∧ (s.run t i).poison ≠ 0) := by
    rintro ⟨hload, hct, hpoison⟩
    rcases hbare with h | ⟨-, h | h⟩
    · exact Bool.false_ne_true (h.symm.trans hct)
    · exact h hload
    · exact hpoison h
  have hnoStore : ¬ (sdOp (s.slot t i).desc = 3 ∧ sdCt (s.slot t i).desc = true) := by
    rintro ⟨hstore, hct⟩
    rcases hbare with h | ⟨h, -⟩
    · exact Bool.false_ne_true (h.symm.trans hct)
    · exact h hstore
  change guarded (slotOk t i) _ = _
  rw [guarded_next hslot]
  simp only [hactive, hlast, hheader, if_neg hgood, if_pos hnoStore, ne_eq, not_true_eq_false, Bool.false_eq_true, not_false_eq_true,
    and_self, if_true, if_false]
  rfl

/-- A ciphertext store of complete blocks writes its header, which its entry then names, and ends (R55, R167). -/
theorem exec_streamRunComplete_of_ctStore {p e body : Nat} (hp : (s.tilePart t).getD 0 = p) (he : sd (s.slot t i).desc 79 72 = e)
    (hbody : sd (s.slot t i).desc 191 128 + (s.run t i).base = body) (hop : sdOp (s.slot t i).desc = 3)
    (hct : sdCt (s.slot t i).desc = true) {w : State × Nat}
    (hw : s.storeP p (sd (s.slot t i).desc 319 256) (toBytes 64 (storedHeader (s.hdr p e) body)) = w)
    (hin : s.inStacks p (sd (s.slot t i).desc 319 256) 64 = true) (hdone : w.2 = 0) :
    exec (.streamRunComplete t i) s =
      .next ((w.1.modHdr p e fun h => { h with bodyAddr := body }).runEnded t i (s.slot t i).desc (s.run t i)) := by
  have hnoLoad : ¬ 3 = 2 := by decide
  have hheld : smGet {} (s.pseq p).hdrs e = s.hdr p e := rfl
  change guarded (slotOk t i) _ = _
  rw [guarded_next hslot]
  simp only [hp, he, hbody, hactive, hlast, hheader, hop, hnoLoad, hct, hin, hheld, hw, hdone, ne_eq, not_true_eq_false,
    Bool.false_eq_true, not_false_eq_true, false_and, and_self, if_true, if_false]
  rfl

end

/-! ### Aborts (R175) -/

/-- An abort of an ACTIVE run leaves the slot ABORTING with STREAM_ABORTED, and changes tiles, partitions, sequencers and the memory
controllers alone. -/
theorem exec_streamAbort_of_active {z : State} (hz : s.wake = z) (hactive : (z.slot t i).state = 2) :
    ∃ u, exec (.streamAbort t i) s = .next u ∧ (u.slot t i).state = 3 ∧ (u.slot t i).errCode = cStreamAborted ∧
      (u.slot t i).desc = (z.slot t i).desc ∧ u = { z with tiles := u.tiles, parts := u.parts, seqs := u.seqs, memc := u.memc } := by
  have hnext : exec (.streamAbort t i) s = .next (z.abortSlot t i) := by
    subst hz
    change guarded (slotOk t i) _ = _
    rw [guarded_next hslot]
    simp [hactive]
  refine ⟨z.abortSlot t i, hnext, ?_⟩
  have hbefore : SlotsKept z ((z.dropRows t i).freeStaging t fun c => c.slot == i) :=
    (SlotsKept.dropRows z t i).trans (.freeStaging ..)
  rw [State.abortSlot, if_neg (not_not_intro hactive)]
  generalize (z.dropRows t i).freeStaging t (fun c => c.slot == i) = v at hbefore
  generalize hf : (fun x : Slot => { x with state := 3, error := true, errCode := cStreamAborted }) = f
  have hafter : ∀ u, SlotsKept (v.modSlot t i f) u → (u.slot t i).state = 3 ∧ (u.slot t i).errCode = cStreamAborted ∧
      (u.slot t i).desc = (z.slot t i).desc ∧ u = { z with tiles := u.tiles, parts := u.parts, seqs := u.seqs, memc := u.memc } := by
    intro u hu
    have hchanged : u.slot t i = f (z.slot t i) := by rw [hu.slot, slot_modSlot, hbefore.slot]
    have hframe := hu.frame
    rw [State.modSlot, State.modTile, hbefore.frame] at hframe
    rw [hchanged, ← hf]
    exact ⟨rfl, rfl, rfl, hframe⟩
  refine hafter _ ?_
  dsimp only
  split
  · exact (SlotsKept.kickEnded ..).trans (.emitTile ..)
  · exact .kickEnded ..

/-- An aborting slot whose contexts have returned leaves ABORTING; the check of a good ledger changes nothing (R256). -/
theorem exec_streamAbortDrained_of_returned (haborting : (s.slot t i).state = 3) (hreturned : (s.run t i).contexts = 0)
    (hledger : ∀ p, s.tilePart t = some p → s.ledgerBad p = 0) :
    exec (.streamAbortDrained t i) s = .next (s.modSlot t i slotIdle) := by
  have hpart : (s.modSlot t i slotIdle).tilePart t = s.tilePart t := rfl
  change guarded (slotOk t i) _ = _
  rw [guarded_next hslot, if_pos ⟨haborting, hreturned⟩]
  simp only [State.abortDrained, if_pos (And.intro haborting hreturned), hpart]
  cases hp : s.tilePart t with
  | none => rfl
  | some p =>
    have hgood : (s.modSlot t i slotIdle).ledgerBad p = 0 := hledger p hp
    exact congrArg Host.Outcome.next (checkLedger_of_good hgood)

end

/-- Settles O27: the conditions on a slot are the guards of its ends; an abort keeps every slot but its own, of which it keeps the
descriptor. -/
theorem streamEnds : Obligations.StreamEnds := by
  unfold Obligations.StreamEnds
  intro s t i ht hi
  have hslot := slotOk_of_lt ht hi
  refine ⟨fun b hactive hb hdone => ?block, fun hactive hlast hheader => ⟨fun hbare => ?bare, fun hop hct hin hdone => ?ctStore⟩,
    fun hactive => ?abort, fun haborting hreturned hledger => ?drained⟩
  case block => exact exec_streamBlockComplete_of_done hslot hactive hb hdone rfl
  case bare => exact exec_streamRunComplete_of_bare hslot hactive hlast hheader hbare
  case ctStore => exact exec_streamRunComplete_of_ctStore hslot hactive hlast hheader rfl rfl rfl hop hct rfl hin hdone
  case abort => exact exec_streamAbort_of_active hslot rfl hactive
  case drained => exact exec_streamAbortDrained_of_returned hslot haborting hreturned hledger

end Sys2Proof.Machine
end

section
/-! Transfers of a stream run (R157 to R159, R163, R166, R172, R211): what a line that lands or is acknowledged leaves of its run, and the
commands that read a list, start a block and move a line. -/

namespace Sys2Proof.Machine

/-! ### Reading the list and starting a block -/

section
variable {s : State} {t i : Nat} (hslot : slotOk t i = true) (hactive : (s.slot t i).state = 2)
include hslot hactive

theorem exec_blockListRead_of_good {a : Nat} (ha : sd (s.slot t i).desc 255 192 + 32 * (s.run t i).blocks.length = a)
    (hmore : (s.run t i).blocks.length < sdBlocks (s.slot t i).desc)
    (hkey : sdOp (s.slot t i).desc ≠ 4 ∨ (s.run t i).keyChecked = true) (hfetch : s.fetchCode t a 32 = 0) :
    exec (.blockListRead t i) s = .next ((s.touch a 32).modRun t i fun r =>
      { r with blocks := r.blocks ++ [{ entry := s.entryAt (s.slot t i).desc r.blocks.length }] }) := by
  change guarded (slotOk t i) _ = _
  rw [guarded_next hslot]
  simp only [ha, hactive, hmore, hkey, hfetch, ne_eq, not_true_eq_false, and_self, if_true, if_false]
  refine congrArg Host.Outcome.next (modRun_congr (s.touch a 32) t i ?_)
  rfl

/-- A block that has nothing to wait for starts with the contexts its engine may take (R159). -/
theorem exec_streamBlockStart_of_ready {j : Nat} {b : Block}
    (hfirst : (s.run t i).blocks.findIdx? (fun x => !x.started) = some j) (hb : (s.run t i).blocks[j]? = some b)
    (hbody : (s.run t i).skipBody = false) (hheader : headerPending (s.slot t i).desc (s.run t i) = false)
    (hcoords : coordsReady (s.slot t i).desc (s.run t i) b.entry = true) (hwait : be b.entry 177 177 = 0)
    (hstride : strideBad (s.slot t i).desc (s.run t i) b.entry = false) (hcontext : s.ctxAvail t (i / 6) ≠ 0) {total : Nat}
    (htotal : s.blockLines t (s.slot t i).desc (s.run t i) b.entry = total) (hsome : total ≠ 0) {n : Nat}
    (hn : min total (s.ctxAvail t (i / 6)) = n) :
    exec (.streamBlockStart t i) s = .next ((((s.modBlock t i j fun x => { x with
      started := true, transfers := transferCount (s.slot t i).desc x.entry, total := total, requested := n }).takeContexts
        t i n).markAsleep t i j 0).settleRun t i) := by
  have hn' : n ≠ 0 := by omega
  have hblock : (s.run t i).blocks.getD j {} = b := by rw [List.getD_eq_getElem?_getD, hb, Option.getD_some]
  have hnoWait : ¬ 0 = 1 := by decide
  change guarded (slotOk t i) _ = _
  rw [guarded_next hslot]
  simp only [hfirst, hblock, hactive, hbody, hheader, hcoords, hwait, hnoWait, hstride, hcontext, htotal, hn, hn', ne_eq,
    not_true_eq_false, Bool.false_eq_true, and_false, false_and, or_self, if_false]

end

/-! ### The shape of a partition -/

section
variable {s u : State} (hpart : ∀ p, (u.part p).tiles = (s.part p).tiles)
include hpart

theorem tilePart_congr (t : Nat) : u.tilePart t = s.tilePart t := by
  simp only [State.tilePart, hpart]

theorem share_congr (t n : Nat) : u.share t n = s.share t n := by
  simp only [State.share, tilePart_congr hpart, hpart]

variable (t : Nat) (d : BitVec 512) (r : StreamRun) (b : BitVec 256)

theorem chunkBytes_congr : u.chunkBytes t d r b = s.chunkBytes t d r b := by
  simp only [State.chunkBytes, share_congr hpart]

theorem chunkPieces_congr (k : Nat) : u.chunkPieces t d r b k = s.chunkPieces t d r b k := by
  simp only [State.chunkPieces, share_congr hpart]

end

/-! ### What a line leaves of its run -/

/-- A change of a slot's run changes the run in progress, where there is one. -/
theorem run_modRun (s : State) (t i : Nat) (f : StreamRun → StreamRun) :
    (s.modRun t i f).run t i = s.run t i ∨ (s.modRun t i f).run t i = f (s.run t i) := by
  simp only [State.run, State.modRun, slot_modSlot]
  cases (s.slot t i).run with
  | none => exact .inl rfl
  | some r => exact .inr rfl

theorem getD_modify_field {α β : Type} (field : α → β) {f : α → α} (hf : ∀ x, field (f x) = field x) (l : List α) (j : Nat) (d : α) :
    field ((l.modify j f).getD j d) = field (l.getD j d) := by
  rw [List.getD_eq_getElem?_getD, List.getD_eq_getElem?_getD, List.getElem?_modify_eq]
  cases l[j]? with
  | none => rfl
  | some x => exact hf x

/-- State u differs from s as a line of block j of slot i of tile t may change it, in what the block's transfer does not depend on:
contexts, counts of lines, ledgers and the memory controllers' line marks. -/
structure LineKept (t i j : Nat) (s u : State) : Prop where
  desc : (u.slot t i).desc = (s.slot t i).desc
  run : u.run t i = { s.run t i with blocks := (u.run t i).blocks, contexts := (u.run t i).contexts }
  entry : ((u.run t i).blocks.getD j {}).entry = ((s.run t i).blocks.getD j {}).entry
  next : ((u.run t i).blocks.getD j {}).next = ((s.run t i).blocks.getD j {}).next
  mem : u.mem = s.mem
  img : u.img = s.img
  seqs : u.seqs = s.seqs
  part : ∀ p, u.part p = { s.part p with ledger := (u.part p).ledger }

namespace LineKept

variable {t i j : Nat} {s v u : State}

theorem refl (s : State) : LineKept t i j s s := ⟨rfl, rfl, rfl, rfl, rfl, rfl, rfl, fun _ => rfl⟩

theorem trans (h : LineKept t i j s v) (h' : LineKept t i j v u) : LineKept t i j s u := by
  refine ⟨h'.desc.trans h.desc, ?run, h'.entry.trans h.entry, h'.next.trans h.next, h'.mem.trans h.mem, h'.img.trans h.img,
    h'.seqs.trans h.seqs, fun p => ?part⟩
  case run =>
    have hrun := h'.run
    rw [h.run] at hrun
    exact hrun
  case part =>
    have hpart := h'.part p
    rw [h.part p] at hpart
    exact hpart

theorem of_slots (hslots : (u.tile t).slots = (s.tile t).slots) (hmem : u.mem = s.mem) (himg : u.img = s.img) (hseqs : u.seqs = s.seqs)
    (hpart : ∀ p, u.part p = { s.part p with ledger := (u.part p).ledger }) : LineKept t i j s u := by
  have hslot : u.slot t i = s.slot t i := by rw [State.slot, State.slot, hslots]
  have hrun : u.run t i = s.run t i := by rw [State.run, State.run, hslot]
  refine ⟨by rw [hslot], ?_, by rw [hrun], by rw [hrun], hmem, himg, hseqs, hpart⟩
  rw [hrun]

theorem field (h : LineKept t i j s u) {α : Type} (f : Part → α) (hf : ∀ (x : Part) l, f { x with ledger := l } = f x) (p : Nat) :
    f (u.part p) = f (s.part p) := by
  rw [h.part p, hf]

variable (s)

theorem modTile (f : Tile → Tile) (hf : ∀ x, (f x).slots = x.slots) : LineKept t i j s (s.modTile t f) := by
  refine of_slots ?_ rfl rfl rfl fun _ => rfl
  rw [State.modTile_tile, if_pos rfl, hf]

theorem tileLedger (f : Ledger → Ledger) : LineKept t i j s (s.tileLedger t f) := by
  unfold State.tileLedger
  split
  · refine of_slots rfl rfl rfl rfl fun p' => ?_
    rw [State.modLedger_part]
    split
    · next h => rw [h]
    · rfl
  · exact refl s

theorem delivered (l : List Nat) (allocate : Bool) : LineKept t i j s (s.delivered l allocate) :=
  of_slots rfl rfl rfl rfl fun _ => rfl

/-- A change of the run's contexts and of its blocks' counts. -/
theorem modRun (f : StreamRun → StreamRun) (hf : ∀ r, f r = { r with blocks := (f r).blocks, contexts := (f r).contexts })
    (hentry : ∀ r, ((f r).blocks.getD j {}).entry = (r.blocks.getD j {}).entry)
    (hnext : ∀ r, ((f r).blocks.getD j {}).next = (r.blocks.getD j {}).next) : LineKept t i j s (s.modRun t i f) := by
  have hdesc : ((s.modRun t i f).slot t i).desc = (s.slot t i).desc := by rw [State.modRun, slot_modSlot]
  rcases run_modRun s t i f with hrun | hrun
  · refine ⟨hdesc, ?_, by rw [hrun], by rw [hrun], rfl, rfl, rfl, fun _ => rfl⟩
    rw [hrun]
  · refine ⟨hdesc, ?_, by rw [hrun, hentry], by rw [hrun, hnext], rfl, rfl, rfl, fun _ => rfl⟩
    rw [hrun, ← hf]

/-- A change of block j that keeps its entry and the transfer in progress. -/
theorem modBlock (f : Block → Block) (hentry : ∀ x, (f x).entry = x.entry) (hnext : ∀ x, (f x).next = x.next) :
    LineKept t i j s (s.modBlock t i j f) := by
  refine modRun s _ (fun _ => rfl) (fun r => ?_) fun r => ?_
  · exact getD_modify_field Block.entry hentry ..
  · exact getD_modify_field Block.next hnext ..

theorem giveContext : LineKept t i j s (s.giveContext t i) := by
  unfold State.giveContext
  refine ((modTile s _ ?tile).trans (tileLedger ..)).trans (modRun _ _ ?run ?entry ?next)
  all_goals exact fun _ => rfl

theorem takeContexts (n : Nat) : LineKept t i j s (s.takeContexts t i n) := by
  unfold State.takeContexts
  refine ((modTile s _ ?tile).trans (tileLedger ..)).trans (modRun _ _ ?run ?entry ?next)
  all_goals exact fun _ => rfl

theorem markAsleep (n : Nat) : LineKept t i j s (s.markAsleep t i j n) := by
  unfold State.markAsleep
  extract_lets d r blk l
  split
  · exact refl s
  · split
    · refine modBlock s _ ?entry ?next
      all_goals exact fun _ => rfl
    · exact refl s

theorem lineDone : LineKept t i j s (s.lineDone t i j) := by
  unfold State.lineDone
  extract_lets v
  have hline : LineKept t i j s v := by
    refine (giveContext s).trans (modBlock _ _ ?entry ?next)
    all_goals exact fun _ => rfl
  split
  · split
    · refine .trans (.trans (hline.trans (takeContexts v 1)) (modBlock _ _ ?requestEntry ?requestNext)) (markAsleep ..)
      all_goals exact fun _ => rfl
    · exact hline
  · exact hline

end LineKept

/-! ### What a transfer moves depends on nothing a line changes -/

section
variable {t i j : Nat} {s u : State} (h : LineKept t i j s u)
include h

theorem LineKept.tiles (p : Nat) : (u.part p).tiles = (s.part p).tiles := h.field Part.tiles (fun _ _ => rfl) p

theorem LineKept.chunkPrime (d : BitVec 512) (b : BitVec 256) (k : Nat) : u.chunkPrime t d b k = s.chunkPrime t d b k := by
  have hset : ∀ n, u.pset n = s.pset n := fun n => by simp only [State.pset, State.pset?, h.img]
  have hseq : ∀ p, u.pseq p = s.pseq p := fun p => pseq_congr h.seqs (h.field Part.seq (fun _ _ => rfl) p)
  simp only [State.chunkPrime, hset, hseq, tilePart_congr h.tiles]

theorem LineKept.chunkPieces (d : BitVec 512) (b : BitVec 256) (k : Nat) :
    u.chunkPieces t d (u.run t i) b k = s.chunkPieces t d (s.run t i) b k := by
  rw [chunkPieces_congr h.tiles, h.run]
  rfl

theorem LineKept.memVals (d : BitVec 512) (b : BitVec 256) (k : Nat) :
    u.memVals t d (u.run t i) b k = s.memVals t d (s.run t i) b k := by
  rw [State.memVals, State.memVals, h.chunkPieces, h.mem]

end

/-! ### The end of a transfer -/

/-- Steps that agree wherever what they keep holds do the same. -/
theorem each_congr_of_kept {s : State} {step step' : Nat → State → State} (P : State → Prop) (l : List Nat) (hs : P s)
    (hstep : ∀ u, P u → ∀ i ∈ l, step i u = step' i u ∧ P (step' i u)) : s.each l step = s.each l step' := by
  induction l generalizing s with
  | nil => rfl
  | cons i l ih =>
    obtain ⟨hfirst, hkept⟩ := hstep s hs i List.mem_cons_self
    change (step i s).each l step = (step' i s).each l step'
    rw [hfirst]
    exact ih hkept fun u hu j hj => hstep u hu j (List.mem_cons_of_mem i hj)

/-- Block x when the lines of its transfer in progress are in. -/
def Block.transferDone (x : Block) : Block := { x with next := x.next + 1, line := 0 }

theorem endTransfer_of_store {s : State} {t i : Nat} (j : Nat) (hstore : sdIsLoad (s.slot t i).desc = false) :
    s.endTransfer t i j = s.modBlock t i j Block.transferDone := by
  simp only [State.endTransfer, hstore, Bool.false_eq_true, not_false_eq_true, if_true]
  rfl

/-- A load's transfer of canonical residues, where it checks them, writes the rows of its chunks (R158, R166). -/
theorem endTransfer_of_load {s u : State} {t i j : Nat} (h : LineKept t i j s u) {d : BitVec 512} (hd : (s.slot t i).desc = d)
    {r : StreamRun} (hr : s.run t i = r) {b : Block} (hb : r.blocks[j]? = some b) (hload : sdIsLoad d = true)
    (hown : sharedRows d r b.entry = false) (hcanon : sd d 5 5 = 1 → ∀ k ∈ chunksOf d b.entry b.next,
      canonBad (s.chunkPrime t d b.entry k) (s.memVals t d r b.entry k) = false) :
    u.endTransfer t i j = (u.modBlock t i j Block.transferDone).each (chunksOf d b.entry b.next) fun k x =>
      x.writeRows t (beRow r b.entry k).toNat
        (pieceBytes (s.chunkBytes t d r b.entry) (s.chunkPieces t d r b.entry k) (s.memVals t d r b.entry k)) 0 := by
  subst hd hr
  have hblock : (s.run t i).blocks.getD j {} = b := by rw [List.getD_eq_getElem?_getD, hb, Option.getD_some]
  have hentry := h.entry
  have hnext := h.next
  rw [hblock] at hentry hnext
  have hchecked : ¬ (sd (s.slot t i).desc 5 5 = 1 ∧ (chunksOf (s.slot t i).desc b.entry b.next).any (fun k =>
      canonBad (s.chunkPrime t (s.slot t i).desc b.entry k) (s.memVals t (s.slot t i).desc (s.run t i) b.entry k)) = true) := by
    rintro ⟨hcheck, hbad⟩
    obtain ⟨k, hk, hbad⟩ := List.any_eq_true.mp hbad
    exact Bool.false_ne_true ((hcanon hcheck k hk).symm.trans hbad)
  have hshared : sharedRows (s.slot t i).desc (u.run t i) b.entry = false := by
    rw [h.run]
    exact hown
  unfold State.endTransfer
  simp only [h.desc, hload, hentry, hnext, hshared, h.chunkPrime, h.memVals, hchecked, not_true_eq_false, Bool.false_eq_true, if_false]
  refine each_congr_of_kept (fun x => ∀ p, (x.part p).tiles = (s.part p).tiles) _ h.tiles fun x hx k _ => ⟨?_, hx⟩
  rw [State.putChunk, chunkBytes_congr hx, chunkPieces_congr hx, h.run]
  rfl

/-! ### The next line of a block -/

theorem StoredOnly.storeBits (s : State) (a mask v : Nat) : StoredOnly s (s.storeBits a mask v).1 := by
  unfold State.storeBits
  extract_lets line old
  split
  · exact StoredOnly.storeLine ..
  · split
    · exact ⟨rfl, fun _ => rfl, fun _ h => h⟩
    · exact ⟨rfl, fun _ => rfl, fun _ h => h⟩

/-- The code of a write depends on nothing a run holds. -/
theorem storeBits_modRun_code (s : State) (t i : Nat) (f : StreamRun → StreamRun) (a mask v : Nat) :
    ((s.modRun t i f).storeBits a mask v).2 = (s.storeBits a mask v).2 := by
  simp only [State.storeBits, State.storeLine, apply_ite Prod.snd]
  rfl

/-- A run with a block is in progress, so a change of it is seen. -/
theorem run_modRun_of_block {s : State} {t i j : Nat} {b : Block} (hb : (s.run t i).blocks[j]? = some b)
    (f : StreamRun → StreamRun) : (s.modRun t i f).run t i = f (s.run t i) := by
  simp only [State.run, State.modRun, slot_modSlot] at hb ⊢
  cases hrun : (s.slot t i).run with
  | none => simp [hrun] at hb
  | some r => rfl

section
variable {s : State} {t i j : Nat} {b : Block} {d : BitVec 512} {r : StreamRun} (hslot : slotOk t i = true)
  (hactive : (s.slot t i).state = 2) (hd : (s.slot t i).desc = d) (hr : s.run t i = r) (hflight : flightBlock r = some j)
  (hopen : openBlock d r = some j) (hb : r.blocks[j]? = some b) {lines : List Nat}
  (hlines : s.transferLines t d r b.entry b.next = lines)
  (hcode : b.line = 0 → s.transferCode t d r b.entry (b.asleep == b.next + 1) b.next = 0) {a : Nat} (ha : lines.getD b.line 0 = a)
include hslot hactive hd hr hflight hopen hb hlines hcode ha

/-- A good line of a load lands; the last one of its transfer ends the transfer. -/
theorem exec_fetchLineLand_of_good (hload : sdIsLoad d = true) (hline : s.lineCode a = 0) {u : State}
    (hu : (s.delivered [a] (sdOp d != 4)).lineDone t i j = u) :
    exec (.fetchLineLand t i) s = .next (if b.line + 1 < lines.length then u else (u.endTransfer t i j).settleRun t i) := by
  have hblock : r.blocks.getD j {} = b := by rw [List.getD_eq_getElem?_getD, hb, Option.getD_some]
  have hcheck : (if b.line = 0 then s.transferCode t d r b.entry (b.asleep == b.next + 1) b.next else 0) = 0 := by
    split
    · next h => exact hcode h
    · rfl
  have hrunning : ¬ (2 : Nat) = 3 := by decide
  change guarded (slotOk t i) (if sdIsLoad (s.slot t i).desc then s.landLine t i else s) = _
  rw [guarded_next hslot, hd, if_pos hload, State.landLine]
  simp only [hd, hr, hflight, hblock, hlines, ha, hactive, hopen, hrunning, hcheck, hline, hu, tileFault_zero, ne_eq, not_true_eq_false,
    or_self, false_and, if_false]

/-- Memory performs the next line of a store; the last one of its transfer ends the transfer. -/
theorem exec_storeAck_of_good (hstore : sdIsLoad d = false) {f : SMap Nat × SMap (Nat × Nat)}
    (hf : s.transferFields t d r b.entry b.next = f) {v : State}
    (hv : (if b.line = 0 then s.modRun t i fun r => { r with seen := f.1, fields := f.2 } else s) = v) {e : Nat × Nat}
    (he : smGet (0, 0) (if b.line = 0 then f.2 else r.fields) a = e) (hsome : e.1 ≠ 0) (hwrite : (s.storeBits a e.1 e.2).2 = 0)
    {u : State} (hu : (State.tileLedger (v.storeBits a e.1 e.2).1 t fun l => l.wrEnd true).lineDone t i j = u) :
    exec (.storeAck t i) s = .next (if b.line + 1 < lines.length then u else (u.endTransfer t i j).settleRun t i) := by
  have hblock : r.blocks.getD j {} = b := by rw [List.getD_eq_getElem?_getD, hb, Option.getD_some]
  have hcheck : (if b.line = 0 then s.transferCode t d r b.entry (b.asleep == b.next + 1) b.next else 0) = 0 := by
    split
    · next h => exact hcode h
    · rfl
  have hgood : (v.storeBits a e.1 e.2).2 = 0 := by
    rw [← hv]
    split
    · rw [storeBits_modRun_code, hwrite]
    · exact hwrite
  have hfields : smGet (0, 0) (v.run t i).fields a = e := by
    rw [← he, ← hv]
    subst hr
    split
    · rw [run_modRun_of_block hb]
    · rfl
  have hsame : (if b.line ≠ 0 then s else s.modRun t i fun r => { r with seen := f.1, fields := f.2 }) = v := by
    rw [← hv, ite_not]
  have hacked : ((0 : Nat) == 0) = true := rfl
  change guarded (slotOk t i) (s.storeAck t i) = _
  rw [guarded_next hslot, State.storeAck]
  simp only [hd, hr, hflight, hblock, hlines, ha, hactive, hopen, hstore, hcheck, hf, hsame, hfields, hsome, hgood, hacked, hu,
    tileFault_zero, ne_eq, not_true_eq_false, Bool.false_eq_true, false_and, and_false, or_self, if_false]

end

/-- Settles O26: the premises are the guards of each command's good branch; a line changes nothing its transfer depends on, so the
end of the transfer is that of the state before the line. The order of a transfer's lines and the rows written with its last are
those of assumption log 13. -/
theorem streamTransfers : Obligations.StreamTransfers := by
  unfold Obligations.StreamTransfers
  refine ⟨?runs, ?lines⟩
  case runs =>
    intro s t i ht hi hactive
    have hslot : slotOk t i = true := by simp [slotOk, ht, hi]
    refine ⟨exec_blockListRead_of_good hslot hactive rfl, ?_⟩
    intro j b hfirst hb hbody hheader hcoords hwait hstride hcontext
    exact fun hsome => exec_streamBlockStart_of_ready hslot hactive hfirst hb hbody hheader hcoords hwait hstride hcontext rfl hsome rfl
  case lines =>
    intro s t i j b ht hi hactive d r hflight hopen hb lines a hcode
    have hslot : slotOk t i = true := by simp [slotOk, ht, hi]
    refine ⟨fun hload hline => ⟨fun hmore => ?more, fun hlast hown hcanon => ?last⟩, fun hstore => ?ack⟩
    case more =>
      rw [exec_fetchLineLand_of_good hslot hactive rfl rfl hflight hopen hb rfl hcode rfl hload hline rfl, if_pos hmore]
    case last =>
      rw [exec_fetchLineLand_of_good hslot hactive rfl rfl hflight hopen hb rfl hcode rfl hload hline rfl,
        if_neg (Nat.not_lt.mpr (Nat.le_of_eq hlast.symm))]
      have hkept := (LineKept.delivered s [a] (sdOp d != 4)).trans (LineKept.lineDone (t := t) (i := i) (j := j) _)
      rw [endTransfer_of_load hkept rfl rfl hb hload hown hcanon]
      rfl
    case ack =>
      intro f v e hsome hwrite u
      have hkept : LineKept t i j (v.storeBits a e.1 e.2).1 u := (LineKept.tileLedger _ _).trans (LineKept.lineDone _)
      have hslots : (v.storeBits a e.1 e.2).1.slot t i = v.slot t i := by
        rw [State.slot, State.slot, State.tile, (StoredOnly.storeBits v a e.1 e.2).tiles, State.tile]
      have hdesc : (v.slot t i).desc = d := by
        unfold v
        split
        · rw [State.modRun, slot_modSlot]
        · rfl
      rw [exec_storeAck_of_good hslot hactive rfl rfl hflight hopen hb rfl hcode rfl hstore rfl rfl rfl hsome hwrite rfl,
        endTransfer_of_store j (by rw [hkept.desc, hslots, hdesc, hstore])]
      rfl

end Sys2Proof.Machine
end

section
/-! Tensors in blocks (R161, R163, R169 to R172): what the checks of a tile read, the lines its fields lie in, and the two commands that
move a tensor tile by tile. -/

namespace Sys2Proof.Machine

/-! ### Checks of a tensor and its tiles -/

/-- A tensor that passes its checks begins with a header's line. -/
theorem aligned_of_tensorCode {s : State} {p a : Nat} {r : Region} {store : Bool} (h : s.tensorCode p a r store = 0) : a % 2048 = 0 := by
  refine Decidable.byContradiction fun hbad => ?_
  rw [State.tensorCode, if_pos hbad] at h
  exact absurd h (by decide)

section
variable {s u : State} {p : Nat} (hin : ∀ a n, u.inStacks p a n = s.inStacks p a n)
include hin

/-- A tile's position is the same where its list entry is. -/
theorem tensorPos_congr {tn : Tensor} {c : Nat} (hrange : ∀ a n, s.rangeCode a n = 0 → u.rangeCode a n = 0)
    (hentry : tn.mode = 1 → u.loadLE (tn.listAddr + 8 * c) 8 = s.loadLE (tn.listAddr + 8 * c) 8) (hgood : (s.tensorPos p tn c).1 = 0) :
    u.tensorPos p tn c = s.tensorPos p tn c := by
  unfold State.tensorPos at hgood ⊢
  by_cases hmode : tn.mode = 1
  · simp only [hmode, if_true, hentry hmode, hin] at hgood ⊢
    by_cases hcount : tn.listCount ≤ c
    · simp only [hcount, if_true]
    · by_cases hcode : (if s.inStacks p (tn.listAddr + 8 * c) 8 then s.rangeCode (tn.listAddr + 8 * c) 8 else cStreamRange) = 0
      · have hcode' : (if s.inStacks p (tn.listAddr + 8 * c) 8 then u.rangeCode (tn.listAddr + 8 * c) 8 else cStreamRange) = 0 := by
          split at hcode
          · next hstacks => rw [if_pos hstacks, hrange _ _ hcode]
          · exact absurd hcode (by decide)
        rw [hcode, hcode']
      · rw [if_neg hcount, if_pos hcode] at hgood
        exact absurd hgood hcode
  · rw [if_neg hmode, if_neg hmode]

theorem tileCode_zero_mono {l : List Piece} {read : Bool} (hline : ∀ a, s.lineCode a = 0 → u.lineCode a = 0)
    (hgood : s.tileCode p l read = 0) : u.tileCode p l read = 0 := by
  unfold State.tileCode at hgood ⊢
  simp only [hin]
  split at hgood
  · exact absurd hgood (by decide)
  · next hstacks =>
    rw [if_neg hstacks]
    cases read with
    | false => rfl
    | true =>
      simp only [if_true, find_ne_zero_getD_eq_zero_iff, List.forall_mem_map] at hgood ⊢
      exact fun l hl => hline l (hgood l hl)

end

/-! ### What a load of tiles leaves unchanged -/

namespace LoadedOnly

variable {s u : State} (h : LoadedOnly s u)
include h

theorem delivered (l : List Nat) (allocate : Bool) : LoadedOnly s (u.delivered l allocate) := by
  obtain ⟨x, m, rfl⟩ := h
  exact ⟨x, _, rfl⟩

theorem readLine (p a : Nat) (allocate : Bool) : LoadedOnly s (u.readLine p a allocate) := by
  unfold State.readLine
  split
  · exact h.delivered ..
  · exact h

theorem tensorRead (p : Nat) (tn : Tensor) (c : Nat) : LoadedOnly s (u.tensorRead p tn c) := by
  unfold State.tensorRead
  split
  · exact h.readLine ..
  · exact h

theorem lgWrite (p a : Nat) (d : List Byte) (stamp : Nat) : LoadedOnly s (u.lgWrite p a d stamp) := by
  obtain ⟨x, m, rfl⟩ := h
  obtain ⟨y, hy⟩ := lgWrite_frame { s with tiles := x, memc := m } p a d stamp
  exact ⟨y, m, hy⟩

theorem mem : u.mem = s.mem := by
  obtain ⟨x, m, rfl⟩ := h
  rfl

theorem lineCode {a : Nat} (hline : s.lineCode a = 0) : u.lineCode a = 0 := by
  obtain ⟨x, m, hu⟩ := h
  exact lineCode_zero_mono (by rw [hu]) (by rw [hu]; exact fun _ hl => hl) hline

theorem lgFits (p : Nat) (a : Int) (n : Nat) : u.lgFits p a n = s.lgFits p a n := by
  obtain ⟨x, m, rfl⟩ := h
  exact lgFits_congr (s := s) rfl a n

theorem tensorPos {p : Nat} {tn : Tensor} {c : Nat} (hgood : (s.tensorPos p tn c).1 = 0) : u.tensorPos p tn c = s.tensorPos p tn c := by
  refine tensorPos_congr (h.inStacks p) (fun _ _ => h.rangeCode) (fun _ => ?_) hgood
  rw [State.loadLE, h.mem, State.loadLE]

theorem tileCode {p : Nat} {l : List Piece} {read : Bool} (hgood : s.tileCode p l read = 0) : u.tileCode p l read = 0 :=
  tileCode_zero_mono (h.inStacks p) (fun _ => h.lineCode) hgood

end LoadedOnly

/-! ### The lines of a store's fields -/

section
variable {α : Type} {d v : α} {m : SMap α} {k : Nat}

theorem mem_smSet [DecidableEq α] {e : Nat × α} (h : e ∈ smSet d m k v) : e = (k, v) ∨ e ∈ m := by
  unfold smSet at h
  split at h
  · exact .inr (List.mem_filter.mp h).1
  · exact (mem_smIns _ k v e h).imp_right fun h => (List.mem_filter.mp h).1

/-- A key that reads as something is listed. -/
theorem mem_keys_of_smGet_ne (h : smGet d m k ≠ d) : k ∈ m.map (fun e => e.1) := by
  induction m with
  | nil => exact absurd rfl h
  | cons e m ih =>
    rw [smGet] at h
    split at h
    · next hk => exact hk ▸ List.mem_cons_self
    · exact List.mem_cons_of_mem _ (ih h)

end

/-- Marking keys leaves the marks there are and adds its own. -/
theorem smGet_foldl_mark (l : List Nat) (m : SMap Bool) (k : Nat) :
    smGet false (l.foldl (fun x a => smSet false x a true) m) k = (decide (k ∈ l) || smGet false m k) := by
  induction l generalizing m with
  | nil => simp
  | cons a l ih =>
    rw [List.foldl_cons, ih, smGet_smSet]
    by_cases h : k = a <;> simp [h]

/-- Every line of every piece is among their lines. -/
theorem mem_pieceLines {l : List Piece} {p : Piece} (hp : p ∈ l) {k : Nat} (hk : k ∈ p.lines) : k ∈ pieceLines l := by
  unfold pieceLines
  rw [← List.foldl_flatMap]
  refine mem_keys_of_smGet_ne (d := false) ?_
  rw [smGet_foldl_mark, decide_eq_true (List.mem_flatMap.mpr ⟨p, hp, hk⟩), Bool.true_or]
  exact Bool.false_ne_true.symm

theorem lineOf_of_mem_lines {p : Piece} {k : Nat} (hk : k ∈ p.lines) : lineOf k = k := by
  unfold Piece.lines at hk
  dsimp only at hk
  split at hk
  · exact absurd hk List.not_mem_nil
  · obtain ⟨i, -, rfl⟩ := List.mem_map.mp hk
    unfold lineOf
    omega

/-- A field is put on lines of its piece. -/
theorem mem_putField {m : SMap (Nat × Nat)} {p : Piece} {v : Nat} {e : Nat × Nat × Nat} (h : e ∈ putField m p v) :
    e.1 ∈ p.lines ∨ e ∈ m := by
  unfold putField at h
  dsimp only at h
  generalize p.lines = l at h ⊢
  induction l generalizing m with
  | nil => exact .inr h
  | cons k l ih =>
    rw [List.foldl_cons] at h
    rcases ih h with h | h
    · exact .inl (List.mem_cons_of_mem k h)
    · rcases mem_smSet h with rfl | h
      · exact .inl List.mem_cons_self
      · exact .inr h

/-- The fields of a store lie on lines of its pieces. -/
theorem lines_of_storeFields {reduce : Nat} {seen : SMap Nat} {l : List Piece} {v : List Nat} {e : Nat × Nat × Nat}
    (h : e ∈ (storeFields reduce seen l v).2) : ∃ p ∈ l, e.1 ∈ p.lines := by
  have hzip : ∀ x ∈ List.zip l v, x.1 ∈ l := fun x hx => (List.of_mem_zip hx).1
  have hstart : ∀ e ∈ ((seen, []) : SMap Nat × SMap (Nat × Nat)).2, ∃ p ∈ l, e.1 ∈ p.lines := by simp
  unfold storeFields at h
  generalize List.zip l v = z at h hzip
  generalize ((seen, []) : SMap Nat × SMap (Nat × Nat)) = acc at h hstart
  induction z generalizing acc with
  | nil => exact hstart e h
  | cons x z ih =>
    refine ih (fun y hy => hzip y (List.mem_cons_of_mem x hy)) _ h fun y hy => ?_
    rcases mem_putField hy with hy | hy
    · exact ⟨x.1, hzip x List.mem_cons_self, hy⟩
    · exact hstart y hy

/-! ### Masked stores over good lines -/

section
variable {s : State} {a : Nat} (h : s.lineCode a = 0)
include h

/-- A write of some bits of a good line is performed. -/
theorem storeBits_code_of_good (mask v : Nat) : (s.storeBits a mask v).2 = 0 := by
  obtain ⟨hdecode, hpoison⟩ := (lineCode_eq_zero_iff s a).mp h
  unfold State.storeBits
  extract_lets line old
  split
  · refine (storeLine_good s ?_ (.inr (length_toBytes ..))).1
    rw [decodeCode_lineOf, hdecode]
  · rw [if_neg (not_or.mpr ⟨not_not_intro hpoison, not_not_intro hdecode⟩)]

theorem storeBitsP_code_of_good (p mask v : Nat) : (s.storeBitsP p a mask v).2 = 0 :=
  storeBits_code_of_good ((StoredOnly.modLedger s p _).lineCode h) mask v

end

theorem memByte_storeBits_outside (s : State) {a b : Nat} (mask v : Nat) (h : lineOf b ≠ lineOf a) :
    memByte (s.storeBits a mask v).1.mem b = memByte s.mem b := by
  have hout : b < lineOf a ∨ lineOf a + 128 ≤ b := by
    unfold lineOf at h ⊢
    omega
  unfold State.storeBits
  extract_lets line old
  split
  · refine memByte_storeLine_outside s _ ?_
    rwa [length_toBytes]
  · split
    · rfl
    · rw [memByte_memWrite, length_toBytes, if_neg (by omega)]

theorem memBytes_congr {m m' : Mem} {a n : Nat} (h : ∀ b, a ≤ b → b < a + n → memByte m b = memByte m' b) :
    memBytes m a n = memBytes m' a n := by
  induction n generalizing a with
  | zero => rfl
  | succ n ih => rw [memBytes, memBytes, h a (by omega) (by omega), ih fun b hlo hhi => h b (by omega) (by omega)]

/-- State u differs from s by the tiles a store of tensor tn has written: the n first entries of its coordinate list are those of s
(R172). -/
structure ListKept (tn : Tensor) (n : Nat) (s u : State) : Prop extends StoredOnly s u where
  bytes : tn.mode = 1 → ∀ b, lineOf b ∈ linesOf tn.listAddr (8 * n) → memByte u.mem b = memByte s.mem b

namespace ListKept

variable {tn : Tensor} {n : Nat} {s t u : State}

theorem refl (s : State) : ListKept tn n s s := ⟨.refl s, fun _ _ _ => rfl⟩

theorem trans (h : ListKept tn n s t) (h' : ListKept tn n t u) : ListKept tn n s u :=
  ⟨h.toStoredOnly.trans h'.toStoredOnly, fun hmode b hb => (h'.bytes hmode b hb).trans (h.bytes hmode b hb)⟩

theorem readLine (s : State) (p a : Nat) (allocate : Bool) : ListKept tn n s (s.readLine p a allocate) := by
  unfold State.readLine
  split
  · exact ⟨⟨rfl, fun _ => rfl, fun _ h => h⟩, fun _ _ _ => rfl⟩
  · exact refl s

theorem tensorRead (s : State) (p : Nat) (tn' : Tensor) (c : Nat) : ListKept tn n s (s.tensorRead p tn' c) := by
  unfold State.tensorRead
  split
  · exact readLine ..
  · exact refl s

theorem storeBitsP (s : State) (p : Nat) {a : Nat} (mask v : Nat) (haway : tn.mode = 1 → lineOf a ∉ linesOf tn.listAddr (8 * n)) :
    ListKept tn n s (s.storeBitsP p a mask v).1 := by
  refine ⟨?_, fun hmode b hb => ?_⟩
  · unfold State.storeBitsP
    dsimp only
    exact ((StoredOnly.modLedger s p _).trans (.storeBits _ a mask v)).trans (.modLedger _ p _)
  · exact memByte_storeBits_outside (s.modLedger p _) mask v fun hsame => haway hmode (hsame ▸ hb)

/-- Masked stores to good lines away from the list are performed, and keep it. -/
theorem storeFieldsP {p : Nat} {l : SMap (Nat × Nat)}
    (hgood : ∀ e ∈ l, s.lineCode e.1 = 0 ∧ (tn.mode = 1 → lineOf e.1 ∉ linesOf tn.listAddr (8 * n))) :
    (s.storeFieldsP p l).2 = 0 ∧ ListKept tn n s (s.storeFieldsP p l).1 := by
  induction l generalizing s with
  | nil => exact ⟨rfl, refl s⟩
  | cons e l ih =>
    obtain ⟨hline, haway⟩ := hgood e List.mem_cons_self
    have hfirst := storeBitsP s p e.2.1 e.2.2 haway
    obtain ⟨hcode, hrest⟩ := ih (s := (s.storeBitsP p e.1 e.2.1 e.2.2).1) fun x hx =>
      (hgood x (List.mem_cons_of_mem e hx)).imp_left hfirst.lineCode
    have hcons : s.storeFieldsP p (e :: l) = (s.storeBitsP p e.1 e.2.1 e.2.2).1.storeFieldsP p l := by
      rw [State.storeFieldsP, List.foldl_cons]
      dsimp only
      rw [storeBitsP_code_of_good hline, ite_self]
      rfl
    rw [hcons]
    exact ⟨hcode, hfirst.trans hrest⟩

variable (h : ListKept tn n s u)
include h

theorem lgRead (p a m : Nat) : u.lgRead p a m = s.lgRead p a m :=
  lgRead_congr h.tiles (h.part_field Part.tiles (fun _ _ => rfl) p) a m

theorem lgFits (p : Nat) (a : Int) (m : Nat) : u.lgFits p a m = s.lgFits p a m :=
  lgFits_congr (h.part_field Part.tiles (fun _ _ => rfl) p) a m

theorem entry (hmode : tn.mode = 1) {c : Nat} (hc : c < n) :
    u.loadLE (tn.listAddr + 8 * c) 8 = s.loadLE (tn.listAddr + 8 * c) 8 := by
  refine congrArg ofBytes (memBytes_congr fun b hlo hhi => h.bytes hmode b ?_)
  refine (mem_linesOf ..).mpr ⟨by omega, b / 128, ?_, ?_, rfl⟩
  · omega
  · omega

theorem tensorPos {p c : Nat} (hc : c < n) (hgood : (s.tensorPos p tn c).1 = 0) : u.tensorPos p tn c = s.tensorPos p tn c :=
  tensorPos_congr (h.inStacks p) (fun _ _ => h.rangeCode) (fun hmode => h.entry hmode hc) hgood

theorem tileCode {p : Nat} {l : List Piece} {read : Bool} (hgood : s.tileCode p l read = 0) : u.tileCode p l read = 0 :=
  tileCode_zero_mono (h.inStacks p) (fun _ => h.lineCode) hgood

end ListKept

/-! ### Tensor moves -/

/-- A fold that accumulates a value and a code takes each step plainly where no step finds a code. -/
theorem foldl_eq_foldl_of_good {β : Type} {f : State × β × Nat → Nat → State × β × Nat} {step : State × β → Nat → State × β}
    (P : State → Prop) (l : List Nat) {s : State} {b : β} (hs : P s)
    (hstep : ∀ u b, P u → ∀ i ∈ l, f (u, b, 0) i = ((step (u, b) i).1, (step (u, b) i).2, 0) ∧ P (step (u, b) i).1) :
    l.foldl f (s, b, 0) = ((l.foldl step (s, b)).1, (l.foldl step (s, b)).2, 0) := by
  induction l generalizing s b with
  | nil => rfl
  | cons i l ih =>
    obtain ⟨hfirst, hkept⟩ := hstep s b hs i List.mem_cons_self
    rw [List.foldl_cons, List.foldl_cons, hfirst]
    exact ih hkept fun u b hu j hj => hstep u b hu j (List.mem_cons_of_mem i hj)

theorem length_pieceBytes (n : Nat) (l : List Piece) (v : List Nat) : (pieceBytes n l v).length = n := length_toBytes ..

section
variable {s t : State} {p : Nat} {g : GInstr} (hg : gOk p g = true) (hfree : s.gFree p) (ht : s.gEnd p 0 = t) {a : Nat}
  (ha : t.gAddr p g = a) {tn : Tensor} (htn : tensorOf (t.loadLE a 64) = tn) {pieces : Nat → List Piece}
  (hpieces : ∀ c, tn.pieces (a + 2048 : Nat) (t.tensorPos p tn c).2 = pieces c) {r : Region}
include hg hfree ht ha htn hpieces

/-- LDT of good tiles that fit their blocks. -/
theorem exec_ldt_of_good (hr : t.region p g.rx = r) (hvalid : s.ldtBad p g = false) (hcode : t.tensorCode p a r false = 0)
    (hgood : ∀ c, c < r.count → (t.tensorPos p tn c).1 = 0 ∧ t.lgFits p (r.blockAt c) tn.blockBytes = true ∧
      t.tileCode p (pieces c) true = 0) :
    exec (.ldt p g) s = .next ((t.readLine p a true).each (upTo r.count) fun c u =>
      ((u.tensorRead p tn c).delivered (pieceLines (pieces c)) true).lgWrite p (r.blockAt c).toNat
        (if r.stride = 0 ∧ 0 < c then
          combineBlocks tn.reduce ((u.tensorRead p tn c).lgRead p (r.blockAt c).toNat tn.blockBytes)
            (pieceBytes tn.blockBytes (pieces c) ((pieces c).map fun e => e.fromMem t.mem))
        else pieceBytes tn.blockBytes (pieces c) ((pieces c).map fun e => e.fromMem t.mem)) 0) := by
  have hbase : ((a : Int) + 2048) = ((a + 2048 : Nat) : Int) := rfl
  change guarded (gOk p g) (s.gCmd p 0x0105 g (runLdt p g)) = _
  rw [guarded_gCmd_of_free hg hfree, runLdt, gRun_of_valid p hvalid, ht]
  dsimp only
  rw [ha, hr, htn, hcode, if_pos (aligned_of_tensorCode hcode), if_neg (not_not_intro rfl), hbase,
    foldl_eq_each (LoadedOnly t) _ ((LoadedOnly.refl t).readLine ..) ?tile]
  · rfl
  case tile =>
    intro u hu c hc
    obtain ⟨hpos, hfits, htile⟩ := hgood c (List.mem_range.mp hc)
    refine ⟨?_, ((hu.tensorRead ..).delivered ..).lgWrite ..⟩
    simp only [hu.tensorPos hpos, hu.lgFits, hpieces, hpos, hfits, hu.tileCode htile, (hu.tensorRead p tn c).mem, Tensor.loadBlock,
      ne_eq, not_true_eq_false, if_true, if_false]

/-- STT of good tiles from rows that are valid, to good lines that hold none of the tensor's list. -/
theorem exec_stt_of_good (hr : t.region p g.ry = r) (hvalid : s.sttBad p g = false) (hcode : t.tensorCode p a r true = 0)
    (hgood : ∀ c, c < r.count → (t.tensorPos p tn c).1 = 0 ∧ t.lgFits p (r.blockAt c) tn.blockBytes = true ∧
      t.lgValid p (r.blockAt c).toNat tn.blockBytes = true ∧ t.tileCode p (pieces c) false = 0 ∧
      ∀ l ∈ pieceLines (pieces c), t.lineCode l = 0 ∧ (tn.mode = 1 → l ∉ linesOf tn.listAddr (8 * r.count))) :
    exec (.stt p g) s = .next ((upTo r.count).foldl (fun (acc : State × SMap Nat) c =>
      let b := ofBytes (t.lgRead p (r.blockAt c).toNat tn.blockBytes)
      let f := storeFields tn.reduce acc.2 (pieces c) ((pieces c).map fun e => (b >>> e.spad) % 2 ^ e.sw)
      (((acc.1.tensorRead p tn c).storeFieldsP p f.2).1, f.1)) (t.readLine p a true, [])).1 := by
  have hbase : ((a : Int) + 2048) = ((a + 2048 : Nat) : Int) := rfl
  change guarded (gOk p g) (s.gCmd p 0x0106 g (runStt p g)) = _
  rw [guarded_gCmd_of_free hg hfree, runStt, gRun_of_valid p hvalid, ht]
  dsimp only
  rw [ha, hr, htn, hcode, if_pos (aligned_of_tensorCode hcode), if_neg (not_not_intro rfl), hbase,
    foldl_eq_foldl_of_good (ListKept tn r.count t) _ (ListKept.readLine t ..) ?tile]
  · rfl
  case tile =>
    intro u seen hu c hc
    have hc' := List.mem_range.mp hc
    obtain ⟨hpos, hfits, hrows, htile, hlines⟩ := hgood c hc'
    have hread : ListKept tn r.count t (u.tensorRead p tn c) := hu.trans (ListKept.tensorRead ..)
    have hstored := ListKept.storeFieldsP (tn := tn) (n := r.count) (s := u.tensorRead p tn c) (p := p)
      (l := (storeFields tn.reduce seen (pieces c) ((pieces c).map fun e =>
        (ofBytes (t.lgRead p (r.blockAt c).toNat tn.blockBytes) >>> e.spad) % 2 ^ e.sw)).2) fun e he => ?fields
    case fields =>
      obtain ⟨x, hx, hex⟩ := lines_of_storeFields he
      obtain ⟨hline, haway⟩ := hlines _ (mem_pieceLines hx hex)
      rw [lineOf_of_mem_lines hex]
      exact ⟨hread.lineCode hline, haway⟩
    obtain ⟨hcode, hkept⟩ := hstored
    refine ⟨?_, hread.trans hkept⟩
    simp only [hu.tensorPos hc' hpos, hu.lgFits, hu.lgValid, hread.lgRead, hpieces, hpos, hfits, hrows, hu.tileCode htile, hcode,
      ne_eq, not_true_eq_false, if_true, if_false, ite_self]

end

/-- Settles O15: no tile meets a code, so each takes the good branch of its command in turn; what a tile moves leaves every check of
the next, its list entry and its lines among them, as it was. -/
theorem tensorMoves : Obligations.TensorMoves := by
  unfold Obligations.TensorMoves
  intro s p g hg hfree t a tn pieces
  refine ⟨?ldt, ?stt⟩
  case ldt =>
    intro r step hvalid hcode hgood
    rw [exec_ldt_of_good hg hfree rfl rfl rfl (fun _ => rfl) rfl hvalid hcode hgood]
    simp only [combineBlocks, length_pieceBytes]
    rfl
  case stt =>
    intro r step hvalid hcode hgood
    exact exec_stt_of_good hg hfree rfl rfl rfl (fun _ => rfl) rfl hvalid hcode hgood

end Sys2Proof.Machine
end

section
/-! Integer tiles (R182, R183): accumulation modulo 2^w is the sum modulo 2^w, step by step and block by block. -/

namespace Sys2Proof.Machine

/-- Reducing a summand before an addition changes nothing modulo 2^w. -/
theorem fromSigned_add_fromSigned (w : Nat) (a x : Int) : fromSigned w ((fromSigned w a : Int) + x) = fromSigned w (a + x) := by
  have hpos : (0 : Int) < ((2 ^ w : Nat) : Int) := Int.natCast_pos.mpr (Nat.two_pow_pos w)
  have hreduced : ((fromSigned w a : Nat) : Int) = a % ((2 ^ w : Nat) : Int) :=
    Int.toNat_of_nonneg (Int.emod_nonneg a (Int.ne_of_gt hpos))
  rw [hreduced, fromSigned, fromSigned, Int.emod_add_emod]

/-- A fold whose steps each add a term modulo 2^w adds the terms' sum modulo 2^w. -/
theorem foldl_fromSigned {α : Type} {w : Nat} {step : Nat → α → Nat} {term : α → Int} (l : List α)
    (hstep : ∀ a k, step (fromSigned w a) k = fromSigned w (a + term k)) (a : Int) :
    l.foldl step (fromSigned w a) = fromSigned w (a + (l.map term).sum) := by
  induction l generalizing a with
  | nil => rw [List.foldl_nil, List.map_nil, List.sum_nil, Int.add_zero]
  | cons k l ih => rw [List.foldl_cons, hstep, ih, List.map_cons, List.sum_cons, Int.add_assoc]

/-- A k-step of the 8-bit integer mode (R183). -/
theorem macStep_int8 (acc : Int) (a b : Nat) :
    macStep 2 (fromSigned 32 acc) a b = fromSigned 32 (acc + toSigned 8 a * toSigned 8 b) :=
  fromSigned_add_fromSigned 32 acc _

/-- Element (i, j) of a tile is lane 64·i + j (R182). -/
theorem getD_outTile (z : Shape) (a b : Nat → List Byte) {i j : Nat} (hi : i < 64) (hj : j < 64) :
    (outTile z a b).getD (64 * i + j) 0 = (upTo z.kb).foldl (fun v k =>
      (upTo (blockSteps z.mode)).foldl (fun v n =>
        macStep z.mode v (matElem z.mode (transCode z.aTrans) (a k) n i) (matElem z.mode (transCode z.bTrans) (b k) n j)) v) 0 := by
  have hlane : 64 * i + j < 4096 := by omega
  have hrow : (64 * i + j) / 64 = i := by omega
  have hcol : (64 * i + j) % 64 = j := by omega
  simp only [outTile, upTo, List.getD_eq_getElem?_getD, List.getElem?_map, List.getElem?_range hlane, Option.map_some,
    Option.getD_some, hrow, hcol]

/-- Settles O17: the steps of a block add its products to the accumulator, and the blocks add up. -/
theorem integerTiles : Obligations.IntegerTiles := by
  unfold Obligations.IntegerTiles
  intro z a b i j hmode ha hb hi hj
  rw [getD_outTile z a b hi hj, hmode, ha, hb]
  refine (foldl_fromSigned (w := 32) (upTo z.kb) (fun acc k => ?block) 0).trans (congrArg (fromSigned 32) (Int.zero_add _))
  case block => exact foldl_fromSigned (upTo 64) (fun acc n => macStep_int8 acc _ _) acc

end Sys2Proof.Machine
end

section
/-! Bytes of the logical scratchpad (R123): what a read returns after a write. -/

namespace Sys2Proof.Machine

/-- Byte a of the logical scratchpad of partition p. -/
def State.lgByte (s : State) (p a : Nat) : Byte := memByte (s.tile (s.lgPlace p a).1).spad (s.lgPlace p a).2

section
variable (s : State) (p : Nat)

/-- A write within one logical row lies in one tile, so it writes its own bytes and no others. -/
theorem lgByte_lgPut (a b : Nat) {d : List Byte} (stamp : Nat) (h : a % 128 + d.length ≤ 128) :
    (s.lgPut p a d stamp).lgByte p b = if a ≤ b ∧ b < a + d.length then d.getD (b - a) 0 else s.lgByte p b := by
  have hplace : (s.lgPut p a d stamp).lgPlace p b = s.lgPlace p b := rfl
  rw [State.lgByte, hplace, State.lgPut, State.modTile_tile]
  by_cases htile : (s.lgPlace p b).1 = (s.lgPlace p a).1
  · have hsame : b / (5 * 1048576) = a / (5 * 1048576) := Nat.add_left_cancel htile
    have hrange : ((s.lgPlace p a).2 ≤ (s.lgPlace p b).2 ∧ (s.lgPlace p b).2 < (s.lgPlace p a).2 + d.length) ↔
        (a ≤ b ∧ b < a + d.length) := by
      simp only [State.lgPlace, Config.logicalPerTile]
      omega
    have hoffset : (s.lgPlace p b).2 - (s.lgPlace p a).2 = b - a := by
      simp only [State.lgPlace, Config.logicalPerTile]
      omega
    rw [if_pos htile, memByte_memWrite, hoffset, State.lgByte, htile]
    simp only [hrange]
  · have hsplit : b / (5 * 1048576) ≠ a / (5 * 1048576) := fun h =>
      htile (congrArg (p * (s.part p).tiles + ·) h)
    have hout : ¬ (a ≤ b ∧ b < a + d.length) := by omega
    rw [if_neg htile, if_neg hout]
    rfl

/-- The first row and the rest of the bytes join as one write does in memory. -/
theorem lgByte_lgWriteLoop (fuel : Nat) (s : State) (a b : Nat) (d : List Byte) (stamp : Nat) (hfuel : d.length < fuel) :
    (State.lgWriteLoop fuel s p a d stamp).lgByte p b =
      if a ≤ b ∧ b < a + d.length then d.getD (b - a) 0 else s.lgByte p b := by
  induction fuel generalizing s a d with
  | zero => omega
  | succ fuel ih =>
    unfold State.lgWriteLoop
    split
    case isTrue hempty =>
      have hout : ¬ (a ≤ b ∧ b < a + d.length) := by
        rw [List.isEmpty_iff_length_eq_zero.mp hempty]
        omega
      rw [if_neg hout]
    case isFalse hmore =>
      have hlen : 0 < d.length := List.length_pos_iff.mpr (by simpa using hmore)
      have hrow : a % 128 + (d.take (128 - a % 128)).length ≤ 128 := by
        rw [List.length_take]
        omega
      have hjoin := congrArg (memByte · b) (memWrite_take_drop (memPut [] b (s.lgByte p b)) a (128 - a % 128) d)
      simp only [memByte_memWrite, memByte_memPut, if_true] at hjoin
      dsimp only
      rw [ih _ _ _ (by rw [List.length_drop]; omega), lgByte_lgPut s p a b stamp hrow, hjoin]

/-- A write of the logical scratchpad writes its bytes and no others. -/
theorem lgByte_lgWrite (a b : Nat) (d : List Byte) (stamp : Nat) :
    (s.lgWrite p a d stamp).lgByte p b = if a ≤ b ∧ b < a + d.length then d.getD (b - a) 0 else s.lgByte p b :=
  lgByte_lgWriteLoop p _ s a b d stamp (Nat.lt_succ_self _)

theorem lgRead_eq_map (a n : Nat) : s.lgRead p a n = (List.range n).map fun i => s.lgByte p (a + i) := by
  induction n generalizing a with
  | zero => rfl
  | succ n ih =>
    rw [State.lgRead, ih, List.range_succ_eq_map, List.map_cons, List.map_map]
    refine congrArg (List.cons (s.lgByte p a)) (List.map_congr_left fun i _ => ?_)
    rw [Function.comp_apply, Nat.add_assoc, Nat.add_comm 1 i]

/-- A read of what was written returns it. -/
theorem lgRead_lgWrite (a : Nat) (d : List Byte) (stamp : Nat) : (s.lgWrite p a d stamp).lgRead p a d.length = d := by
  rw [lgRead_eq_map]
  refine List.ext_getElem (by rw [List.length_map, List.length_range]) fun i _ hi => ?_
  rw [List.getElem_map, List.getElem_range, lgByte_lgWrite, if_pos (by omega), Nat.add_sub_cancel_left,
    List.getD_eq_getElem?_getD, List.getElem?_eq_getElem hi, Option.getD_some]

theorem part_lgWrite (a : Nat) (d : List Byte) (stamp p' : Nat) : (s.lgWrite p a d stamp).part p' = s.part p' := by
  obtain ⟨x, hx⟩ := lgWrite_frame s p a d stamp
  rw [hx]
  rfl

end

end Sys2Proof.Machine
end

section
/-! Matrix products and vector passes (R182, R198, R199): what an MMUL does once it has read a good shape record, and a VPASS over one
queued tile and over none. -/

namespace Sys2Proof.Machine

/-! ### MMUL -/

/-- Output tile i of an MMUL: row block i / NT of A by column block i % NT of B (R198). -/
def State.mmulTile (s : State) (p : Nat) (z : Shape) (ra rb : Region) (i : Nat) : List Nat :=
  outTile z (fun k => s.lgRead p (ra.blockAt (i / z.nt * z.kb + k)).toNat (blockSize z.mode))
    (fun k => s.lgRead p (rb.blockAt (k * z.nt + i % z.nt)).toNat (blockSize z.mode))

/-- What an MMUL does once it has read a good shape record. -/
def State.mmulBody (s : State) (p : Nat) (z : Shape) (rx ra rb : Region) : State :=
  let tiles := z.mt * z.nt
  if tiles = 0 ∨ z.kb = 0 then s.modPart p fun x => { x with mmulQ := if z.toRx then none else some [] }
  else
    let ca := s.blocksCode p ra (z.mt * z.kb) (blockSize z.mode)
    let cb := s.blocksCode p rb (z.kb * z.nt) (blockSize z.mode)
    let c := if ca ≠ 0 then ca else cb
    if c ≠ 0 then (if z.toRx then s.dropBlocks p rx 16384 else s).gFault p c
    else if z.toRx ∧ (upTo tiles).any (fun i => !s.lgFits p (rx.blockAt i) 16384) then s.gFault p cStreamRange
    else
      let out := (upTo tiles).map (s.mmulTile p z ra rb)
      if z.toRx then
        let st := (s.modPart p fun x => { x with mmulQ := none }).gStamp
        st.2.each (upTo tiles) fun i x =>
          x.lgWrite p (rx.blockAt i).toNat (((out.getD i []).map (toBytes 4)).flatten) st.1
      else s.modPart p fun x => { x with mmulQ := some out }

section
variable {s : State} {p : Nat} {g : GInstr} (hg : gOk p g = true) (hfree : s.gFree p)
include hg hfree

/-- An MMUL whose shape record lies in a good line of the partition's stacks goes on to its products. -/
theorem exec_mmul_of_shape {t : State} (ht : s.gEnd p 0 = t) (hvalid : s.mmulBad p g = false) {a : Nat} (ha : t.shapeAddr p g = a)
    (haligned : a % 2048 = 0) (hin : t.inStacks p a 32 = true) (hline : t.lineCode a = 0) {z : Shape}
    (hz : shapeOf (t.loadLE a 32) = z) (hgood : z.bad = false) :
    exec (.mmul p g) s =
      .next ((t.readLine p a true).mmulBody p z (t.region p g.rx) (t.region p g.ry) (t.region p g.imm64)) := by
  obtain ⟨m, hm⟩ := readLine_frame t p a true
  have hin' : State.inStacks { t with memc := m } p a 32 = true := hin
  change guarded (gOk p g) (s.gCmd p 0x0400 g (runMmul p g)) = _
  rw [guarded_gCmd_of_free hg hfree, runMmul, gRun_of_valid p hvalid, ht]
  dsimp only
  rw [ha, if_pos hin, hz, hline, if_pos haligned, hm, if_neg (not_not_intro haligned), if_neg (not_not_intro hin'),
    if_neg (not_not_intro rfl), hgood, if_neg Bool.false_ne_true]
  rfl

end

section
variable {s : State} {p : Nat} {z : Shape} {rx ra rb : Region}

/-- An MMUL of no work leaves no tile. -/
theorem mmulBody_of_empty (h : z.mt = 0 ∨ z.nt = 0 ∨ z.kb = 0) :
    s.mmulBody p z rx ra rb = s.modPart p fun x => { x with mmulQ := if z.toRx then none else some [] } := by
  have hnone : z.mt * z.nt = 0 ∨ z.kb = 0 := by rwa [Nat.mul_eq_zero, or_assoc]
  rw [State.mmulBody, if_pos hnone]

section
variable (hmt : 0 < z.mt) (hnt : 0 < z.nt) (hkb : 0 < z.kb) (ha : s.blocksCode p ra (z.mt * z.kb) (blockSize z.mode) = 0)
  (hb : s.blocksCode p rb (z.kb * z.nt) (blockSize z.mode) = 0)
include hmt hnt hkb ha hb

/-- Its tiles wait for the pass that follows. -/
theorem mmulBody_of_queue (hq : z.toRx = false) : s.mmulBody p z rx ra rb =
    s.modPart p fun x => { x with mmulQ := some ((upTo (z.mt * z.nt)).map (s.mmulTile p z ra rb)) } := by
  have hsome : ¬ (z.mt * z.nt = 0 ∨ z.kb = 0) := not_or.mpr ⟨Nat.ne_of_gt (Nat.mul_pos hmt hnt), Nat.ne_of_gt hkb⟩
  simp only [State.mmulBody, if_neg hsome, ha, hb, hq, ne_eq, not_true_eq_false, if_false, Bool.false_eq_true, false_and]

/-- Its tiles reach RX, where each fits. -/
theorem mmulBody_of_rx (hq : z.toRx = true) (hfits : ∀ i, i < z.mt * z.nt → s.lgFits p (rx.blockAt i) 16384 = true) {v : Nat × State}
    (hv : (s.modPart p fun x => { x with mmulQ := none }).draw = v) :
    s.mmulBody p z rx ra rb = v.2.each (upTo (z.mt * z.nt)) fun i x =>
      x.lgWrite p (rx.blockAt i).toNat (((s.mmulTile p z ra rb i).map (toBytes 4)).flatten) (v.1 % 16) := by
  have hsome : ¬ (z.mt * z.nt = 0 ∨ z.kb = 0) := not_or.mpr ⟨Nat.ne_of_gt (Nat.mul_pos hmt hnt), Nat.ne_of_gt hkb⟩
  have hfit : (upTo (z.mt * z.nt)).any (fun i => !s.lgFits p (rx.blockAt i) 16384) = false := by simpa [upTo] using hfits
  simp only [State.mmulBody, if_neg hsome, ha, hb, hq, hfit, State.gStamp, hv, ne_eq, not_true_eq_false, if_false, if_true,
    Bool.false_eq_true, and_false]
  refine each_congr _ fun i hi => ?_
  rw [List.getD_eq_getElem?_getD, List.getElem?_map, upTo, List.getElem?_range (List.mem_range.mp hi), Option.map_some,
    Option.getD_some]

end
end

/-! ### Blocks beside the read of a line -/

section
variable (s : State) (p a : Nat)

theorem lgRead_readLine (b n : Nat) : (s.readLine p a true).lgRead p b n = s.lgRead p b n := by
  obtain ⟨m, hm⟩ := readLine_frame s p a true
  rw [hm]
  exact lgRead_congr (u := { s with memc := m }) (s := s) rfl rfl b n

theorem lgFits_readLine (b : Int) (n : Nat) : (s.readLine p a true).lgFits p b n = s.lgFits p b n :=
  (LoadedOnly.refl s).readLine p a true |>.lgFits p b n

theorem blocksCode_readLine (r : Region) (n size : Nat) : (s.readLine p a true).blocksCode p r n size = s.blocksCode p r n size := by
  obtain ⟨m, hm⟩ := readLine_frame s p a true
  have hvalid : ∀ b, State.lgValid { s with memc := m } p b size = s.lgValid p b size :=
    fun b => lgValid_congr (u := { s with memc := m }) (s := s) rfl rfl b size
  simp only [State.blocksCode, lgFits_readLine]
  simp only [hm, hvalid]

theorem mmulTile_readLine (z : Shape) (ra rb : Region) : (s.readLine p a true).mmulTile p z ra rb = s.mmulTile p z ra rb := by
  funext i
  simp only [State.mmulTile, lgRead_readLine]

end

/-! ### VPASS -/

/-- A write of the logical scratchpad adds the tiles to what a state differs in. -/
theorem lgWrite_eq_of_frame {s z : State} (h : z = { s with parts := z.parts, free := z.free }) (p a : Nat) (d : List Byte)
    (stamp : Nat) : z.lgWrite p a d stamp =
      { s with tiles := (z.lgWrite p a d stamp).tiles, parts := (z.lgWrite p a d stamp).parts,
               free := (z.lgWrite p a d stamp).free } := by
  obtain ⟨x, hx⟩ := lgWrite_frame z p a d stamp
  rw [hx]
  exact congrArg (fun y : State => { y with tiles := x }) h

/-- Lane k of a VPASS with F1 = 0 over queued tile x: no operand beside it, RND 0, mask 0, generator slot 0 (R190, R199). -/
def State.vpassLane (t : State) (p : Nat) (g : GInstr) (x : List Nat) (k : Nat) : LaneIn :=
  let slot := smGet {} (t.tile (p * (t.part p).tiles)).gen 0
  let t0 := if g.param = 0 then g.imm64 else t.kparam p (g.param - 1)
  { vop := g.f0, x := x.getD k 0, y := 0, rnd := 0, shift := g.f2, maskBit := ((t.part p).mask 0 0).getLsbD k
    key := slot.key ++ List.replicate (16 - slot.key.length) 0#8, stream := slot.stream, dropP := slot.dropP
    index := (t0 * 4096 + k) % 2 ^ 64 }

/-- What the 4,096 lanes of such a pass give. -/
def State.vpassLanes (t : State) (p : Nat) (g : GInstr) (x : List Nat) : List LaneOut :=
  (List.range 4096).map fun k => laneOp (t.vpassLane p g x k)

theorem leAt_nil (off n : Nat) : leAt [] off n = 0 := by rw [leAt, List.drop_nil, List.take_nil, ofBytes]

theorem bits_zero (hi lo : Nat) : bits 0 hi lo = 0 := by rw [bits, Nat.zero_shiftRight, Nat.zero_mod]

theorem bit_zero (i : Nat) : bit 0 i = false := Nat.zero_testBit i

section
variable {s t : State} {p : Nat} {g : GInstr} (hg : gOk p g = true) (hfree : s.gFree p) (ht : s.gEnd p 0 = t)
  (hvalid : s.vpassInvalid p g = false)
include hg hfree ht hvalid

/-- A VPASS that finds a queue of no tile empties it and processes nothing. -/
theorem exec_vpass_of_empty (hq : (t.part p).mmulQ = some []) :
    exec (.vpass p g) s = .next (t.draw.2.modPart p fun x => { x with mmulQ := none }) := by
  have hblocks : ∀ r size, t.blocksCode p r 0 size = 0 := fun _ _ => rfl
  have hrun : exec (.vpass p g) s = .next (runVpass p g s) := guarded_gCmd_of_free hg hfree 0x0401 (runVpass p g)
  rw [hrun, runVpass, gRun_of_valid p hvalid, ht]
  simp only [hq, Option.isSome_some, Option.getD_some, List.length_nil, if_true, hblocks, ite_self, upTo, List.range_zero,
    List.any_nil, List.foldl_nil, ne_eq, not_true_eq_false, if_false, Bool.false_eq_true]
  rfl

/-- A VPASS over one queued tile that fits its block and whose lanes take their operands: the masks and the block change. -/
theorem exec_vpass_of_tile {x : List Nat} (hq : (t.part p).mmulQ = some [x]) (hry : (t.region p g.ry).count = 0) (hf1 : g.f1 = 0)
    (hfits : t.lgFits p ((t.region p g.rx).blockAt 0) (512 * vopBits g.f0) = true)
    (hlanes : ∀ o ∈ t.vpassLanes p g x, o.bad = false) :
    ∃ m : BitVec 4096, exec (.vpass p g) s = .next (((t.draw.2.modPart p fun y => { y with mmulQ := none }).modPart p fun y =>
      { y with masks := smSet (BitVec.allOnes 4096) y.masks 0 m }).lgWrite p ((t.region p g.rx).blockAt 0).toNat
        (packLanes (vopBits g.f0) ((t.vpassLanes p g x).map fun o => o.val)) (t.draw.1 % 16)) := by
  have hone : upTo 1 = [0] := rfl
  have hall : upTo 4096 = List.range 4096 := rfl
  have hrun : exec (.vpass p g) s = .next (runVpass p g s) := guarded_gCmd_of_free hg hfree 0x0401 (runVpass p g)
  have hfit : [0].any (fun i => !t.lgFits p ((t.region p g.rx).blockAt i) (vpassOut g)) = false := by
    simp only [vpassOut, List.any_cons, List.any_nil, hfits, Bool.not_true, Bool.or_self]
  have hpart : (t.draw.2.modPart p fun y => { y with mmulQ := none }).part p = { t.part p with mmulQ := none } :=
    (State.modPart_part ..).trans (if_pos rfl)
  have hmask : Part.mask { t.part p with mmulQ := none } 0 0 = (t.part p).mask 0 0 := rfl
  have htile : ∀ n, (t.draw.2.modPart p fun y => { y with mmulQ := none }).tile n = t.tile n := fun _ => rfl
  have hgood : (List.range 4096).any (fun k => (laneOp (t.vpassLane p g x k)).bad) = false := by
    rw [List.any_eq_false]
    exact fun k hk => by rw [hlanes _ (List.mem_map_of_mem hk)]; exact Bool.false_ne_true
  simp only [State.vpassLane] at hgood
  rw [hrun, runVpass, gRun_of_valid p hvalid, ht]
  simp only [hq, hry, hf1, Option.isSome_some, Option.getD_some, List.length_singleton, hone, hall, hfit, State.gStamp, hpart, hmask,
    htile, bits_zero, bit_zero, leAt_nil, hgood, List.foldl_cons, List.foldl_nil, List.getD_cons_zero, List.any_map, List.map_map,
    Function.comp_def, State.vpassLanes, Nat.zero_mod, Nat.add_zero, Nat.mul_zero, and_self, false_and, ne_eq, not_true_eq_false,
    Bool.false_eq_true, if_true, if_false]
  exact ⟨_, rfl⟩

end

/-- Settles O16: an MMUL by its shape record, its products read beside it; a VPASS by the tiles of its queue. -/
theorem matrixCommands : Obligations.MatrixCommands := by
  unfold Obligations.MatrixCommands
  intro s p g hg hfree t
  refine ⟨?mmul, ?pass, fun hq hvalid => exec_vpass_of_empty hg hfree rfl hvalid hq⟩
  case mmul =>
    intro a z rx ra rb u tile hvalid haligned hin hline hgood
    rw [exec_mmul_of_shape hg hfree rfl hvalid rfl haligned hin hline rfl hgood]
    refine ⟨fun hnone => by rw [mmulBody_of_empty hnone], fun hmt hnt hkb ha hb => ?_⟩
    have htile : u.mmulTile p z ra rb = tile := mmulTile_readLine t p a z ra rb
    have ha' := (blocksCode_readLine t p a ra _ _).trans ha
    have hb' := (blocksCode_readLine t p a rb _ _).trans hb
    refine ⟨fun hq => ?_, fun hq hfits => ?_⟩
    · rw [mmulBody_of_queue hmt hnt hkb ha' hb' hq, htile]
      rfl
    · rw [mmulBody_of_rx hmt hnt hkb ha' hb' hq (fun i hi => (lgFits_readLine t p a _ _).trans (hfits i hi)) rfl, htile]
      rfl
  case pass =>
    intro x hq hvalid hry hf1 hfits slot t0 outs hlanes
    obtain ⟨m, hexec⟩ := exec_vpass_of_tile hg hfree rfl hvalid hq hry hf1 hfits hlanes
    refine ⟨_, hexec, ?queue, lgRead_lgWrite .., ?frame⟩
    case queue => rw [part_lgWrite, State.modPart_part, if_pos rfl, State.modPart_part, if_pos rfl]
    case frame => exact lgWrite_eq_of_frame rfl ..

end Sys2Proof.Machine
end

section
/-! Noise requests (R200, R201, R353, R362, R363): what a token to a partition's tiles leaves unchanged, generate requests of the
noise generator, the ranges of coefficients, and limbs stored one after another. -/

namespace Sys2Proof.Machine

/-! ### Tokens to a partition's tiles (R100) -/

/-- State u differs from s by emitted tokens: in tiles and in the ledgers of partitions. -/
structure EmittedOnly (s u : State) : Prop where
  frame : u = { s with tiles := u.tiles, parts := u.parts }
  part : ∀ p, u.part p = { s.part p with ledger := (u.part p).ledger }

namespace EmittedOnly

variable {s t u : State}

theorem refl (s : State) : EmittedOnly s s := ⟨rfl, fun _ => rfl⟩

theorem trans (h : EmittedOnly s t) (h' : EmittedOnly t u) : EmittedOnly s u := by
  refine ⟨?_, fun p => ?_⟩
  · have hframe := h'.frame
    rw [h.frame] at hframe
    exact hframe
  · have hpart := h'.part p
    rw [h.part p] at hpart
    exact hpart

variable (s)

theorem modTile (n : Nat) (f : Tile → Tile) : EmittedOnly s (s.modTile n f) := ⟨rfl, fun _ => rfl⟩

theorem tileLedger (n : Nat) (f : Ledger → Ledger) : EmittedOnly s (s.tileLedger n f) := by
  unfold State.tileLedger
  split
  · exact ⟨rfl, (StoredOnly.modLedger s _ f).part⟩
  · exact refl s

theorem emitTile (n q : Nat) (k : Token) : EmittedOnly s (s.emitTile n q k) := by
  unfold State.emitTile
  split
  · exact (modTile s n _).trans (tileLedger ..)
  · exact modTile s n _

theorem emitPart (p q : Nat) (k : Token) : EmittedOnly s (s.emitPart p q k) :=
  each_keeps (EmittedOnly s) _ (refl s) fun u hu t _ => hu.trans (emitTile u t q k)

end EmittedOnly

/-- The end of a noise request sets DONE and its code, and draws the tag of its token. -/
theorem noiseEnd_emitted (s : State) (p code : Nat) :
    EmittedOnly { s.modPart p (fun x => { x with noiseBusy := false, noiseDone := true, noiseErr := code }) with free := s.free + 1 }
      (s.noiseEnd p code) := .emitPart ..

/-- What the end of a request leaves of its partition, but for the ledger. -/
theorem part_noiseEnd (s : State) (p code : Nat) : (s.noiseEnd p code).part p =
    { s.part p with noiseBusy := false, noiseDone := true, noiseErr := code, ledger := ((s.noiseEnd p code).part p).ledger } := by
  have hpart := (noiseEnd_emitted s p code).part p
  have hself := State.modPart_part s p (fun x => { x with noiseBusy := false, noiseDone := true, noiseErr := code }) p
  rw [if_pos rfl] at hself
  exact hpart.trans (congrArg (fun x : Part => { x with ledger := ((s.noiseEnd p code).part p).ledger }) hself)

theorem noiseEnd_frame (s : State) (p code : Nat) : s.noiseEnd p code =
    { s with parts := (s.noiseEnd p code).parts, tiles := (s.noiseEnd p code).tiles, free := s.free + 1 } :=
  (noiseEnd_emitted s p code).frame

/-! ### Generate requests of the noise generator (R362, R363) -/

/-- A stopped generator answers no request. -/
theorem drbgRequests_of_stopped {s : State} (h : s.sec.noiseOk = false) (l : List Nat) : s.drbgRequests true l = s := by
  induction l with
  | nil => rfl
  | cons n l ih =>
    have hfirst : (s.drbgRequest true n).2 = s := by
      simp only [State.drbgRequest, h, if_true, Bool.false_eq_true, not_false_eq_true]
    rw [State.drbgRequests, List.foldl_cons, hfirst]
    exact ih

/-- A request to a generator that runs, with its source at hand for a reseed, leaves both running. -/
theorem drbgRequest_keeps_running {s : State} (hok : s.sec.noiseOk = true) (hsource : s.sec.sourceOk = true) (n : Nat) :
    (s.drbgRequest true n).2.sec.noiseOk = true ∧ (s.drbgRequest true n).2.sec.sourceOk = true := by
  unfold State.drbgRequest
  simp only [hok, hsource, if_true, not_true_eq_false, if_false]
  split
  · exact ⟨hok, hsource⟩
  · exact ⟨rfl, rfl⟩

theorem drbgRequests_keep_running {s : State} (hok : s.sec.noiseOk = true) (hsource : s.sec.sourceOk = true) (l : List Nat) :
    (s.drbgRequests true l).sec.noiseOk = true := by
  induction l generalizing s with
  | nil => exact hok
  | cons n l ih =>
    obtain ⟨hok', hsource'⟩ := drbgRequest_keeps_running hok hsource n
    exact ih hok' hsource'

/-! ### GO (R201, R353) -/

section
variable {s v : State} {w : NoiseIn} (hw : w.part < 8) (hv : s.wake = v)
include hw hv

theorem exec_noiseRequestGo_of_locked (hpf0 : w.byPf0 = true) (hlocked : v.tdiClosed (w.part + 1) = true) :
    exec (.noiseRequestGo w) s = .next (v.record cTdiLocked { part := w.part, block := 9 }) := by
  change guarded _ _ = _
  rw [guarded_next (decide_eq_true hw)]
  dsimp only
  rw [hv, if_pos ⟨hpf0, hlocked⟩]

section
variable (hopen : w.byPf0 = false ∨ v.tdiClosed (w.part + 1) = false)
include hopen

/-- A GO of a requester that may make it: what its checks and the generator lead to. -/
theorem exec_noiseRequestGo_of_open : exec (.noiseRequestGo w) s = .next (
    if (v.part w.part).noiseBusy then v
    else if v.noiseCode w.part ≠ 0 then v.noiseEnd w.part (v.noiseCode w.part)
    else
      let r := (v.part w.part).noiseReq
      let u := v.drbgRequests true (drawRequests (nqKind r) (nqWidth r) (nqLogN r))
      if u.sec.noiseOk then u.stir.modPart w.part (fun x => { x with noiseBusy := true, noiseErr := 0 })
      else u.noiseEnd w.part cDrbgFail) := by
  have hfree : ¬ (w.byPf0 = true ∧ v.tdiClosed (w.part + 1) = true) := by
    rintro ⟨hpf0, hlocked⟩
    rcases hopen with h | h
    · exact Bool.false_ne_true (h.symm.trans hpf0)
    · exact Bool.false_ne_true (h.symm.trans hlocked)
  change guarded _ _ = _
  rw [guarded_next (decide_eq_true hw)]
  dsimp only
  rw [hv, if_neg hfree]

theorem exec_noiseRequestGo_of_busy (hbusy : (v.part w.part).noiseBusy = true) : exec (.noiseRequestGo w) s = .next v := by
  rw [exec_noiseRequestGo_of_open hw hv hopen, if_pos hbusy]

section
variable (hidle : (v.part w.part).noiseBusy = false)
include hidle

/-- A GO that passes its checks while the generator runs starts a draw. -/
theorem exec_noiseRequestGo_of_passed (hcode : v.noiseCode w.part = 0) (hok : v.sec.noiseOk = true) (hsource : v.sec.sourceOk = true)
    {r : BitVec 256} (hr : (v.part w.part).noiseReq = r) : exec (.noiseRequestGo w) s = .next
      ((v.drbgRequests true (drawRequests (nqKind r) (nqWidth r) (nqLogN r))).stir.modPart w.part
        (fun x => { x with noiseBusy := true, noiseErr := 0 })) := by
  rw [exec_noiseRequestGo_of_open hw hv hopen, hidle, if_neg Bool.false_ne_true, if_neg (not_not_intro hcode)]
  dsimp only
  rw [hr, if_pos (drbgRequests_keep_running hok hsource _)]

/-- A GO that fails a check, or finds the generator stopped, ends at once with the code. -/
theorem exec_noiseRequestGo_of_failed (hbad : v.noiseCode w.part ≠ 0 ∨ v.sec.noiseOk = false) : exec (.noiseRequestGo w) s =
    .next (v.noiseEnd w.part (if v.noiseCode w.part ≠ 0 then v.noiseCode w.part else cDrbgFail)) := by
  rw [exec_noiseRequestGo_of_open hw hv hopen, hidle, if_neg Bool.false_ne_true]
  by_cases hcode : v.noiseCode w.part ≠ 0
  · rw [if_pos hcode, if_pos hcode]
  · have hstopped := hbad.resolve_left hcode
    rw [if_neg hcode, if_neg hcode]
    dsimp only
    rw [drbgRequests_of_stopped hstopped, hstopped, if_neg Bool.false_ne_true]

end
end
end

/-! ### Coefficients (R200) -/

theorem noiseCoeff_ternary (width v : Nat) : noiseCoeff 0 width v ∈ [(-1 : Int), 0, 1] := by
  have hcoeff : noiseCoeff 0 width v = (v % 2 : Int) - (v / 2 % 2 : Nat) := rfl
  have hrange : noiseCoeff 0 width v = -1 ∨ noiseCoeff 0 width v = 0 ∨ noiseCoeff 0 width v = 1 := by omega
  simpa using hrange

/-- The ones among n bits are at most n. -/
theorem sum_bits_le (n x : Nat) : ((upTo n).map fun i => b2n (bit x i)).sum ≤ n := by
  induction n with
  | zero => exact Nat.le_refl 0
  | succ n ih =>
    have hbit : b2n (bit x n) ≤ 1 := by
      unfold b2n
      split <;> omega
    rw [upTo] at ih ⊢
    rw [List.range_succ, List.map_append, List.sum_append_nat, List.map_singleton, List.sum_singleton]
    exact Nat.add_le_add ih hbit

theorem noiseCoeff_binomial (width v : Nat) : -21 ≤ noiseCoeff 1 width v ∧ noiseCoeff 1 width v ≤ 21 := by
  have hplus := sum_bits_le 21 v
  have hminus := sum_bits_le 21 (v / 2 ^ 21)
  have hcoeff : noiseCoeff 1 width v = ((((upTo 21).map fun i => b2n (bit v i)).sum : Nat) : Int) -
      (((upTo 21).map fun i => b2n (bit (v / 2 ^ 21) i)).sum : Nat) := rfl
  omega

theorem noiseCoeff_uniform (width v : Nat) :
    -(2 ^ width : Nat) ≤ noiseCoeff 2 width v ∧ noiseCoeff 2 width v < (2 ^ width : Nat) := by
  have hcoeff : noiseCoeff 2 width v = ((v % 2 ^ (width + 1) : Nat) : Int) - ((2 ^ width : Nat) : Int) := rfl
  have hmod : v % 2 ^ (width + 1) < 2 * 2 ^ width := by
    rw [← Nat.pow_succ']
    exact Nat.mod_lt _ (Nat.two_pow_pos _)
  rw [hcoeff]
  generalize v % 2 ^ (width + 1) = x at hmod
  generalize 2 ^ width = y at hmod
  omega

/-! ### Limbs stored one after another -/

/-- A store over good lines performs whole, wherever in a line it begins. -/
theorem storeLinesP_code_of_range (p fuel : Nat) (s : State) (a : Nat) (d : List Byte) (hgood : s.rangeCode a d.length = 0) :
    (State.storeLinesP p fuel s a d).2 = 0 := by
  induction fuel generalizing s a d with
  | zero => rfl
  | succ fuel ih =>
    unfold State.storeLinesP
    split
    · rfl
    · next hne =>
      have hlen : 0 < d.length := List.length_pos_iff.mpr (by simpa using hne)
      have hline : s.lineCode a = 0 := by
        rw [← lineCode_lineOf]
        refine (rangeCode_eq_zero_iff s a _).mp hgood _ ((mem_linesOf ..).mpr ⟨hlen, a / 128, ?_, ?_, ?_⟩)
        · exact Nat.le_refl _
        · omega
        · unfold lineOf; omega
      dsimp only
      rw [if_neg (not_not_intro (storeLineP_code_of_good s p _ hline))]
      by_cases hmore : 128 - a % 128 ≤ d.length
      · refine ih _ _ _ ((StoredOnly.storeLineP s p a _).rangeCode (rangeCode_within hgood ?_ ?_))
        · omega
        · rw [List.length_drop]
          omega
      · refine ih _ _ _ ?_
        rw [List.drop_eq_nil_of_le (by omega)]
        rfl

/-- State u differs from s by n limbs of w bytes, stored one after another from address base. -/
structure LimbsStored (base w n : Nat) (limb : Nat → List Byte) (s u : State) : Prop extends StoredOnly s u where
  limbs : ∀ j, j < n → u.load (base + j * w) w = limb j
  outside : ∀ a, a < base ∨ base + n * w ≤ a → memByte u.mem a = memByte s.mem a

/-- One more limb stored behind n. -/
theorem LimbsStored.storeP {base w n : Nat} {limb : Nat → List Byte} {s t : State} (h : LimbsStored base w n limb s t)
    (hlen : (limb n).length = w) {p : Nat} (hcode : (t.storeP p (base + n * w) (limb n)).2 = 0) :
    LimbsStored base w (n + 1) limb s (t.storeP p (base + n * w) (limb n)).1 := by
  have hmem := storeP_mem_of_done t p hcode
  have hbyte : ∀ a, a < base + n * w ∨ base + n * w + w ≤ a →
      memByte (t.storeP p (base + n * w) (limb n)).1.mem a = memByte t.mem a := by
    intro a ha
    rw [hmem, memByte_memWrite, hlen, if_neg (by omega)]
  refine ⟨h.toStoredOnly.trans (.storeP ..), fun j hj => ?_, fun a ha => ?_⟩
  · rcases Nat.lt_succ_iff_lt_or_eq.mp hj with hj | rfl
    · have hbelow : j * w + w ≤ n * w := (Nat.succ_mul j w).symm ▸ Nat.mul_le_mul_right w hj
      rw [← h.limbs j hj]
      exact memBytes_congr fun b _ hb => hbyte b (.inl (by omega))
    · have hread := memBytes_memWrite_self t.mem (base + j * w) (limb j)
      rw [hlen] at hread
      rw [State.load, hmem, hread]
  · rw [Nat.succ_mul] at ha
    rw [hbyte a (by omega), h.outside a (by omega)]

/-- Steps that each store a limb over good lines leave all the limbs, and no other byte changes. -/
theorem limbsStored_each {base w n : Nat} {limb : Nat → List Byte} {s : State} {p : Nat} {step : Nat → State → State}
    (hlen : ∀ j, (limb j).length = w) (hgood : ∀ j, j < n → s.rangeCode (base + j * w) w = 0)
    (hstep : ∀ j u, (u.storeP p (base + j * w) (limb j)).2 = 0 → step j u = (u.storeP p (base + j * w) (limb j)).1) :
    LimbsStored base w n limb s (s.each (upTo n) step) := by
  induction n with
  | zero => exact ⟨.refl s, fun j hj => absurd hj (Nat.not_lt_zero j), fun _ _ => rfl⟩
  | succ n ih =>
    have hbefore := ih fun j hj => hgood j (Nat.lt_succ_of_lt hj)
    have heach : s.each (upTo (n + 1)) step = step n (s.each (upTo n) step) := by
      rw [upTo, List.range_succ, State.each, List.foldl_append]
      rfl
    have hcode : ((s.each (upTo n) step).storeP p (base + n * w) (limb n)).2 = 0 := by
      refine storeLinesP_code_of_range p _ _ _ _ (hbefore.rangeCode ?_)
      rw [hlen]
      exact hgood n (Nat.lt_succ_self n)
    rw [heach, hstep n _ hcode]
    exact hbefore.storeP (hlen n) hcode

/-! ### The end of a request (R200, R201) -/

theorem le_nqLogN (r : BitVec 256) : 12 ≤ nqLogN r := Nat.le_add_left 12 _

/-- Limb j of a request's polynomial, reduced modulo its prime (R200). -/
def noiseLimb (s : State) (r : BitVec 256) (j : Nat) : List Byte :=
  pack36 ((noisePoly r s.free).map fun c => (c % (((s.pset (nqPset r)).q (nqE0 r + j) : Nat) : Int)).toNat)

theorem length_noiseLimb (s : State) (r : BitVec 256) (j : Nat) : (noiseLimb s r j).length = limbBytes (nqLogN r) false :=
  length_encodeElems (le_nqLogN r) false (by simp [noisePoly, drawPoly, upTo])

/-- The step of a request's end that stores limb j; a failure of the store would be recorded. -/
def State.noiseStep (s : State) (p : Nat) (r : BitVec 256) (base j : Nat) (u : State) : State :=
  let w := limbBytes (nqLogN r) false
  let z := u.storeP p (base + j * w) (noiseLimb s r j)
  z.1.memFault p 9 (linesOf (base + j * w) w) z.2

/-- The range of a request's limbs joins those its partition has drawn (R201). -/
def State.recordNoiseRange (s : State) (p : Nat) (r : BitVec 256) : State :=
  s.modPart p fun y => { y with noiseRanges := y.noiseRanges ++ [{ offset := nqOffset r, bytes := nqBytes r }] }

/-- A request that ends over good lines: its limbs, then its range, then its end. -/
theorem exec_noiseRequestDone_of_good {s : State} {p : Nat} (hp : p < 8) (hbusy : (s.part p).noiseBusy = true) {r : BitVec 256}
    (hr : (s.part p).noiseReq = r) {base : Nat} (hbase : (s.part p).noiseBase + nqOffset r = base)
    (hgood : ∀ j, j < nqLimbs r → s.rangeCode (base + j * limbBytes (nqLogN r) false) (limbBytes (nqLogN r) false) = 0) :
    ∃ t, LimbsStored base (limbBytes (nqLogN r) false) (nqLimbs r) (noiseLimb s r) { s with free := s.free + 1 } t ∧
      exec (.noiseRequestDone p) s = .next ((t.recordNoiseRange p r).noiseEnd p 0) := by
  have hstep : ∀ (j : Nat) (u : State), (u.storeP p (base + j * limbBytes (nqLogN r) false) (noiseLimb s r j)).2 = 0 →
      s.noiseStep p r base j u = (u.storeP p (base + j * limbBytes (nqLogN r) false) (noiseLimb s r j)).1 := by
    intro j u hcode
    rw [State.noiseStep, hcode, memFault_zero]
  refine ⟨_, limbsStored_each (length_noiseLimb s r) hgood hstep, ?exec⟩
  case exec =>
    change guarded _ _ = _
    rw [guarded_next (decide_eq_true hp)]
    dsimp only
    rw [if_neg (not_not_intro hbusy), hr, hbase]
    rfl

/-- Settles O30: a GO by its checks and the generator; the coefficients kind by kind; the end of a request by its limbs, stored one
after another. -/
theorem noiseRequests : Obligations.NoiseRequests := by
  unfold Obligations.NoiseRequests
  refine ⟨?go, fun width v => ⟨noiseCoeff_ternary width v, noiseCoeff_binomial width v, noiseCoeff_uniform width v⟩, ?done⟩
  case go =>
    intro s w hw p v r
    refine ⟨fun hpf0 hlocked => exec_noiseRequestGo_of_locked hw rfl hpf0 hlocked, fun hopen =>
      ⟨fun hbusy => exec_noiseRequestGo_of_busy hw rfl hopen hbusy,
        fun hidle hcode hok hsource => exec_noiseRequestGo_of_passed hw rfl hopen hidle hcode hok hsource rfl,
        fun hidle hbad => ?failed⟩⟩
    case failed =>
      have hpart := part_noiseEnd v p (if v.noiseCode p ≠ 0 then v.noiseCode p else cDrbgFail)
      refine ⟨_, exec_noiseRequestGo_of_failed hw rfl hopen hidle hbad, ?_, ?_, ?_, noiseEnd_frame ..⟩
      all_goals exact hpart ▸ rfl
  case done =>
    intro s p hp hbusy x r base w hgood
    obtain ⟨t, ⟨hkept, hlimbs, houtside⟩, hexec⟩ := exec_noiseRequestDone_of_good hp hbusy rfl rfl hgood
    have hranges : (t.part p).noiseRanges = x.noiseRanges := hkept.part_field Part.noiseRanges (fun _ _ => rfl) p
    have hmem := congrArg State.mem (noiseEnd_frame (t.recordNoiseRange p r) p 0)
    have hpart := part_noiseEnd (t.recordNoiseRange p r) p 0
    rw [State.recordNoiseRange, State.modPart_part, if_pos rfl, hranges] at hpart
    refine ⟨_, hexec, fun j hj => ?limb, fun a ha => ?outside, ?_, ?_, ?_, ?_⟩
    case limb =>
      rw [State.load, hmem]
      exact hlimbs j hj
    case outside =>
      rw [hmem]
      exact houtside a ha
    all_goals exact hpart ▸ rfl

end Sys2Proof.Machine
end

section
/-! Endpoint commands (R236 to R252): what their completions leave unchanged, the command that a ready endpoint's trigger serves, and what
serving one does case by case. -/

namespace Sys2Proof.Machine

/-! ### What a delivery or a completion leaves unchanged -/

/-- State u differs from s in nothing that memory, endpoint memory, the scratchpads, the partitions' tiles and the receive queues hold. -/
structure QueuesKept (s u : State) : Prop where
  mem : u.mem = s.mem
  epMem : u.epMem = s.epMem
  spad : ∀ t, (u.tile t).spad = (s.tile t).spad
  tiles : ∀ p, (u.part p).tiles = (s.part p).tiles
  queues : ∀ p, (u.msg p).queues = (s.msg p).queues

namespace QueuesKept

variable {s t u : State}

theorem refl (s : State) : QueuesKept s s := ⟨rfl, rfl, fun _ => rfl, fun _ => rfl, fun _ => rfl⟩

theorem trans (h : QueuesKept s t) (h' : QueuesKept t u) : QueuesKept s u :=
  ⟨h'.mem.trans h.mem, h'.epMem.trans h.epMem, fun n => (h'.spad n).trans (h.spad n), fun p => (h'.tiles p).trans (h.tiles p),
    fun p => (h'.queues p).trans (h.queues p)⟩

theorem foldl {α : Type} (f : State → α → State) (hf : ∀ x a, QueuesKept x (f x a)) (l : List α) (s : State) :
    QueuesKept s (l.foldl f s) :=
  List.foldlRecOn l f (refl s) fun _ hx a _ => hx.trans (hf _ a)

theorem rq (h : QueuesKept s u) (p ep queue : Nat) : u.rq p ep queue = s.rq p ep queue := by
  rw [State.rq, State.rq, h.queues]

theorem epRead (h : QueuesKept s u) (p ep row n : Nat) : u.epRead p ep row n = s.epRead p ep row n := by
  simp only [State.epRead, State.rowBytes, State.epTile, h.tiles, h.spad, h.epMem]

variable (s)

theorem modTile (n : Nat) (f : Tile → Tile) (hf : ∀ x, (f x).spad = x.spad) : QueuesKept s (s.modTile n f) := by
  refine ⟨rfl, rfl, fun m => ?_, fun _ => rfl, fun _ => rfl⟩
  rw [State.modTile_tile]
  split
  · next h => rw [hf, h]
  · rfl

theorem modPart (p : Nat) (f : Part → Part) (htiles : ∀ x, (f x).tiles = x.tiles) (hqueues : ∀ x, (f x).msg.queues = x.msg.queues) :
    QueuesKept s (s.modPart p f) :=
  ⟨rfl, rfl, fun _ => rfl, part_modPart_field s p f Part.tiles htiles,
    part_modPart_field s p f (fun x => x.msg.queues) hqueues⟩

theorem modLedger (p : Nat) (f : Ledger → Ledger) : QueuesKept s (s.modLedger p f) := modPart s p _ (fun _ => rfl) fun _ => rfl

theorem modMsg (p : Nat) (f : MsgState → MsgState) (hf : ∀ m, (f m).queues = m.queues) : QueuesKept s (s.modMsg p f) :=
  modPart s p _ (fun _ => rfl) fun x => hf x.msg

theorem modCore (n : Nat) (f : Core → Core) : QueuesKept s (s.modCore n f) := ⟨rfl, rfl, fun _ => rfl, fun _ => rfl, fun _ => rfl⟩

theorem tileLedger (n : Nat) (f : Ledger → Ledger) : QueuesKept s (s.tileLedger n f) := by
  unfold State.tileLedger
  split
  · exact modLedger ..
  · exact refl s

theorem emitTile (n q : Nat) (k : Token) : QueuesKept s (s.emitTile n q k) := by
  unfold State.emitTile
  split
  · refine (modTile s n _ ?_).trans (tileLedger ..)
    exact fun _ => rfl
  · refine modTile s n _ ?_
    exact fun _ => rfl

theorem refill (n q : Nat) : QueuesKept s (s.refill n q) := by
  unfold State.refill
  split
  · exact refl s
  · split
    · refine (modTile s n _ ?_).trans (tileLedger ..)
      exact fun _ => rfl
    · exact refl s

theorem takeToken (n q : Nat) : QueuesKept s (s.takeToken n q) := by
  refine ((modTile s n _ ?_).trans (tileLedger ..)).trans (refill ..)
  exact fun _ => rfl

theorem epDone (p ep doneQ idx status : Nat) : QueuesKept s (s.epDone p ep doneQ idx status) := by
  unfold State.epDone
  split
  · split
    · exact refl s
    · exact emitTile ..
  · exact modCore ..

theorem orphanHeld (p ep queue : Nat) : QueuesKept s (s.orphanHeld p ep queue) := by
  refine each_keeps (QueuesKept s) _ (refl s) fun u hu r _ => hu.trans ?_
  dsimp only
  split
  · refine (modMsg u p _ ?_).trans (foldl _ (fun x h => epDone x ..) _ _)
    exact fun _ => rfl
  · exact refl u

theorem setStatic (p ep queue : Nat) (m : Rec) : QueuesKept s (s.setStatic p ep queue m) := by
  unfold State.setStatic
  split
  · refine modMsg s p _ ?_
    exact fun _ => rfl
  · exact refl s

theorem stir : QueuesKept s s.stir := ⟨rfl, rfl, fun _ => rfl, fun _ => rfl, fun _ => rfl⟩

theorem commandState (p ep idx kind : Nat) (c : EpCmd) : QueuesKept s (s.commandState p ep idx kind c) := by
  unfold State.commandState
  dsimp only
  split
  · refine ((stir s).trans (takeToken ..)).trans (modTile _ _ _ ?_)
    exact fun _ => rfl
  · exact stir s

end QueuesKept

theorem msg_modMsg (s : State) (p : Nat) (f : MsgState → MsgState) : (s.modMsg p f).msg p = f (s.msg p) := by
  simp [State.msg]

theorem rq_modRq (s : State) (p ep queue : Nat) (f : RQueue → RQueue) : (s.modRq p ep queue f).rq p ep queue = f (s.rq p ep queue) := by
  simp [State.rq, State.modRq, msg_modMsg, smMod]

/-- A completion leaves its partition's messages as they were. -/
theorem msg_epDone (s : State) (p ep doneQ idx status p' : Nat) : (s.epDone p ep doneQ idx status).msg p' = s.msg p' := by
  unfold State.epDone
  split
  · split
    · rfl
    · rw [State.msg, (EmittedOnly.emitTile s ..).part p']
      rfl
  · rfl

/-- What the completion of a service core's command leaves in CORE_DONE (R240). -/
theorem core_epDone {ep : Nat} (hep : 64 ≤ ep) (s : State) (p doneQ idx status : Nat) :
    (s.epDone p ep doneQ idx status).core (ep - 64) = { s.core (ep - 64) with done := true, doneIdx := idx, doneStatus := status } := by
  rw [State.epDone, if_neg (by omega), State.modCore_core, if_pos rfl]

/-! ### Triggering (R239, R240) -/

section
variable {s : State} {p ep idx : Nat}

/-- A ready endpoint's trigger serves the command in the state with its token taken. -/
theorem trigger_of_ready (hready : s.commandReady p ep idx) (kind : Nat) (c : EpCmd) :
    s.trigger p ep idx (epCmdBits kind c) = (s.commandState p ep idx kind c).serveCmd p ep idx (epCmdBits kind c) := by
  obtain ⟨hep, htoken⟩ := hready
  have hstirred : s.stir.epOk p ep = true := hep
  rw [State.trigger, State.commandState]
  dsimp only
  rw [if_neg (not_not_intro hstirred)]
  by_cases htile : ep < 64
  · obtain ⟨k, r, hk, rfl⟩ := htoken.resolve_left (by omega)
    have hhead : s.stir.tokens (s.stir.epTile p ep) 7 = k :: r := hk
    simp only [htile, if_true, hhead]
  · simp only [htile, if_false]

variable {c : EpCmd} (hargs : epOkArgs p ep idx c = true) (hready : s.commandReady p ep idx)
include hargs hready

/-- A reserved CMD ends at once with COMMAND_INVALID. -/
theorem exec_send_of_reserved (hbad : c.badCmd.isSome = true) :
    exec (.send p ep idx c) s = .next ((s.commandState p ep idx 1 c).commandDone p ep idx cCommandInvalid c) := by
  obtain ⟨k, hk⟩ := Option.isSome_iff_exists.mp hbad
  have hreserved : k = 0 ∨ 6 ≤ k := by
    have h := hargs
    simp only [epOkArgs, hk, Bool.and_eq_true] at h
    have hk := h.2
    simp only [Option.all_some, Bool.or_eq_true, beq_iff_eq, Bool.and_eq_true, decide_eq_true_eq] at hk
    omega
  change guarded _ _ = _
  rw [guarded_next hargs, trigger_of_ready hready, State.serveCmd, epCmdOf_bits p ep idx 1 c hargs (by omega) (by omega), hk,
    Option.getD_some]
  dsimp only
  rw [if_neg (by omega), if_neg (by omega)]
  rfl

theorem exec_send_of_ready (hcmd : c.badCmd = none) :
    exec (.send p ep idx c) s = .next ((s.commandState p ep idx 1 c).serveSend p ep idx c) := by
  change guarded _ _ = _
  rw [guarded_next hargs, trigger_of_ready hready, State.serveCmd, epCmdOf_bits p ep idx 1 c hargs (by omega) (by omega), hcmd]
  rfl

/-- A RECV, CLOSE, OPEN or CLRF of a queue whose command is served at once. -/
theorem trigger_of_served {kind : Nat} (hkind : 2 ≤ kind ∧ kind ≤ 5) (hcmd : c.badCmd = none)
    (hheld : ((s.commandState p ep idx kind c).rq p ep c.index).held = []) {u : State}
    (hserved : (s.commandState p ep idx kind c).tryQueue p ep { kind := kind, idx := idx, cmd := c } = some u) :
    guarded (epOkArgs p ep idx c) (s.trigger p ep idx (epCmdBits kind c)) = .next u := by
  rw [guarded_next hargs, trigger_of_ready hready, State.serveCmd, epCmdOf_bits p ep idx kind c hargs (by omega) hkind.2, hcmd,
    Option.getD_none]
  dsimp only
  rw [if_neg (by omega), if_pos hkind, State.serveQueue]
  simp only [hheld, List.isEmpty_nil, if_true, hserved]

end

/-! ### SEND (R240, R250) -/

section
variable {s : State} {p ep idx r : Nat} {c : EpCmd} (hroute : (s.msg p).routeOf ep c.index = some r)
  (hheld : smGet [] (s.msg p).heldSend r = []) (hcode : s.sendCode p ep r c = 0)
include hroute hheld hcode

theorem serveSend_of_credit (hcredit : (s.msg p).creditFree r = true) :
    s.serveSend p ep idx c = s.modMsg p fun m => { m with flying := smSet [] m.flying r (smGet [] m.flying r ++
      [{ setf := c.setf, flag := c.flag, srcEp := ep, srcPort := c.index, route := r, payload := s.epRead p ep c.row c.len
         doneQ := c.doneQ, idx := idx }]) } := by
  simp only [State.serveSend, hroute, hheld, List.isEmpty_nil, if_true, State.trySend, hcode, ne_eq, not_true_eq_false, if_false, hcredit]

section
variable (hcredit : (s.msg p).creditFree r = false)
include hcredit

theorem serveSend_of_closed (hclosed : (s.rq p ((s.msg p).route r).dstEp ((s.msg p).route r).dstQueue).closed = true) :
    s.serveSend p ep idx c = s.commandDone p ep idx cOrphaned c := by
  simp only [State.serveSend, hroute, hheld, List.isEmpty_nil, if_true, State.trySend, hcode, ne_eq, not_true_eq_false, if_false,
    hcredit, Bool.false_eq_true, hclosed]
  rfl

theorem serveSend_of_open (hopen : (s.rq p ((s.msg p).route r).dstEp ((s.msg p).route r).dstQueue).closed = false) :
    s.serveSend p ep idx c = s.modMsg p fun m => { m with
      heldSend := smSet [] m.heldSend r [{ kind := 1, idx := idx, cmd := c }] } := by
  simp only [State.serveSend, hroute, hheld, List.isEmpty_nil, if_true, State.trySend, hcode, ne_eq, not_true_eq_false, if_false,
    hcredit, Bool.false_eq_true, hopen, List.nil_append]

end
end

/-! ### RECV (R241, R246) -/

/-- The entry that a lookup finds is the one asked for. -/
theorem queueCfg_some {m : MsgState} {ep queue : Nat} {z : QueueCfg} (h : m.queueCfg ep queue = some z) : z.ep = ep ∧ z.queue = queue := by
  simpa using List.find?_some h

/-- A read of the rows just written returns the bytes written. -/
theorem epRead_epWrite (s : State) (p ep row : Nat) (d : List Byte) : (s.epWrite p ep row d).epRead p ep row d.length = d := by
  unfold State.epWrite
  split
  · next htile =>
    have hplace : (s.writeRows (s.epTile p ep) row d 0).epTile p ep = s.epTile p ep := rfl
    rw [State.epRead, if_pos htile, hplace, State.rowBytes, State.writeRows, State.modTile_tile, if_pos rfl]
    exact memBytes_memWrite_self ..
  · next hcore =>
    rw [State.epRead, if_neg hcore]
    dsimp only
    rw [smMod, smGet_smSet, if_pos rfl]
    exact memBytes_memWrite_self ..

/-- What an endpoint's write to its rows leaves unchanged. -/
theorem epWrite_frame (s : State) (p ep row : Nat) (d : List Byte) :
    ∃ x y, s.epWrite p ep row d = { s with tiles := x, epMem := y } := by
  unfold State.epWrite
  split
  · exact ⟨_, s.epMem, rfl⟩
  · exact ⟨s.tiles, _, rfl⟩

/-- A skip record goes only from the head of a ring. -/
theorem dropSkip_of_head {s : State} {p : Nat} {c : QueueCfg}
    (h : ∀ x, (s.rq p c.ep c.queue).ring.head? = some x → x.skip = false) : s.dropSkip p c = s := by
  unfold State.dropSkip
  split
  · next r l hring =>
    rw [hring] at h
    rw [if_neg (by rw [h r rfl]; decide)]
  · rfl

/-- A queue whose head record r of a ring of `size` bytes has been delivered at time `now`. -/
def RQueue.delivered (q : RQueue) (r : RingRec) (size now : Nat) : RQueue :=
  { q with rp := (r.offset + r.bytes) % size, used := q.used - r.bytes, ring := q.ring.drop 1, lastDelivery := now }

/-- A delivery writes the rows (w) and takes the record out of its queue; what else it does concerns counters and flags (R241). -/
theorem takeHead_kept {s w : State} {p : Nat} {z : QueueCfg} {r : RingRec} {rest : List RingRec} {h : HeldCmd}
    (hw : s.epWrite p z.ep h.cmd.row (recData r.msg) = w) (hring : (w.rq p z.ep z.queue).ring = r :: rest)
    (hrest : ∀ x, rest.head? = some x → x.skip = false) :
    QueuesKept (w.modRq p z.ep z.queue fun q => q.delivered r z.size w.now) (s.takeHead p z r h) := by
  subst hw
  unfold State.takeHead
  extract_lets w v counted returned settled
  have hreturned : QueuesKept v returned := by
    refine ((QueuesKept.modLedger v p _).trans (.modLedger _ p _)).trans (.modMsg _ p _ ?_)
    exact fun _ => rfl
  have hrq : v.rq p z.ep z.queue = (w.rq p z.ep z.queue).delivered r z.size w.now := rq_modRq ..
  have hskip : returned.dropSkip p z = returned := dropSkip_of_head fun x hx => by
    rw [hreturned.rq, hrq, RQueue.delivered, hring] at hx
    exact hrest x hx
  have hsettled : settled = returned.setStatic p z.ep z.queue r.msg :=
    congrArg (fun x : State => x.setStatic p z.ep z.queue r.msg) hskip
  rw [hsettled]
  exact (hreturned.trans (.setStatic ..)).trans (.epDone ..)

theorem epRead_modRq (s : State) (p ep queue : Nat) (f : RQueue → RQueue) (ep' row n : Nat) :
    (s.modRq p ep queue f).epRead p ep' row n = s.epRead p ep' row n := by
  have htile : (s.modRq p ep queue f).epTile p ep' = s.epTile p ep' := by simp [State.epTile, State.modRq]
  rw [State.epRead, State.epRead, State.rowBytes, State.rowBytes, htile]
  rfl

/-- What a delivery leaves: the queue without the record, the record in its rows, memory as it was, and a core's completion. -/
theorem takeHead_of_ring {s : State} {p : Nat} {z : QueueCfg} {r : RingRec} {rest : List RingRec} {h : HeldCmd}
    (hring : (s.rq p z.ep z.queue).ring = r :: rest) (hrest : ∀ x, rest.head? = some x → x.skip = false) :
    (s.takeHead p z r h).rq p z.ep z.queue = (s.rq p z.ep z.queue).delivered r z.size s.now ∧
      (s.takeHead p z r h).epRead p z.ep h.cmd.row (recData r.msg).length = recData r.msg ∧
      (64 ≤ z.ep → ((s.takeHead p z r h).core (z.ep - 64)).done = true ∧
        ((s.takeHead p z r h).core (z.ep - 64)).doneStatus = r.msg.memCode) ∧
      (s.takeHead p z r h).mem = s.mem := by
  have hread := epRead_epWrite s p z.ep h.cmd.row (recData r.msg)
  obtain ⟨x, y, hwritten⟩ := epWrite_frame s p z.ep h.cmd.row (recData r.msg)
  rw [hwritten] at hread
  have hkept := takeHead_kept hwritten hring hrest
  refine ⟨?queue, ?rows, fun hcore => ?core, hkept.mem⟩
  case queue =>
    rw [hkept.rq, rq_modRq]
    rfl
  case rows => rw [hkept.epRead, epRead_modRq, hread]
  case core =>
    rw [State.takeHead, core_epDone hcore]
    exact ⟨rfl, rfl⟩

/-! ### Commands of a queue (R241, R249, R252) -/

section
variable {s : State} {p ep : Nat} {h : HeldCmd} {z : QueueCfg} (hz : (s.msg p).queueCfg ep h.cmd.index = some z)
  (hgood : epCmdBad h.cmd = false)
include hz hgood

theorem tryQueue_recv {r : RingRec} {rest : List RingRec} (hkind : h.kind = 2) (hopen : (s.rq p ep h.cmd.index).closed = false)
    (hring : (s.rq p ep h.cmd.index).ring = r :: rest) (hgate : (s.msg p).gateOpen z = true) (hlen : r.msg.payload.length ≤ h.cmd.len)
    (hrows : h.cmd.row + ceilDiv (16 + r.msg.payload.length) 128 ≤ epRows ep) :
    s.tryQueue p ep h = some (s.takeHead p z r h) := by
  simp only [State.tryQueue, hz, hgood, hkind, hopen, hring, hgate, Nat.not_lt.mpr hlen, Nat.not_lt.mpr hrows, Bool.false_eq_true,
    not_true_eq_false, if_false, if_true]

theorem tryQueue_close (hkind : h.kind = 3) : s.tryQueue p ep h =
    some (((s.modRq p ep h.cmd.index fun q => { q with closed := true }).orphanHeld p ep h.cmd.index).epDone p ep h.cmd.doneQ h.idx 0) := by
  simp [State.tryQueue, hz, hgood, hkind]

theorem tryQueue_open (hkind : h.kind = 4) : s.tryQueue p ep h =
    some ((s.modRq p ep h.cmd.index fun q => { q with closed := false }).epDone p ep h.cmd.doneQ h.idx 0) := by
  simp [State.tryQueue, hz, hgood, hkind]

theorem tryQueue_clrf (hkind : h.kind = 5) (hgate : z.gateEn = true) (hflag : z.gateFlag = h.cmd.flag) : s.tryQueue p ep h =
    some ((s.modMsg p fun m => { m with flags := m.flags &&& (2 ^ 32 - 1 - 2 ^ h.cmd.flag) }).epDone p ep h.cmd.doneQ h.idx 0) := by
  simp [State.tryQueue, hz, hgood, hkind, hgate, hflag]

end

/-- Clearing a flag clears its bit alone. -/
theorem bit_clearFlag (n : Nat) {f j : Nat} (hf : f < 32) (hj : j < 32) :
    bit (n &&& (2 ^ 32 - 1 - 2 ^ f)) j = (bit n j && decide (j ≠ f)) := by
  have hmask : 2 ^ f < 2 ^ 32 := Nat.pow_lt_pow_right (by decide) hf
  rw [bit, bit, Nat.testBit_and, Nat.sub_sub, Nat.add_comm 1, Nat.testBit_two_pow_sub_succ hmask, Nat.testBit_two_pow]
  simp [hj, eq_comm]

/-- Settles O35: each command is decoded and served in the state with its token taken, where its premises are the guards of its good
branch. -/
theorem messageCommands : Obligations.MessageCommands := by
  unfold Obligations.MessageCommands
  intro s p ep idx c hargs hready
  refine ⟨exec_send_of_reserved hargs hready, fun hcmd hgood => ⟨?send, ?recv, ?close, ?openQueue, ?clrf⟩⟩
  case send =>
    intro r t hcode hroute hheld
    rw [exec_send_of_ready hargs hready hcmd]
    exact ⟨fun hcredit => congrArg _ (serveSend_of_credit hroute hheld hcode hcredit),
      fun hcredit hclosed => congrArg _ (serveSend_of_closed hroute hheld hcode hcredit hclosed),
      fun hcredit hopen => congrArg _ (serveSend_of_open hroute hheld hcode hcredit hopen)⟩
  case recv =>
    intro z r rest t hz hheld hopen hring hgate hlen hrows hrest
    have hserved := tryQueue_recv (h := { kind := 2, idx := idx, cmd := c }) hz hgood rfl hopen hring hgate hlen hrows
    obtain ⟨rfl, hqueue⟩ := queueCfg_some hz
    rw [← hqueue] at hring
    obtain ⟨hafter, hread, hcore, hmem⟩ := takeHead_of_ring (h := { kind := 2, idx := idx, cmd := c }) hring hrest
    refine ⟨_, trigger_of_served hargs hready (by decide) hcmd hheld hserved, ?_, ?_, ?_, hread, hcore,
      hmem.trans (QueuesKept.commandState ..).mem⟩
    all_goals rw [← hqueue, hafter, RQueue.delivered]
    rw [hring, List.drop_one, List.tail_cons]
  case close =>
    intro z t hz hheld
    have hserved := tryQueue_close (h := { kind := 3, idx := idx, cmd := c }) hz hgood rfl
    have hkept := (QueuesKept.orphanHeld (t.modRq p ep c.index fun q => { q with closed := true }) p ep c.index).trans
      (.epDone _ p ep c.doneQ idx 0)
    have hrq := (hkept.rq p ep c.index).trans (rq_modRq ..)
    exact ⟨_, trigger_of_served hargs hready (by decide) hcmd hheld hserved, rfl, (congrArg RQueue.closed hrq :),
      (congrArg RQueue.ring hrq :)⟩
  case openQueue =>
    intro z t hz hheld
    exact trigger_of_served hargs hready (by decide) hcmd hheld (tryQueue_open hz hgood rfl)
  case clrf =>
    intro z t hz hheld hgate hflag
    have hf : c.flag < 32 := by
      simp only [epOkArgs, Bool.and_eq_true, decide_eq_true_eq] at hargs
      omega
    have hserved := tryQueue_clrf (h := { kind := 5, idx := idx, cmd := c }) hz hgood rfl hgate hflag
    refine ⟨_, trigger_of_served hargs hready (by decide) hcmd hheld hserved, ?_, fun j hj hne => ?_, ?_⟩
    all_goals rw [msg_epDone, msg_modMsg]
    · exact (bit_clearFlag _ hf hf).trans (by simp)
    · exact (bit_clearFlag _ hf hj).trans (by simp [hne])

end Sys2Proof.Machine
end

section
/-! Accesses that wake the module (R297, R314, R371): a port in Frog with failed lanes of either half goes down at the exit; the packet it
held can then not be delivered, and the end of its collective's instance writes zeros to the landing area. So a register access that
itself writes no memory can change memory. -/

namespace Sys2Proof.Machine

/-- A module in Lizard. Port 0, in Frog, has lost lanes 1 and 4 (R297) and holds a packet of collective 0, whose only route it is; the
landing area of the open instance begins at address 0, where a byte is not zero. Partition 0 has no routes and no queues. -/
def brokenFrogPort : State :=
  { mem := [(0, 1#8)], pwr := { state := 2 }
    fab := { cfg := { jobId := 1, routes := [{ first := 0, last := 0xFFFF, primary := 0 }]
                      colls := [{ members := 2, parent := 1, bufMib := 1 }] }
             ports := [(0, { state := 3, laneFailed := 0x12, egress := [{ dest := 1, coll := 0 }] })]
             colls := [(0, { isOpen := true })] } }

/-- Byte 0 of memory in the next state of an answer. -/
def Out.byte0 (o : Out) : Option Byte :=
  match o with
  | .next u => some (memByte u.mem 0)
  | _ => none

theorem memByte_brokenFrogPort : memByte brokenFrogPort.mem 0 = 1#8 := rfl

/-- A command after which byte 0 is zero has changed it. -/
theorem byte0_changed_of_cleared {c : Instr} {u : State} (hcleared : Out.byte0 (exec c brokenFrogPort) = some 0#8)
    (hexec : exec c brokenFrogPort = .next u) : memByte u.mem 0 ≠ memByte brokenFrogPort.mem 0 := by
  intro hkept
  rw [hexec, Out.byte0, hkept, memByte_brokenFrogPort] at hcleared
  exact absurd hcleared (by decide)

/-- Refutes O36: a FLAG_SET that sets no flag wakes the module, and the exit clears a byte of memory. -/
theorem not_messageMoves : ¬ Obligations.MessageMoves := by
  unfold Obligations.MessageMoves
  rintro ⟨-, hqueues⟩
  obtain ⟨-, hflags, -⟩ := hqueues brokenFrogPort 0 0 0 (by decide) (by decide) (by decide)
  obtain ⟨u, hexec, -, -, hmem⟩ := hflags 0 (by decide)
  have hcleared : Out.byte0 (exec (.flagSet 0 0) brokenFrogPort) = some 0#8 := by decide +kernel
  exact byte0_changed_of_cleared hcleared hexec (by rw [hmem])

/-- Refutes O37: a DUMP with no records to store wakes the module, and the exit clears a byte of memory outside the dump. -/
theorem not_ledgerCounts : ¬ Obligations.LedgerCounts := by
  unfold Obligations.LedgerCounts
  rintro ⟨-, hledgers⟩
  obtain ⟨-, -, haudits⟩ := hledgers brokenFrogPort 0 (by decide)
  obtain ⟨-, hreached⟩ := haudits false .plain rfl (by decide) rfl (.inl rfl)
  obtain ⟨-, hdump⟩ := hreached (.inl (by decide +kernel)) (by decide +kernel) (by decide +kernel)
  obtain ⟨u, hexec, -, -, houtside⟩ := hdump (by decide +kernel) (by decide +kernel)
  have hcleared : Out.byte0 (exec (.dump ⟨0, false, .plain⟩) brokenFrogPort) = some 0#8 := by decide +kernel
  exact byte0_changed_of_cleared hcleared hexec (houtside 0 (.inr (by decide +kernel)))

end Sys2Proof.Machine
end

section
/-! Frames: what a relation between a state and a later one must let pass so that it holds across the shared operations of fabric,
messages, streams, sequencers and teardowns. Each operation is followed once, for every such relation; what the operations keep is then
said by the relations of the next sections (structures, registers, blank memory). -/

namespace Sys2Proof.Machine

/-- What of a partition a structure and its packages give, in its present state: no event of the array changes it. -/
def Part.standing (x : Part) : Nat × Nat × Nat × Nat × List Package := (x.state, x.tiles, x.seq, x.stks, x.pkgs)

/-- State u differs from s at most in the array, the messages to the host, the fabric, the power controller, the cores and the
records. -/
structure Untouched (s u : State) : Prop where
  mem : u.mem = s.mem := by rfl
  poison : u.poison = s.poison := by rfl
  under : u.memc.under = s.memc.under := by rfl
  withdrawn : u.withdrawn = s.withdrawn := by rfl
  parts : u.parts = s.parts := by rfl
  img : u.img = s.img := by rfl
  owner : u.owner = s.owner := by rfl
  sec : u.sec = s.sec := by rfl
  pins : u.pins = s.pins := by rfl
  fatal : u.ras.fatal = s.ras.fatal := by rfl

/-! ### Events: each changes the host's registers alone -/

section
variable (s : State)

theorem evPart_frame (n : Nat) : ∃ x, s.evPart n = { s with host := x } := by
  unfold State.evPart
  split
  · exact ⟨s.host, rfl⟩
  · obtain ⟨x, hx⟩ := msi_frame (s.modFn n fun x => { x with partChange := true }) n 15
    exact ⟨x, hx⟩

theorem evAdmin_frame : ∃ x, s.evAdmin = { s with host := x } := by
  unfold State.evAdmin
  split
  · exact ⟨s.host, rfl⟩
  · obtain ⟨x, hx⟩ := msi_frame (s.modFn 0 fun x => { x with adminDone := true }) 0 15
    exact ⟨x, hx⟩

theorem evRecord_frame : ∃ x, s.evRecord = { s with host := x } := by
  unfold State.evRecord
  split
  · exact ⟨s.host, rfl⟩
  · obtain ⟨x, hx⟩ := msi_frame (s.modFn 0 fun x => { x with errorRecord := true }) 0 15
    exact ⟨x, hx⟩

end

/-- A relation that lets pass what is untouched, changes of partitions that keep their standing, and zeros over memory. -/
structure Frame (R : State → State → Prop) : Prop where
  refl : ∀ s, R s s
  trans : ∀ {s t u}, R s t → R t u → R s u
  untouched : ∀ {s u}, Untouched s u → R s u
  standing : ∀ {s} {p : Nat} {f : Part → Part}, (∀ x, (f x).standing = x.standing) → R s (s.modPart p f)
  zeros : ∀ {s} (a n : Nat), R s (s.zeroRange a n)

/-- The relation lets pass any change of stack memory and its controllers. -/
def PassesMemory (R : State → State → Prop) : Prop :=
  ∀ (s : State) m x c, R s { s with mem := m, poison := x, memc := c }

/-- The relation lets pass any change of the partitions and of the records. -/
def PassesParts (R : State → State → Prop) : Prop := ∀ (s : State) x r, R s { s with parts := x, ras := r }

namespace Frame

variable {R : State → State → Prop} (h : Frame R)

theorem ite {s t u : State} {c : Prop} [Decidable c] (ht : R s t) (hu : R s u) : R s (if c then t else u) := by
  split
  · exact ht
  · exact hu

include h

theorem foldl {α : Type} {f : State → α → State} (hf : ∀ x a, R x (f x a)) (l : List α) (s : State) : R s (l.foldl f s) :=
  List.foldlRecOn l f (h.refl s) fun _ hb a _ => h.trans hb (hf _ a)

theorem each {f : Nat → State → State} (hf : ∀ i x, R x (f i x)) (l : List Nat) (s : State) : R s (s.each l f) :=
  h.foldl (fun x i => hf i x) l s

variable (s : State)

/-! ### Components -/

theorem modSeq (q : Nat) (f : Seq → Seq) : R s (s.modSeq q f) := h.untouched {}
theorem modTile (t : Nat) (f : Tile → Tile) : R s (s.modTile t f) := h.untouched {}
theorem modFn (n : Nat) (f : Fn → Fn) : R s (s.modFn n f) := h.untouched {}
theorem modPort (n : Nat) (f : Port → Port) : R s (s.modPort n f) := h.untouched {}
theorem modColl (c : Nat) (f : Coll → Coll) : R s (s.modColl c f) := h.untouched {}
theorem modCore (c : Nat) (f : Core → Core) : R s (s.modCore c f) := h.untouched {}
theorem modPwr (f : PwrState → PwrState) : R s (s.modPwr f) := h.untouched {}
theorem modLedger (p : Nat) (f : Ledger → Ledger) : R s (s.modLedger p f) := h.standing fun _ => rfl
theorem modMsg (p : Nat) (f : MsgState → MsgState) : R s (s.modMsg p f) := h.standing fun _ => rfl
theorem draw : R s s.draw.2 := h.untouched {}
theorem stir : R s s.stir := h.untouched {}

/-! ### Messages to the host and records -/

theorem ltr : R s s.ltr := by
  obtain ⟨x, w, hx, -⟩ := ltr_frame s
  rw [hx]
  exact h.untouched {}

theorem post (n q status result : Nat) : R s (s.post n q status result) := by
  obtain ⟨x, w, hx⟩ := post_frame s n q status result
  rw [hx]
  exact h.untouched {}

theorem evPart (n : Nat) : R s (s.evPart n) := by
  obtain ⟨x, hx⟩ := evPart_frame s n
  rw [hx]
  exact h.untouched {}

theorem evAdmin : R s s.evAdmin := by
  obtain ⟨x, hx⟩ := evAdmin_frame s
  rw [hx]
  exact h.untouched {}

theorem evRecord : R s s.evRecord := by
  obtain ⟨x, hx⟩ := evRecord_frame s
  rw [hx]
  exact h.untouched {}

theorem record (code : Nat) (l : ErrLoc) : R s (s.record code l) := by
  unfold State.record
  split
  · exact h.untouched {}
  · refine h.trans (ite ?counted ?stored) (h.evRecord _)
    case counted => exact h.trans (h.untouched {}) (h.standing fun _ => rfl)
    case stored => exact h.untouched {}

theorem report (code : Nat) (l : ErrLoc) : R s (s.report code l) := ite (h.record ..) (h.refl s)
theorem memFault (p r : Nat) (l : List Nat) (code : Nat) : R s (s.memFault p r l code) := ite (h.record ..) (h.refl s)

/-! ### Tokens -/

theorem tileLedger (t : Nat) (f : Ledger → Ledger) : R s (s.tileLedger t f) := by
  unfold State.tileLedger
  split
  · exact h.modLedger ..
  · exact h.refl s

theorem emitTile (t q : Nat) (k : Token) : R s (s.emitTile t q k) :=
  ite (h.trans (h.modTile ..) (h.tileLedger ..)) (h.modTile ..)

theorem refill (t q : Nat) : R s (s.refill t q) := by
  unfold State.refill
  split
  · exact h.refl s
  · exact ite (h.trans (h.modTile ..) (h.tileLedger ..)) (h.refl s)

theorem emitPart (p q : Nat) (k : Token) : R s (s.emitPart p q k) := h.each (fun _ _ => h.emitTile ..) _ _

theorem emitRuntime (p : Nat) (k : Token) : R s (s.emitRuntime p k) := ite (h.modLedger ..) (h.standing fun _ => rfl)

/-! ### Rows of the scratchpads -/

theorem lgInvalid (p a n : Nat) : R s (s.lgInvalid p a n) := ite (h.refl s) (h.each (fun _ _ => h.modTile ..) _ _)

theorem dropItems (p : Nat) (r : Region) (unit : Int) (n : Nat) : R s (s.dropItems p r unit n) :=
  h.each (fun _ _ => ite (h.lgInvalid ..) (h.refl _)) _ _

theorem dropLimbs (p : Nat) (r : Region) (n : Nat) : R s (s.dropLimbs p r n) := h.dropItems s p r 2048 (limbBytes n false)

/-! ### Fabric -/

theorem toEgress (n : Nat) (x : Packet) : R s (s.toEgress n x) := h.modPort ..

theorem routeCtl (x : Packet) : R s (s.routeCtl x) := by
  unfold State.routeCtl
  split
  · exact h.toEgress ..
  · exact h.record ..

theorem sendCtl (dests : List Nat) (subtype : Nat) (fields : List Nat) : R s (s.sendCtl dests subtype fields) :=
  h.foldl (fun x d => h.trans (t := x.noteCtl d subtype fields) (h.untouched {}) (h.routeCtl ..)) dests s

theorem returnUnacked (c : Nat) : R s (s.returnUnacked c) := by
  unfold State.returnUnacked
  exact h.trans (h.foldl (fun _ _ => h.modLedger ..) _ _) (h.untouched {})

theorem collToken (p code : Nat) : R s (s.collToken p code) := h.trans (h.draw s) (h.emitPart ..)

theorem dropHdr (p e : Nat) : R s (s.dropHdr p e) := h.modSeq ..

theorem spoilOutput (x : CollCfg) (k : Coll) : R s (s.spoilOutput x k) := by
  unfold State.spoilOutput
  extract_lets n m
  split
  · exact h.refl s
  · exact h.dropLimbs ..

theorem gEnd (p code : Nat) : R s (s.gEnd p code) := h.standing fun _ => rfl

theorem endColl (c code : Nat) : R s (s.endColl c code) := by
  unfold State.endColl
  split
  · exact h.refl s
  · next x _ =>
    refine ite (h.refl s) ?_
    extract_lets spoiled recorded zeroed next advanced
    have hspoiled : R s spoiled := by
      refine ite (h.refl s) (h.trans (h.trans (h.returnUnacked s c) ?_) (h.spoilOutput ..))
      exact h.each (fun _ _ => h.dropHdr ..) _ _
    have hrecorded : R spoiled recorded := ite (h.record ..) (h.refl _)
    have hadvanced : R zeroed advanced := h.modColl ..
    refine h.trans (h.trans (h.trans hspoiled hrecorded) (h.trans (h.zeros ..) hadvanced)) ?_
    exact h.trans (h.trans (h.untouched {}) (h.collToken ..)) (h.gEnd ..)

theorem endAllColls (code : Nat) : R s (s.endAllColls code) := h.each (fun _ _ => h.endColl ..) _ _

theorem abortNamed (c inst cause : Nat) : R s (s.abortNamed c inst cause) :=
  ite (h.endAllColls ..) (ite (h.endColl ..) (ite (h.modColl ..) (h.refl s)))

theorem originate (c inst cause : Nat) : R s (s.originate c inst cause) := by
  unfold State.originate
  exact h.trans (h.trans (h.sendCtl ..) (h.untouched {})) (h.abortNamed ..)

theorem unreachable (n : Nat) (x : Packet) : R s (s.unreachable n x) :=
  ite (h.record ..) (h.trans (h.record ..) (h.originate ..))

theorem submit (x : Packet) : R s (s.submit x) := by
  unfold State.submit
  split
  · exact h.toEgress ..
  · exact h.unreachable ..

theorem portDown (n : Nat) : R s (s.portDown n) := by
  unfold State.portDown
  extract_lets p held down moved failedOver
  refine ite (h.refl s) (h.trans ?_ (h.foldl (fun _ _ => h.submit ..) _ _))
  exact h.trans (h.modPort ..) (ite (h.record ..) (h.refl _))

theorem followLanes (n : Nat) : R s (s.followLanes n) := by
  unfold State.followLanes
  extract_lets p low high narrowed
  refine ite (h.refl s) (ite (ite (h.portDown ..) (h.refl s)) (ite (h.portDown ..) ?_))
  exact h.trans (h.modPort ..) (h.record ..)

theorem frogReturn (n : Nat) : R s (s.frogReturn n) := ite (h.trans (h.modPort ..) (h.followLanes ..)) (h.modPort ..)

theorem jobForming : R s s.jobForming := by
  unfold State.jobForming
  extract_lets ended
  have hended : R s ended := h.endAllColls ..
  generalize ended = t at hended
  exact h.trans hended (h.untouched {})

theorem leaveJob : R s s.leaveJob := by
  unfold State.leaveJob
  exact ite (h.refl s) (h.trans (h.trans (h.sendCtl ..) (h.untouched {})) (h.jobForming _))

theorem newCeilings : R s s.newCeilings := by
  unfold State.newCeilings
  extract_lets fab pwr followed sent
  have hfollowed : R s followed := h.untouched {}
  have hsent : R followed sent := h.sendCtl ..
  exact ite (h.trans hfollowed (h.trans hsent (h.untouched {}))) hfollowed

/-! ### Power -/

theorem newLimits : R s s.newLimits := by
  unfold State.newLimits
  exact h.trans (h.newCeilings s) (h.modPwr ..)

theorem exitDone : R s s.exitDone := by
  unfold State.exitDone
  extract_lets returned deep awake
  have hawake : R s awake := h.trans (h.each (fun _ _ => h.frogReturn ..) _ _) (h.modPwr ..)
  refine h.trans (h.trans hawake (ite ?_ (h.refl _))) (h.ltr _)
  exact h.trans (h.modPwr ..) (h.newLimits _)

theorem wake : R s s.wake := ite (h.exitDone s) (h.refl s)

theorem advertise (before : Nat) : R s (s.advertise before) := by
  refine ite (h.refl s) (h.each (fun n x => ite ?_ (h.refl x)) _ _)
  exact h.trans (t := x.noteCtl (x.port n).peerAddr 7 [x.offered]) (h.untouched {}) (h.toEgress ..)

/-! ### Descriptors in progress -/

theorem postAll (test : Desc → Bool) (code : Nat) : R s (s.postAll test code) := by
  refine h.each (fun n x => h.each (fun q y => ?_) _ x) _ s
  split
  · exact ite (h.post ..) (h.refl y)
  · exact h.refl y

theorem tdiError (n : Nat) : R s (s.tdiError n) := ite (h.modFn ..) (h.refl s)

end Frame

end Sys2Proof.Machine
end

section
/-! Frames of a teardown (R113, R114, R175, R249, R276): stopping kernels and streams and resetting queues goes through every frame; where a
stream's last lines are stored, through one that lets pass changes of memory. -/

namespace Sys2Proof.Machine

namespace Frame

variable {R : State → State → Prop} (h : Frame R)
include h

variable (s : State)

/-! ### Token queues -/

theorem flushQueues (p : Nat) : R s (s.flushQueues p) := h.each (fun _ _ => h.trans (h.modTile ..) (h.modLedger ..)) _ _

theorem refillAll (p : Nat) : R s (s.refillAll p) :=
  h.each (fun _ x => h.foldl (fun y _ => h.each (fun _ _ => h.refill ..) _ y) _ x) _ s

theorem flushTokens (p : Nat) : R s (s.flushTokens p) := h.trans (h.flushQueues ..) (h.refillAll ..)

theorem dropTokens (p : Nat) : R s (s.dropTokens p) := h.trans (h.flushQueues ..) (h.each (fun _ _ => h.modTile ..) _ _)

theorem flushRuntime (p : Nat) : R s (s.flushRuntime p) := h.standing fun _ => rfl

/-! ### Stream slots -/

theorem modSlot (t i : Nat) (f : Slot → Slot) : R s (s.modSlot t i f) := h.modTile ..
theorem modRun (t i : Nat) (f : StreamRun → StreamRun) : R s (s.modRun t i f) := h.modSlot ..
theorem modBlock (t i j : Nat) (f : Block → Block) : R s (s.modBlock t i j f) := h.modRun ..
theorem freeStaging (t : Nat) (p : Chain → Bool) : R s (s.freeStaging t p) := h.untouched {}
theorem writeRows (t row : Nat) (d : List Byte) (stamp : Nat) : R s (s.writeRows t row d stamp) := h.modTile ..
theorem invalidRows (t row n : Nat) : R s (s.invalidRows t row n) := h.modTile ..
theorem dropRange (t : Nat) (row : Int) (n : Nat) : R s (s.dropRange t row n) := by
  unfold State.dropRange
  exact h.invalidRows ..

theorem kickEnded (t i : Nat) (r : StreamRun) (code : Nat) : R s (s.kickEnded t i r code) := by
  unfold State.kickEnded
  split
  · exact h.refl s
  · exact h.modSeq ..

theorem failWrites (t i : Nat) : R s (s.failWrites t i) := ite (h.refl s) (h.tileLedger ..)

theorem freeContexts (t i : Nat) : R s (s.freeContexts t i) := h.trans (h.trans (h.modRun ..) (h.modTile ..)) (h.tileLedger ..)

theorem giveContext (t i : Nat) : R s (s.giveContext t i) := h.trans (h.trans (h.modTile ..) (h.tileLedger ..)) (h.modRun ..)

theorem takeContexts (t i n : Nat) : R s (s.takeContexts t i n) := h.trans (h.trans (h.modTile ..) (h.tileLedger ..)) (h.modRun ..)

theorem dropRows (t i : Nat) : R s (s.dropRows t i) := by
  unfold State.dropRows
  extract_lets d r
  refine ite (h.refl s) (h.each (fun j x => ?_) _ s)
  split
  · exact h.refl x
  · exact h.each (fun _ _ => ite (h.trans (h.dropRange ..) (h.dropRange ..)) (h.dropRange ..)) _ x

theorem completeOne (t i : Nat) : R s (s.completeOne t i) := by
  unfold State.completeOne
  extract_lets x r
  split
  · exact h.refl s
  · exact ite (ite (h.trans (h.modSlot ..) (h.emitTile ..)) (h.modSlot ..)) (h.refl s)

theorem completeAll (t i : Nat) : R s (s.completeAll t i) := h.foldl (fun _ _ => h.completeOne ..) _ s

theorem tileFault (t : Nat) (lines : List Nat) (code : Nat) : R s (s.tileFault t lines code) := ite (h.record ..) (h.memFault ..)

theorem runFault (t i code : Nat) : R s (s.runFault t i code) := by
  unfold State.runFault
  extract_lets d completed r token dropped freed ended kicked
  have hdropped : R s dropped := h.trans (h.completeAll ..) (h.dropRows ..)
  have hfreed : R dropped freed := h.trans (h.trans (h.freeStaging ..) (h.failWrites ..)) (h.freeContexts ..)
  have hkicked : R freed kicked := h.trans (h.modSlot ..) (h.kickEnded ..)
  refine h.trans (h.trans (h.trans hdropped hfreed) hkicked) ?_
  clear_value token
  split
  · exact h.emitTile ..
  · exact h.refl _

theorem abortSlot (t i : Nat) : R s (s.abortSlot t i) := by
  unfold State.abortSlot
  extract_lets sl d r dropped marked kicked
  have hdropped : R s dropped := h.trans (h.dropRows ..) (h.freeStaging ..)
  have hkicked : R dropped kicked := h.trans (h.modSlot ..) (h.kickEnded ..)
  exact ite (h.refl s) (h.trans (h.trans hdropped hkicked) (ite (h.emitTile ..) (h.refl _)))

theorem abortDrained (t i : Nat) : R s (s.abortDrained t i) := ite (h.modSlot ..) (h.refl s)

/-! ### The lines of a store -/

theorem markAsleep (t i j n : Nat) : R s (s.markAsleep t i j n) := by
  unfold State.markAsleep
  extract_lets d r blk l
  refine ite (h.refl s) ?_
  split
  · exact h.modBlock ..
  · exact h.refl s

theorem lineDone (t i j : Nat) : R s (s.lineDone t i j) := by
  unfold State.lineDone
  extract_lets given
  have hgiven : R s given := h.trans (h.giveContext ..) (h.modBlock ..)
  split
  · refine h.trans hgiven (ite ?_ (h.refl given))
    exact h.trans (h.trans (h.takeContexts ..) (h.modBlock ..)) (h.markAsleep ..)
  · exact hgiven

theorem putChunk (t : Nat) (d : BitVec 512) (r : StreamRun) (b : BitVec 256) (k : Nat) (v : List Nat) :
    R s (s.putChunk t d r b k v) := h.writeRows ..

theorem endTransfer (t i j : Nat) : R s (s.endTransfer t i j) := by
  unfold State.endTransfer
  extract_lets d r blk b l moved
  have hmoved : R s moved := h.modBlock ..
  refine ite hmoved (ite (h.runFault ..) (ite (ite hmoved (ite ?rows ?chunk)) ?chunks))
  case rows => exact h.trans hmoved (h.writeRows ..)
  case chunk => exact h.trans hmoved (h.putChunk ..)
  case chunks => exact h.trans hmoved (h.each (fun _ _ => h.putChunk ..) _ _)

theorem landChain (t i j : Nat) : R s (s.landChain t i j) := by
  unfold State.landChain
  extract_lets d r b limbs g n landed
  have hlanded : R s landed := h.each (fun _ x => h.each (fun _ _ => ite (h.refl _) (h.writeRows ..)) _ x) _ s
  exact h.trans hlanded (h.trans (h.modBlock ..) (h.freeStaging ..))

theorem settleOne (t i : Nat) : ∀ u, s.settleOne t i = some u → R s u := by
  have hfault : ∀ lines code, R s ((s.tileFault t lines code).runFault t i code) := fun _ _ => h.trans (h.tileFault ..) (h.runFault ..)
  intro u hu
  unfold State.settleOne at hu
  extract_lets x d r at hu
  split at hu
  · cases hu
  · split at hu
    · cases hu
    · next j _ =>
      extract_lets blk code at hu
      split at hu
      · cases hu; exact hfault ..
      · split at hu
        · cases hu
        · split at hu
          · split at hu
            · cases hu
            · cases hu; exact ite (hfault ..) (h.endTransfer ..)
          · split at hu
            · cases hu; exact h.landChain ..
            · cases hu

theorem settleLoop (t i fuel : Nat) : R s (State.settleLoop t i fuel s) := by
  induction fuel generalizing s with
  | zero => exact h.refl s
  | succ fuel ih =>
    unfold State.settleLoop
    split
    · next u hu => exact h.trans (h.settleOne s t i u hu) (ih u)
    · exact h.refl s

theorem settleRun (t i : Nat) : R s (s.settleRun t i) := h.settleLoop ..

section
variable (hm : PassesMemory R)
include hm

theorem storeBits (a mask v : Nat) : R s (s.storeBits a mask v).1 := by
  unfold State.storeBits
  extract_lets line old
  split
  · rw [storeLine_frame]
    exact hm ..
  · split
    · exact h.untouched {}
    · exact hm ..

theorem storeAck (t i : Nat) : R s (s.storeAck t i) := by
  unfold State.storeAck
  extract_lets x d r
  split
  · exact h.refl s
  · next j _ =>
    extract_lets blk lines a code fields started e w counted
    have hstarted : R s started := ite (h.refl s) (h.modRun ..)
    have hw : R started w.1 := by
      by_cases he : e.1 = 0
      · rw [show w = (started, cStreamAborted) from if_pos he]
        exact h.refl started
      · rw [show w = started.storeBits a e.1 e.2 from if_neg he]
        exact h.storeBits started hm a e.1 e.2
    have hcounted : R s counted := h.trans (h.trans hstarted hw) (h.trans (h.tileLedger ..) (h.tileFault ..))
    refine ite (h.refl s) (ite (h.trans (h.tileFault ..) (h.runFault ..)) (ite ?fault ?done))
    case fault => exact h.trans hcounted (h.trans (h.giveContext ..) (h.runFault ..))
    case done =>
      have hline : R s (counted.lineDone t i j) := h.trans hcounted (h.lineDone ..)
      exact ite hline (h.trans hline (h.trans (h.endTransfer ..) (h.settleRun ..)))

theorem drainSlot (t i : Nat) : R s (s.drainSlot t i) := by
  unfold State.drainSlot
  extract_lets stored
  have hstored : R s stored := ite (h.refl s) (h.foldl (fun x _ => h.storeAck x hm t i) _ s)
  exact h.trans hstored (h.trans (h.trans (h.failWrites ..) (h.freeContexts ..)) (h.abortDrained ..))

theorem stopStreams (p : Nat) : R s (s.stopStreams p) :=
  h.each (fun t x => h.each (fun i y => h.trans (h.abortSlot y t i) (ite (h.drainSlot _ hm t i) (h.refl _))) _ x) _ s

end

/-! ### Sequencers -/

theorem modKern (q : Nat) (f : Kern → Kern) : R s (s.modKern q f) := h.modSeq ..
theorem modBeat (q : Nat) (b : Beat) (f : Beat → Beat) : R s (s.modBeat q b f) := h.modKern ..

theorem settle (q : Nat) : R s (s.settle q) := by
  unfold State.settle
  split
  · exact h.refl s
  · exact ite (h.trans (h.modKern ..) (h.modSeq ..)) (h.modKern ..)

theorem addFault (q : Nat) (f : FaultRec) : R s (s.addFault q f) := h.trans (h.modKern ..) (h.settle ..)

theorem readBeat (q : Nat) (b : Beat) : R s (s.readBeat q b) := by
  unfold State.readBeat
  extract_lets p tiles done d k j pops rs taken popped drawn
  have hdone : ∀ f x, R x (done f x) := fun _ _ => h.modKern ..
  have hpopped : R s popped := h.trans (h.each (fun _ _ => h.modTile ..) _ s) (ite (h.modKern ..) (h.refl _))
  refine ite (hdone ..) ?_
  split
  · exact h.trans hpopped (h.trans (ite (h.untouched {}) (h.refl _)) (hdone ..))
  · exact h.trans hpopped (h.trans (hdone ..) (h.addFault ..))

theorem pushBeat (q : Nat) (b : Beat) : R s (s.pushBeat q b) := by
  unfold State.pushBeat
  extract_lets full
  clear_value full
  split
  · exact h.addFault ..
  · exact h.foldl (fun _ _ => h.modTile ..) _ s

theorem stampOnly (q : Nat) (b : Beat) : R s (s.stampOnly q b) := by
  unfold State.stampOnly
  refine ite (h.each (fun _ x => h.each (fun _ _ => h.modTile ..) _ x) _ s) ?_
  exact h.each (fun _ x => h.foldl (fun _ _ => h.modTile ..) _ x) _ s

theorem writeBeat (q : Nat) (b : Beat) : R s (s.writeBeat q b) := by
  unfold State.writeBeat
  extract_lets d st ended rows masks gens
  have hended : R s ended := h.modKern ..
  have hrows : R ended rows := h.foldl (fun _ _ => h.writeRows ..) _ ended
  have hgens : R rows gens := h.trans (h.foldl (fun _ _ => h.modTile ..) _ rows) (h.foldl (fun _ _ => h.modTile ..) _ _)
  refine ite (h.trans hended (h.stampOnly ..)) (ite hended ?_)
  exact h.trans (h.trans (h.trans hended hrows) hgens) (h.foldl (fun _ _ => h.modTile ..) _ gens)

/-- The tokens of a word, to the runtime core or to every tile of the partition. -/
theorem emitWord (q : Nat) (w : BitVec 512) (status : Nat) : R s (s.emitWord q w status).1 := by
  unfold State.emitWord
  extract_lets p k
  split
  · exact h.emitRuntime ..
  · refine List.foldlRecOn _ _ (motive := fun (acc : State × List Nat) => R s acc.1) (h.refl s) fun acc hacc t _ => ?_
    split
    · exact h.trans hacc (h.emitTile ..)
    · exact h.trans hacc (h.modLedger ..)

theorem retireWord (q : Nat) (f : FlightWord) : R s (s.retireWord q f) := by
  unfold State.retireWord
  extract_lets ended
  have hended : R s ended := h.modKern ..
  have hword := h.trans hended (h.emitWord ended q f.word 0)
  refine ite ?_ hended
  split
  · next u hu =>
    rw [hu] at hword
    exact hword
  · next u t _ hu =>
    rw [hu] at hword
    exact h.trans hword (h.addFault ..)

theorem fire (q : Nat) (e : Ev) : R s (s.fire q e) := by
  cases e with
  | read b => exact h.readBeat ..
  | push b => exact h.trans (h.pushBeat ..) (h.modBeat ..)
  | arrive b => exact h.modBeat ..
  | write b => exact h.writeBeat ..
  | retire f => exact h.retireWord ..

theorem catchUp (q key fuel : Nat) : R s (State.catchUp q key fuel s) := by
  induction fuel generalizing s with
  | zero => exact h.refl s
  | succ fuel ih =>
    unfold State.catchUp
    split
    · exact h.refl s
    · exact ite (h.trans (h.fire ..) (ih _)) (h.refl s)

theorem drainAll (q : Nat) : R s (s.drainAll q) := h.catchUp ..

theorem clearMatrix (p : Nat) : R s (s.clearMatrix p) := h.trans (h.each (fun _ _ => h.modTile ..) _ s) (h.standing fun _ => rfl)

theorem dropRegions (p o : Nat) (g : GInstr) : R s (s.dropRegions p o g) := h.foldl (fun _ _ => h.dropItems ..) _ s

theorem abortOp (q p opid : Nat) : R s (s.abortOp q p opid) := by
  unfold State.abortOp
  extract_lets e k dropped
  have hdropped : R s dropped := by
    unfold dropped
    split
    · exact h.dropRegions ..
    · exact h.each (fun _ _ => h.trans (h.invalidRows ..) (h.invalidRows ..)) _ s
  exact ite (h.trans hdropped (h.modSeq ..)) hdropped

theorem refusedTokens (q opid code : Nat) : R s (s.refusedTokens q opid code) :=
  h.each (fun _ _ => ite (h.emitWord ..) (h.refl _)) _ s

theorem postRun (p : Nat) (o : Option RunOwner) (status result : Nat) : R s (s.postRun p o status result) := by
  unfold State.postRun
  split
  · exact h.refl s
  · refine ite ?_ (h.modCore ..)
    unfold State.postOwner
    split
    · exact ite (h.post ..) (h.refl s)
    · exact h.refl s

theorem kernelDone (q p : Nat) (o : Option RunOwner) (code : Nat) : R s (s.kernelDone q p o code) :=
  h.trans (h.draw s) (h.trans (h.emitRuntime ..) (h.postRun ..))

theorem stopKernel (q : Nat) : R s (s.stopKernel q) := ite (h.trans (h.modSeq ..) (h.addFault ..)) (h.refl s)

theorem drainEnd (q : Nat) : R s (s.drainEnd q) := by
  unfold State.drainEnd
  extract_lets drained k p f stopped aborted refused kicked flushed late counted loc reported done
  have hstopped : R s stopped := h.trans (h.drainAll ..) (h.modSeq ..)
  have haborted : R stopped aborted := h.each (fun _ _ => h.abortOp ..) _ stopped
  have hrefused : R aborted refused := ite (h.refusedTokens ..) (h.refl aborted)
  have hkicked : R refused kicked := h.each (fun _ _ => h.abortSlot ..) _ refused
  have hflushed : R kicked flushed := h.trans (h.flushTokens ..) (h.clearMatrix ..)
  have hcounted : R flushed counted := h.standing fun _ => rfl
  have hreported : R counted reported := ite (ite (ite (h.refl counted) (h.record ..)) (h.report ..)) (h.refl counted)
  have hdone : R reported done := h.kernelDone ..
  refine h.trans (h.trans (h.trans hstopped haborted) (h.trans hrefused hkicked)) ?_
  exact h.trans (h.trans hflushed hcounted) (h.trans hreported (h.trans hdone (h.modSeq ..)))

/-! ### Messages -/

theorem modRq (p ep queue : Nat) (f : RQueue → RQueue) : R s (s.modRq p ep queue f) := h.modMsg ..

theorem epWrite (p ep row : Nat) (d : List Byte) : R s (s.epWrite p ep row d) := ite (h.writeRows ..) (h.untouched {})

theorem epDone (p ep doneQ idx status : Nat) : R s (s.epDone p ep doneQ idx status) :=
  ite (ite (h.refl s) (h.emitTile ..)) (h.modCore ..)

theorem sendDone (p : Nat) (m : Rec) (status : Nat) : R s (s.sendDone p m status) := h.epDone ..

theorem deadLetter (p : Nat) (m : Rec) : R s (s.deadLetter p m) := h.trans (h.modMsg ..) (h.modLedger ..)

theorem pageGive (p i : Nat) : R s (s.pageGive p i) :=
  ite (h.trans (h.modMsg ..) (h.modLedger ..)) (h.trans (h.modMsg ..) (h.modLedger ..))

theorem orphanHeld (p ep queue : Nat) : R s (s.orphanHeld p ep queue) :=
  h.each (fun _ x => ite (h.trans (h.modMsg ..) (h.foldl (fun _ _ => h.epDone ..) _ _)) (h.refl x)) _ s

theorem setStatic (p ep queue : Nat) (m : Rec) : R s (s.setStatic p ep queue m) := ite (h.modMsg ..) (h.refl s)

theorem dropSkip (p : Nat) (c : QueueCfg) : R s (s.dropSkip p c) := by
  unfold State.dropSkip
  split
  · exact ite (h.trans (h.modRq ..) (h.modLedger ..)) (h.refl s)
  · exact h.refl s

theorem takeHead (p : Nat) (c : QueueCfg) (r : RingRec) (hc : HeldCmd) : R s (s.takeHead p c r hc) := by
  unfold State.takeHead
  extract_lets written taken left counted dropped
  have htaken : R s taken := h.trans (h.epWrite ..) (h.modRq ..)
  have hcounted : R taken counted := h.trans (h.trans (h.modLedger ..) (h.modLedger ..)) (h.modMsg ..)
  have hdropped : R counted dropped := h.trans (h.dropSkip ..) (h.setStatic ..)
  exact h.trans (h.trans htaken hcounted) (h.trans hdropped (h.epDone ..))

/-- A held command that a queue's state lets end. -/
theorem tryQueue (p ep : Nat) (hc : HeldCmd) : R s ((s.tryQueue p ep hc).getD s) := by
  have hdone : ∀ t, R s t → ∀ q idx st, R s (t.epDone p ep q idx st) := fun t ht _ _ _ => h.trans ht (h.epDone ..)
  have hinvalid := hdone s (h.refl s)
  unfold State.tryQueue
  extract_lets c done
  split
  · exact hinvalid ..
  · split
    · exact hinvalid ..
    · split
      · split
        · exact hinvalid ..
        · split
          · exact h.refl s
          · split
            · exact h.refl s
            · split
              · exact hinvalid ..
              · split
                · exact hinvalid ..
                · exact h.takeHead ..
      · split
        · exact hdone _ (h.trans (h.modRq ..) (h.orphanHeld ..)) ..
        · split
          · exact hdone _ (h.modRq ..) ..
          · split
            · exact hdone _ (h.modMsg ..) ..
            · exact hinvalid ..

theorem abortHeld (p : Nat) : R s (s.abortHeld p) := by
  unfold State.abortHeld
  extract_lets sends
  have hsends : R s sends := by
    refine h.each (fun _ x => ite ?_ (h.refl x)) _ s
    exact h.trans (h.modMsg ..) (h.foldl (fun _ _ => h.epDone ..) _ _)
  refine h.trans hsends (h.foldl (fun x c => ite ?_ (h.refl x)) _ sends)
  exact h.trans (h.modRq ..) (h.foldl (fun _ _ => h.epDone ..) _ _)

theorem resetQueue (p : Nat) (c : QueueCfg) : R s (s.resetQueue p c) := by
  unfold State.resetQueue
  extract_lets q rings spills waits emptied cleared closed
  have hrings : R s rings := h.foldl (fun _ _ => h.deadLetter ..) _ s
  have hspills : R rings spills := by
    refine h.foldl (fun x r => ?_) _ rings
    split
    · refine h.trans (h.trans ?_ (h.pageGive ..)) (h.deadLetter ..)
      exact ite (h.refl x) (h.sendDone ..)
    · exact h.trans (h.deadLetter ..) (h.sendDone ..)
  have hwaits : R spills waits := h.foldl (fun _ _ => h.trans (h.deadLetter ..) (h.sendDone ..)) _ spills
  have hcleared : R waits cleared := h.trans (h.modLedger ..) (ite (h.modMsg ..) (h.refl _))
  have hclosed : R cleared closed := h.modRq ..
  refine h.trans (h.trans (h.trans hrings hspills) (h.trans hwaits (h.trans hcleared hclosed))) ?_
  refine h.trans (h.orphanHeld ..) (h.foldl (fun x y => ?_) _ _)
  exact ite (h.epDone ..) (h.tryQueue ..)

theorem orphanFlying (p : Nat) : R s (s.orphanFlying p) := by
  refine h.each (fun _ x => ?_) _ s
  exact h.trans (h.modMsg ..) (h.foldl (fun _ _ => h.trans (h.modLedger ..) (h.sendDone ..)) _ _)

theorem resetQueues (p : Nat) : R s (s.resetQueues p) := h.trans (h.foldl (fun _ _ => h.resetQueue ..) _ s) (h.orphanFlying ..)

/-! ### The steps of a teardown -/

theorem stopDrain (q : Nat) : R s (s.stopDrain q) := by
  unfold State.stopDrain
  extract_lets x stopped
  have hstopped : R s stopped := ite (h.addFault ..) (h.stopKernel ..)
  exact ite (h.refl s) (h.trans hstopped (h.trans (h.drainEnd ..) (h.abortHeld ..)))

section
variable (hm : PassesMemory R)
include hm

/-- A teardown's first steps, after PART_STATE has changed. -/
theorem tearStart_of_setPartState (p : Nat) (code : Option Nat) : R (s.setPartState p 2) (s.tearStart p code) := by
  unfold State.tearStart
  extract_lets errored posted stopped down quiet left
  have hposted : R (s.setPartState p 2) posted := by
    refine h.trans (h.tdiError _ (p + 1)) ?_
    unfold posted
    split
    · exact h.postAll ..
    · exact h.refl _
  have hstopped : R posted stopped := h.stopDrain ..
  have hquiet : R stopped quiet := h.trans (h.postAll ..) (h.standing fun _ => rfl)
  have hleft : R quiet left := ite (h.leaveJob ..) (h.refl quiet)
  refine h.trans (h.trans (h.trans hposted hstopped) (h.trans hquiet hleft)) ?_
  exact h.trans (h.trans (h.trans (h.stopStreams left hm p) (h.resetQueues ..)) (h.dropTokens ..)) (h.flushRuntime ..)

end

end Frame

end Sys2Proof.Machine
end

section
/-! Frames of a change of structure (R273, R276, R404): teardowns, failures and the partitions that a load brings up or drops, through a
frame that lets pass changes of the partitions; and the frames themselves. -/

namespace Sys2Proof.Machine

namespace Frame

variable {R : State → State → Prop} (h : Frame R)
include h

variable (s : State)

/-! ### The FABRIC section and the power policy in force -/

theorem zeroLandings : R s s.zeroLandings := h.foldl (fun _ _ => h.zeros ..) _ s

theorem setFabric (x : Image) : R s (s.setFabric x) := by
  unfold State.setFabric
  refine h.trans (h.trans (h.untouched {}) (h.zeroLandings _)) (h.each (fun _ y => ite (h.refl y) (h.portDown ..)) _ _)

theorem setPolicy (x : PowerPolicy) : R s (s.setPolicy x) := by
  unfold State.setPolicy
  exact h.trans (h.trans (h.modPwr ..) (h.newLimits ..)) (h.advertise ..)

/-! ### Rows and slots of a partition's tiles -/

theorem freeSlots (t n : Nat) : R s (s.freeSlots t n) := h.each (fun _ _ => h.modTile ..) _ s

theorem scrubDies : R s s.scrubDies := h.untouched {}

section
variable (hm : PassesMemory R)
include hm

theorem evict (a : Nat) : R s (s.evict a) := by
  unfold State.evict
  extract_lets l u
  refine h.trans (t := _) ?_ (hm ..)
  exact ite (hm ..) (h.refl s)

theorem setWays (d w : Nat) : R s (s.setWays d w) := by
  unfold State.setWays
  exact ite (h.refl s) (h.trans (hm s s.mem s.poison _) (h.foldl (fun x _ => h.evict x hm _) _ _))

end

/-! ### Partitions -/

section
variable (hp : PassesParts R)
include hp

omit h in
theorem modPart (p : Nat) (f : Part → Part) : R s (s.modPart p f) := hp s _ s.ras

theorem setPartState (p st : Nat) : R s (s.setPartState p st) :=
  ite (h.refl s) (h.trans (h.trans (modPart s hp p _) (h.evPart ..)) (h.evPart ..))

theorem unloadAll (p : Nat) : R s (s.unloadAll p) := h.trans (h.foldl (fun _ _ => h.modSeq ..) _ s) (modPart _ hp p _)

theorem tearEnd (p st : Nat) : R s (s.tearEnd p st) := by
  unfold State.tearEnd
  extract_lets unloaded cleared headers
  have hunloaded : R s unloaded := h.unloadAll s hp p
  have hcleared : R unloaded cleared := h.each (fun _ _ => h.modTile ..) _ _
  exact h.trans (h.trans hunloaded hcleared) (h.trans (h.modSeq ..) (h.setPartState _ hp p st))

theorem bringUp (x : Image) (p : Nat) (pl : Place) : R s (s.bringUp x p pl) := by
  unfold State.bringUp
  exact h.trans (h.trans (modPart s hp p _) (h.freeSlots ..)) (h.setPartState _ hp p 1)

theorem dropPart (p : Nat) : R s (s.dropPart p) := h.trans (modPart s hp p _) (h.setPartState _ hp p 0)

variable (hm : PassesMemory R)
include hm

theorem tearStart (p : Nat) (code : Option Nat) : R s (s.tearStart p code) :=
  h.trans (h.setPartState s hp p 2) (h.tearStart_of_setPartState s hm p code)

theorem fatalStop (code : Nat) : R s (s.fatalStop code) := by
  unfold State.fatalStop
  extract_lets ras marked left
  have hleft : R s left := h.trans (hp s s.parts _) (h.leaveJob marked)
  refine ite (h.refl s) (h.trans (h.trans hleft (h.postAll ..)) (h.each (fun p x => ?_) _ _))
  exact ite (h.refl x) (ite (h.trans (h.tearStart x hp hm p _) (h.tearEnd _ hp p 4)) (h.setPartState x hp p 4))

theorem breach (p row : Nat) : R s (s.breach p row) := by
  unfold State.breach
  exact h.trans (h.trans (modPart s hp p _) (h.record ..)) (h.fatalStop _ hp hm cLedgerBreach)

theorem checkLedger (p : Nat) (parity : Bool) : R s (s.checkLedger p parity) := by
  unfold State.checkLedger
  refine ite (h.refl s) (ite (h.breach s hp hm p _) (ite ?_ (h.refl s)))
  exact h.trans (h.draw s) (h.breach _ hp hm p _)

theorem tear (p st : Nat) (code : Option Nat) : R s (s.tear p st code) := by
  unfold State.tear
  extract_lets started i checked
  have hstarted : R s started := h.tearStart s hp hm p code
  have hchecked : R started checked := h.checkLedger _ hp hm p false
  refine ite (h.trans hstarted (h.breach _ hp hm p i)) (h.trans hstarted (h.trans hchecked ?_))
  exact ite (h.refl _) (h.tearEnd _ hp p st)

theorem tearOthers (keep : Nat → Bool) : R s (s.tearOthers keep) := h.each (fun p x => ite (h.tear x hp hm p 3 none) (h.refl x)) _ s

end

end Frame

/-! ### What the frames keep -/

/-- The registers of images and owners and the pins are the same in both states. -/
structure ImagesKept (s u : State) : Prop where
  img : u.img = s.img := by rfl
  owner : u.owner = s.owner := by rfl
  pins : u.pins = s.pins := by rfl

namespace ImagesKept

theorem trans {s t u : State} (h : ImagesKept s t) (h' : ImagesKept t u) : ImagesKept s u :=
  ⟨h'.img.trans h.img, h'.owner.trans h.owner, h'.pins.trans h.pins⟩

theorem frame : Frame ImagesKept where
  refl _ := {}
  trans := trans
  untouched h := ⟨h.img, h.owner, h.pins⟩
  standing _ := {}
  zeros a n := by
    unfold State.zeroRange
    dsimp only
    split <;> exact {}

end ImagesKept

/-- The owner's registers and the security complex are the same in both states. -/
structure SecurityKept (s u : State) : Prop where
  owner : u.owner = s.owner := by rfl
  sec : u.sec = s.sec := by rfl

namespace SecurityKept

theorem passesMemory : PassesMemory SecurityKept := fun _ _ _ _ => {}

theorem passesParts : PassesParts SecurityKept := fun _ _ _ => {}

theorem frame : Frame SecurityKept where
  refl _ := {}
  trans h h' := ⟨h'.owner.trans h.owner, h'.sec.trans h.sec⟩
  untouched h := ⟨h.owner, h.sec⟩
  standing _ := {}
  zeros a n := by
    unfold State.zeroRange
    dsimp only
    split <;> exact {}

end SecurityKept

/-- The registers of images and owners, the pins and the security complex are the same in both states. -/
structure RegistersKept (s u : State) : Prop extends ImagesKept s u where
  sec : u.sec = s.sec := by rfl

namespace RegistersKept

theorem trans {s t u : State} (h : RegistersKept s t) (h' : RegistersKept t u) : RegistersKept s u :=
  ⟨h.toImagesKept.trans h'.toImagesKept, h'.sec.trans h.sec⟩

theorem passesMemory : PassesMemory RegistersKept := fun _ _ _ _ => {}

theorem passesParts : PassesParts RegistersKept := fun _ _ _ => {}

theorem frame : Frame RegistersKept where
  refl _ := {}
  trans := trans
  untouched h := ⟨⟨h.img, h.owner, h.pins⟩, h.sec⟩
  standing _ := {}
  zeros a n := by
    unfold State.zeroRange
    dsimp only
    split <;> exact {}

end RegistersKept

/-- What a change of owner decides is the same in both states: the owner's registers, the pins, the withdrawn units and the epoch. -/
structure OwnerKept (s u : State) : Prop where
  owner : u.owner = s.owner := by rfl
  pins : u.pins = s.pins := by rfl
  withdrawn : u.withdrawn = s.withdrawn := by rfl
  epoch : u.sec.epoch = s.sec.epoch := by rfl

namespace OwnerKept

theorem trans {s t u : State} (h : OwnerKept s t) (h' : OwnerKept t u) : OwnerKept s u :=
  ⟨h'.owner.trans h.owner, h'.pins.trans h.pins, h'.withdrawn.trans h.withdrawn, h'.epoch.trans h.epoch⟩

theorem passesMemory : PassesMemory OwnerKept := fun _ _ _ _ => {}

theorem passesParts : PassesParts OwnerKept := fun _ _ _ => {}

theorem frame : Frame OwnerKept where
  refl _ := {}
  trans := trans
  untouched h := ⟨h.owner, h.pins, h.withdrawn, congrArg SecState.epoch h.sec⟩
  standing _ := {}
  zeros a n := by
    unfold State.zeroRange
    dsimp only
    split <;> exact {}

end OwnerKept

/-- Every partition has the standing it had, and a module-fatal state has neither begun nor ended. -/
structure StandingKept (s u : State) : Prop where
  part : ∀ p, (u.part p).standing = (s.part p).standing
  fatal : u.ras.fatal = s.ras.fatal := by rfl

namespace StandingKept

variable {s t u : State}

theorem of_parts (hparts : u.parts = s.parts) (hfatal : u.ras.fatal = s.ras.fatal := by rfl) : StandingKept s u :=
  ⟨fun p => by rw [State.part, State.part, hparts], hfatal⟩

theorem trans (h : StandingKept s t) (h' : StandingKept t u) : StandingKept s u :=
  ⟨fun p => (h'.part p).trans (h.part p), h'.fatal.trans h.fatal⟩

theorem modPart {p : Nat} {f : Part → Part} (hf : ∀ x, (f x).standing = x.standing) : StandingKept s (s.modPart p f) := by
  refine ⟨fun p' => ?_, rfl⟩
  rw [State.modPart_part]
  split
  · next hp' => rw [hp', hf]
  · rfl

theorem modLedger (s : State) (p : Nat) (f : Ledger → Ledger) : StandingKept s (s.modLedger p f) := modPart fun _ => rfl

theorem passesMemory : PassesMemory StandingKept := fun _ _ _ _ => .of_parts rfl

theorem frame : Frame StandingKept where
  refl _ := .of_parts rfl
  trans := trans
  untouched h := .of_parts h.parts h.fatal
  standing := modPart
  zeros {s} a n := by
    unfold State.zeroRange
    extract_lets l gone m zeroed
    have hzeroed : StandingKept s zeroed := .of_parts rfl
    split
    · exact hzeroed.trans (modLedger ..)
    · exact hzeroed

/-- The fields of a partition's standing. -/
theorem fields (h : StandingKept s u) (p : Nat) :
    (u.part p).state = (s.part p).state ∧ (u.part p).tiles = (s.part p).tiles ∧ (u.part p).seq = (s.part p).seq ∧
      (u.part p).stks = (s.part p).stks ∧ (u.part p).pkgs = (s.part p).pkgs := by
  have hpart := h.part p
  simpa only [Part.standing, Prod.mk.injEq] using hpart

end StandingKept

end Sys2Proof.Machine
end

section
/-! Flash slots (R280, R281): what an invalidation and each end of a write leave of the two slots. -/

namespace Sys2Proof.Machine

/-- A slot whose COMMIT is not the commit value is not valid (R280). -/
theorem valid_of_commit_ne {f : FlashSlot} (h : f.commit ≠ slotCommit) : f.valid = false := by
  simp only [FlashSlot.valid, Bool.and_eq_false_iff, beq_eq_false_iff_ne]
  exact .inl (.inl h)

/-- A programmed slot is valid (R281). -/
theorem valid_of_programmed (gen n : Nat) (l : List Byte) :
    ({ magic := slotMagic, gen := gen, imageBytes := n, digest := sha384 (l.take n), commit := slotCommit, bytes := l } :
      FlashSlot).valid = true := by
  simp only [FlashSlot.valid, beq_self_eq_true, Bool.and_self]

section
variable (s : State)

theorem slot_modSlotB_same (b : Bool) (f : FlashSlot → FlashSlot) : (s.modSlotB b f).img.slot b = f (s.img.slot b) := by
  cases b <;> rfl

theorem slot_modSlotB_other (b : Bool) (f : FlashSlot → FlashSlot) : (s.modSlotB b f).img.slot (!b) = s.img.slot (!b) := by
  cases b <;> rfl

/-- The end of an NV operation changes its own registers alone. -/
theorem nvEnd_img (code : Nat) : (s.nvEnd code).img = { s.img with
    nvBusy := false, nvDone := true, nvError := s.img.nvError || code != 0
    nvErrCode := if code = 0 then s.img.nvErrCode else code } :=
  (RegistersKept.frame.evAdmin _).img

theorem finishLoad_of_none (h : s.img.loading = none) : s.finishLoad = s := by
  rw [State.finishLoad, h]

end

/-! ### The commands -/

section
variable {s v : State} (hv : s.wake = v) (hrun : s.fw.running ≠ 2) (hfree : v.img.nvBusy = false) (hload : v.img.loading = none)
  (hopen : v.flashClosed = false)
include hv hrun hfree hload hopen

theorem exec_invalidate_of_open {slot : Nat} (hslot : slot = 1 ∨ slot = 2) : exec (.invalidate slot) s = .next
    (((v.stir.modImg fun y => { y with nvSlot := slot }).modSlotB (slot == 2) fun f => { f with commit := 0 }).nvEnd 0) := by
  change guarded (decide (slot < 4)) (s.pf0 _) = _
  have hnamed : ¬ (slot = 0 ∨ slot = 3) := by omega
  have hopen' : ((v.stir.modImg fun y => { y with nvSlot := slot }).flashClosed) = false := hopen
  rw [guarded_next (decide_eq_true (by omega)), State.pf0, if_neg hrun, hv, hfree, finishLoad_of_none v.stir hload]
  simp only [Bool.false_eq_true, if_false, hnamed, hopen']

/-- A write whose image passes the checks of Table 10-8 (R269, R281). -/
theorem exec_nvWrite_of_checked {slot : Nat} (hslot : slot < 3) {host : List Byte} {t : State}
    (ht : (v.stir.modImg fun y => { y with nvSlot := slot }) = t) (hcopy : (t.copySource 0 host).2 = 0)
    (hengine : t.sec.engineCode = 0) (hvalid : t.validate (t.copySource 0 host).1 true = none) {how : NvEnd} (hhow : how ≠ .mismatch) :
    exec (.nvWrite slot host how) s = .next (t.writeSlot (t.img.target slot) (t.copySource 0 host).1 how) := by
  change guarded (decide (slot < 4)) (s.pf0 _) = _
  have hnamed : slot ≠ 3 := by omega
  have hopen' : t.flashClosed = false := by rw [← ht]; exact hopen
  have hmatch : (how == NvEnd.mismatch) = false := beq_eq_false_iff_ne.mpr hhow
  have hchecked : t.checked (t.copySource 0 host).1 true false = (none, 0) := by
    simp only [State.checked, hvalid, hengine, Bool.false_eq_true, ne_eq, not_true_eq_false, if_false]
  have hcode : ¬ (0 = cImageRejected) := by decide
  rw [guarded_next (decide_eq_true (by omega)), State.pf0, if_neg hrun, hv, hfree, finishLoad_of_none v.stir hload]
  simp only [Bool.false_eq_true, if_false, hnamed, ht, hopen', hcopy, hcode, ne_eq, not_true_eq_false, hmatch, hchecked]

end

/-! ### The ends of a write -/

section
variable (t : State) (k : Bool) (b : List Byte)

/-- Step 6 of R281 leaves the slot that was written as it is. -/
theorem slot_retireOther_same : (t.retireOther k).img.slot k = t.img.slot k := by
  unfold State.retireOther
  split
  · have h := slot_modSlotB_other t (!k) fun f => { f with commit := 0 }
    rwa [Bool.not_not] at h
  · rfl

theorem slot_retireOther_other (h : (t.img.slot (!k)).gen ≠ 0xFFFFFFFE) : (t.retireOther k).img.slot (!k) = t.img.slot (!k) := by
  have hlast : t.lastGen k = false := by rw [State.lastGen, beq_eq_false_iff_ne.mpr h, Bool.and_false]
  rw [State.retireOther, hlast]
  rfl

/-- The generation a write gives its slot (R281). -/
def State.nextGen (t : State) (k : Bool) : Nat :=
  if (t.img.slot (!k)).valid ∧ (t.img.slot (!k)).gen < 0xFFFFFFFE then (t.img.slot (!k)).gen + 1 else 1

theorem slot_programSlot : (t.programSlot k b).img.slot k =
    { magic := slotMagic, gen := t.nextGen k, imageBytes := imgTotal b, digest := sha384 (b.take (imgTotal b)), commit := slotCommit
      bytes := b } := slot_modSlotB_same ..

/-- An operation's registers stand beside the slots. -/
theorem slot_nvEnd (code : Nat) (c : Bool) : (t.nvEnd code).img.slot c = t.img.slot c := by
  rw [nvEnd_img]
  rfl

/-- A write that comes to its end: the slot is valid with the image and the next generation. -/
theorem writeSlot_ok : let u := t.writeSlot k b .ok
    (u.img.slot k).valid = true ∧ (u.img.slot k).bytes = b ∧ (u.img.slot k).gen = t.nextGen k ∧
      ((t.img.slot (!k)).gen ≠ 0xFFFFFFFE → u.img.slot (!k) = t.img.slot (!k)) ∧ u.img.nvDone = true ∧ u.img.image = t.img.image := by
  have hend : t.writeSlot k b .ok = ((t.programSlot k b).retireOther k).nvEnd 0 := rfl
  have hslot : (t.writeSlot k b .ok).img.slot k = (t.programSlot k b).img.slot k := by
    rw [hend, slot_nvEnd, slot_retireOther_same]
  have hother : (t.programSlot k b).img.slot (!k) = t.img.slot (!k) := slot_modSlotB_other ..
  rw [slot_programSlot] at hslot
  refine ⟨?valid, ?bytes, ?gen, fun h => ?other, ?done, ?image⟩
  case valid => rw [hslot, valid_of_programmed]
  case bytes => rw [hslot]
  case gen => rw [hslot]
  case other => rw [hend, slot_nvEnd, slot_retireOther_other _ _ (by rwa [hother]), hother]
  case done => rw [hend, nvEnd_img]
  case image =>
    rw [hend, nvEnd_img]
    unfold State.retireOther
    split <;> cases k <;> rfl

/-- A write that the flash does not finish: its slot is erased. -/
theorem writeSlot_failed : let u := t.writeSlot k b .failed
    (u.img.slot k).valid = false ∧ u.img.slot (!k) = t.img.slot (!k) ∧ u.img.nvDone = true ∧ u.img.nvError = true ∧
      u.img.nvErrCode = cNvWriteFailed := by
  have hend : t.writeSlot k b .failed = (t.modSlotB k fun _ => {}).nvEnd cNvWriteFailed := rfl
  refine ⟨?valid, ?other, ?done, ?error, ?code⟩
  case valid =>
    rw [hend, slot_nvEnd, slot_modSlotB_same]
    exact valid_of_commit_ne (by decide)
  case other => rw [hend, slot_nvEnd, slot_modSlotB_other]
  case done => rw [hend, nvEnd_img]
  case error =>
    rw [hend, nvEnd_img]
    exact Bool.or_true _
  case code =>
    rw [hend, nvEnd_img]
    rfl

/-- A write under way: its slot is erased, and the write stands in NV_BUSY. -/
theorem writeSlot_running : let u := t.writeSlot k b .running
    (u.img.slot k).valid = false ∧ u.img.slot (!k) = t.img.slot (!k) ∧ u.img.nvBusy = true ∧
      u.img.writing = some { slot := k, image := b, lastStep := false } := by
  have hslot : (t.writeSlot k b .running).img.slot k = {} := slot_modSlotB_same ..
  refine ⟨?_, slot_modSlotB_other .., rfl, rfl⟩
  rw [hslot]
  exact valid_of_commit_ne (by decide)

end

/-- Settles O39: waking the module leaves the slots (R371); an invalidation and each end of a write change them as their steps say. -/
theorem flashSlots : Obligations.FlashSlots := by
  unfold Obligations.FlashSlots
  intro s slot hrun v hfree hload hopen
  have hv : v.img = s.img := (RegistersKept.frame.wake s).img
  refine ⟨fun hslot => ⟨_, exec_invalidate_of_open rfl hrun hfree hload hopen hslot, ?same, ?other, ?done, ?error⟩, ?write⟩
  case same => rw [slot_nvEnd, slot_modSlotB_same, ← hv]; rfl
  case other =>
    have hkept := slot_modSlotB_other (v.stir.modImg fun y => { y with nvSlot := slot }) (slot == 2) fun f => { f with commit := 0 }
    rw [slot_nvEnd, bne, hkept, ← hv]
    rfl
  case done => rw [nvEnd_img]
  case error =>
    rw [nvEnd_img, ← hv]
    cases slot == 2 <;> exact Bool.or_false _
  case write =>
    intro host hslot t b k hcopy hengine hvalid
    have hexec : ∀ {how}, how ≠ .mismatch → exec (.nvWrite slot host how) s = .next (t.writeSlot k b how) := fun hhow => by
      have h := exec_nvWrite_of_checked rfl hrun hfree hload hopen hslot rfl hcopy hengine hvalid hhow
      rw [h, show t.img.target slot = k from by rw [show k = s.img.target slot from rfl, ← hv]; rfl]
    have hslots : ∀ c, t.img.slot c = s.img.slot c := fun c => by rw [← hv]; rfl
    refine ⟨⟨_, hexec (by decide), ?ok⟩, ⟨_, hexec (by decide), ?failed⟩, ⟨_, hexec (by decide), ?running⟩⟩
    case ok =>
      have h := writeSlot_ok t k b
      rw [State.nextGen, hslots, show t.img.image = s.img.image from by rw [← hv]; rfl] at h
      exact h
    case failed =>
      have h := writeSlot_failed t k b
      rwa [hslots] at h
    case running =>
      have h := writeSlot_running t k b
      rwa [hslots] at h

end Sys2Proof.Machine
end

section
/-! Frames of the security complex and of loads (R272 to R274, R282, R356, R357, R360, R362 to R365): through a frame that lets pass changes of
the complex which keep the epoch, and changes of the image registers. -/

namespace Sys2Proof.Machine

/-- The relation lets pass any change of the security complex that counts no epoch. -/
def PassesSecurity (R : State → State → Prop) : Prop := ∀ (s : State) c, c.epoch = s.sec.epoch → R s { s with sec := c }

/-- The relation lets pass any change of the image registers. -/
def PassesImage (R : State → State → Prop) : Prop := ∀ (s : State) y, R s { s with img := y }

/-! ### Samples of the entropy source (R363) -/

/-- A sample changes the continuous tests alone: it counts no epoch and installs no key. -/
theorem sample_keeps (c : SecState) (x : Nat) : (c.sample x).1.epoch = c.epoch ∧ (c.sample x).1.ownerKey = c.ownerKey := by
  unfold SecState.sample
  extract_lets rep anew first same
  split <;> exact ⟨rfl, rfl⟩

theorem samples_keep (l : List Nat) (c : SecState) (n : Nat) :
    (SecState.samples l c n).1.epoch = c.epoch ∧ (SecState.samples l c n).1.ownerKey = c.ownerKey := by
  induction l generalizing c n with
  | nil => exact ⟨rfl, rfl⟩
  | cons x l ih =>
    obtain ⟨hepoch, hkey⟩ := sample_keeps c x
    unfold SecState.samples
    dsimp only
    rw [← hepoch, ← hkey]
    split <;> exact ih ..

namespace Frame

variable {R : State → State → Prop} (h : Frame R)
include h

section
variable (hs : PassesSecurity R) (s : State)
include hs

/-! ### The public-key engine -/

omit h in
theorem modSec {f : SecState → SecState} (hf : (f s.sec).epoch = s.sec.epoch) : R s (s.modSec f) := hs s _ hf

theorem pkEnd (code : Nat) : R s (s.pkEnd code) := h.trans (modSec hs s rfl) (h.report ..)

theorem pkServe (op : Nat) (r : PkReq) : R s (s.pkServe op r) := by
  unfold State.pkServe
  extract_lets user drawn curve
  have hdrawn : R s drawn.2 := by
    unfold drawn
    split
    · exact h.draw s
    · exact h.refl s
  exact ite (h.pkEnd hs s _) (ite (h.pkEnd hs s _) (h.trans hdrawn (modSec hs _ rfl)))

theorem engineServed (code : Nat) : R s (s.engineServed code) :=
  ite (h.trans (t := s.engineMismatch) (modSec hs s rfl) (h.report ..)) (h.refl s)

theorem installOwner : R s s.installOwner := by
  unfold State.installOwner
  extract_lets c code installed
  have hinstalled : R s installed := modSec hs s rfl
  exact ite hinstalled (h.trans hinstalled (h.report ..))

theorem heldInstalls : R s s.heldInstalls := ite (h.installOwner hs s) (h.refl s)

/-! ### The wipe -/

theorem wipeEnd : R s s.wipeEnd := by
  unfold State.wipeEnd
  refine ite (h.refl s) ?_
  extract_lets t
  have ht : R s t := modSec hs s rfl
  split
  · exact h.trans ht (h.trans (modSec hs t rfl) (h.pkServe hs _ _ _))
  · exact ht

theorem loadMicrocode : R s s.loadMicrocode := by
  unfold State.loadMicrocode
  extract_lets ok loaded
  have hloaded : R s loaded := modSec hs s rfl
  exact ite hloaded (h.trans hloaded (h.record ..))

theorem entropyFail : R s s.entropyFail := by
  unfold State.entropyFail
  exact h.trans (modSec hs s rfl) (h.record ..)

theorem startSource (l : List Nat) : R s (s.startSource l) := by
  unfold State.startSource
  extract_lets c r sampled
  have hsampled : R s sampled := modSec hs s (samples_keep ..).1
  exact ite hsampled (h.trans hsampled (h.each (fun _ x => h.entropyFail hs x) _ _))

theorem instantiate (secFails noiseFails due : Bool) : R s (s.instantiate secFails noiseFails due) := by
  unfold State.instantiate
  extract_lets serial a b c d
  have hd : R s d.2 := h.untouched {}
  exact h.trans hd (modSec hs _ rfl)

theorem closeSessions : R s s.closeSessions :=
  h.trans (modSec hs s (f := fun c => { c with sessions := [], ideKeys := [], ideUse := [] }) rfl) (h.untouched {})

omit hs in
theorem allTdiError : R s s.allTdiError := ite (h.refl s) (h.each (fun _ _ => h.modFn ..) _ s)

theorem secWipe (change : Bool) (samples : List Nat) : R s (s.secWipe change samples) := by
  unfold State.secWipe
  extract_lets closed wiped loaded
  have hclosed : R s closed := ite (h.trans (h.closeSessions hs s) (h.allTdiError _)) (h.refl s)
  have hloaded : R closed loaded := h.trans (modSec hs closed rfl) (h.loadMicrocode hs _)
  refine h.trans (h.trans hclosed hloaded) (ite ?_ (h.refl loaded))
  exact h.trans (h.startSource hs loaded samples) (h.instantiate hs _ _ _ _)

end

/-! ### Image registers -/

section
variable (hi : PassesImage R) (s : State)
include hi

omit h in
theorem modImg (f : ImageState → ImageState) : R s (s.modImg f) := hi ..

theorem rejected (r : Rejection) : R s (s.rejected r) := by
  unfold State.rejected
  extract_lets d
  refine h.trans (t := d.2) ?_ (modImg hi ..)
  unfold d
  split
  · exact h.draw s
  · exact h.refl s

omit h in
theorem loadEnded (code : Nat) : R s (s.loadEnded code) := modImg hi s _

omit hi in
theorem candidateFailed (source code : Nat) : R s (s.candidateFailed source code) := h.record ..

theorem nvEnd (code : Nat) : R s (s.nvEnd code) := h.trans (modImg hi s _) (h.evAdmin _)

theorem stopNv (code : Nat) : R s (s.stopNv code) := ite (h.trans (modImg hi s _) (h.nvEnd hi _ code)) (h.refl s)

/-! ### Loads -/

variable (hp : PassesParts R)
include hp

theorem removeStructure : R s s.removeStructure := by
  unfold State.removeStructure
  exact h.trans (h.each (fun p x => h.dropPart x hp p) _ s) (modImg hi _ _)

/-- An installation, after the staging ways have changed (R231, R273). -/
theorem install (hw : ∀ x d w, R x (x.setWays d w)) (x : Image) (places : List Place) (keep : Nat → Bool) (source : Nat) :
    R s (s.install x places keep source) := by
  unfold State.install
  extract_lets same counted staged up linked
  have hstaged : R s staged := h.trans (modImg hi s _) (h.trans (hw ..) (hw ..))
  have hup : R staged up := h.each (fun p y => ite (h.refl y) (ite (h.bringUp y hp x p _) (h.dropPart y hp p))) _ _
  have hlinked : R up linked := ite (h.refl up) (h.setFabric ..)
  exact h.trans (h.trans hstaged hup) (h.trans hlinked (h.setPolicy ..))

variable (hm : PassesMemory R)
include hm

theorem bring (x : Image) (places : List Place) (source : Nat) (how : LoadEnd) : R s (s.bring x places source how).1 := by
  unfold State.bring
  split
  · exact h.refl s
  · extract_lets keep torn
    have htorn : R s torn := h.tearOthers s hp hm keep
    clear_value torn
    split
    · exact htorn
    · split
      · exact htorn
      · split
        · dsimp only
          exact h.trans htorn (modImg hi torn _)
        · exact h.trans htorn (h.install hi torn hp (fun y d w => h.setWays y hm d w) x places keep source)

variable (hs : PassesSecurity R)
include hs

theorem tryLoad (source : Nat) (host : List Byte) (how : LoadEnd) : R s (s.tryLoad source host how).1 := by
  unfold State.tryLoad
  split
  · exact h.refl s
  · split
    · dsimp only
      exact h.engineServed hs s _
    · split
      · split
        · exact h.rejected hi s _
        · exact h.bring hi s hp hm _ _ _ _
      · extract_lets c
        split
        · exact h.rejected hi s _
        · split
          · exact h.refl s
          · split
            · exact h.rejected hi s _
            · split
              · exact h.engineServed hs s _
              · exact h.bring hi s hp hm _ _ _ _

theorem trySlots (l : List Bool) (mismatch : Bool) : R s (s.trySlots l mismatch).1 := by
  induction l generalizing s mismatch with
  | nil => exact h.refl s
  | cons b l ih =>
    unfold State.trySlots
    extract_lets t u
    have hu : R s u := h.trans (h.tryLoad hi s hp hm hs _ _ _) (loadEnded hi _ _)
    split
    · exact hu
    · exact h.trans hu (h.trans (h.candidateFailed ..) (ih ..))

theorem selectImage (i : SelectIn) : R s (s.selectImage i) := by
  unfold State.selectImage
  extract_lets l t f u loc
  have ht : R s t.1 := h.trySlots hi s hp hm hs l i.mismatch
  have hf : R t.1 f.1 := by
    unfold f
    split
    · exact h.tryLoad hi _ hp hm hs _ _ _
    · exact h.rejected hi _ _
  have hu : R s u := h.trans ht (h.trans hf (loadEnded hi _ _))
  refine ite (h.refl s) (ite ht (ite hu (h.trans hu ?_)))
  exact h.trans (h.trans (h.candidateFailed ..) (h.record ..)) (h.fatalStop _ hp hm _)

end

end Frame

theorem ImagesKept.passesSecurity : PassesSecurity ImagesKept := fun _ _ _ => {}

theorem SecurityKept.passesImage : PassesImage SecurityKept := fun _ _ => {}

theorem StandingKept.passesSecurity : PassesSecurity StandingKept := fun _ _ _ => .of_parts rfl
theorem StandingKept.passesImage : PassesImage StandingKept := fun _ _ => .of_parts rfl

theorem OwnerKept.passesSecurity : PassesSecurity OwnerKept := fun _ _ hc => { epoch := hc }
theorem OwnerKept.passesImage : PassesImage OwnerKept := fun _ _ => {}

end Sys2Proof.Machine
end

section
/-! What a change of structure leaves in each partition (R257, R273, R283), and the blank memory that a scrub leaves (R221, R226, R286). -/

namespace Sys2Proof.Machine

section
variable (s : State)

/-! ### PART_STATE and the loops over partitions -/

theorem parts_evPart (n : Nat) : (s.evPart n).parts = s.parts := by
  obtain ⟨x, hx⟩ := evPart_frame s n
  rw [hx]

theorem part_setPartState (p st p' : Nat) :
    (s.setPartState p st).part p' = if p' = p then { s.part p with state := st } else s.part p' := by
  unfold State.setPartState
  split
  · next h =>
    split
    · next hp => rw [hp, ← h]
    · rfl
  · rw [State.part, parts_evPart, parts_evPart]
    exact State.modPart_part ..

theorem parts_freeSlots (t n : Nat) : (s.freeSlots t n).parts = s.parts :=
  each_keeps (fun x => x.parts = s.parts) _ rfl fun _ hx _ _ => hx

/-- A loop over the partitions, whose step for each leaves every other as it is: what it leaves of partition p. -/
theorem part_each {f : Nat → State → State} (hf : ∀ p x p', p' ≠ p → (f p x).part p' = x.part p') {n p : Nat} (hp : p < n) :
    ∃ x, (s.each (upTo n) f).part p = (f p x).part p := by
  induction n with
  | zero => omega
  | succ n ih =>
    have hlast : s.each (upTo (n + 1)) f = f n (s.each (upTo n) f) := by
      simp only [State.each, upTo, List.range_succ, List.foldl_append, List.foldl_cons, List.foldl_nil]
    by_cases h : p = n
    · exact ⟨_, by rw [hlast, h]⟩
    · obtain ⟨x, hx⟩ := ih (by omega)
      exact ⟨x, by rw [hlast, hf _ _ _ h, hx]⟩

/-- A loop whose every step changes nothing changes nothing. -/
theorem each_eq_self {f : Nat → State → State} (l : List Nat) (hf : ∀ i ∈ l, f i s = s) : s.each l f = s :=
  each_keeps (fun x => x = s) l rfl fun _ hx i hi => by rw [hx, hf i hi]

/-! ### Partitions brought up and dropped -/

theorem part_dropPart_other {p p' : Nat} (h : p' ≠ p) : (s.dropPart p).part p' = s.part p' := by
  rw [State.dropPart, part_setPartState, if_neg h, State.modPart_part, if_neg h]

theorem part_dropPart_self (p : Nat) : ((s.dropPart p).part p).state = 0 ∧ ((s.dropPart p).part p).tiles = 0 := by
  rw [State.dropPart, part_setPartState, if_pos rfl, State.modPart_part, if_pos rfl]
  exact ⟨rfl, rfl⟩

variable (x : Image) (pl : Place)

theorem part_bringUp_other {p p' : Nat} (h : p' ≠ p) : (s.bringUp x p pl).part p' = s.part p' := by
  rw [State.bringUp, part_setPartState, if_neg h, State.part, parts_freeSlots]
  exact (State.modPart_part ..).trans (if_neg h)

/-- A partition that a load brings up has its shape, no package and a fresh ledger (R257). -/
theorem part_bringUp_self (p : Nat) :
    ((s.bringUp x p pl).part p).standing = (1, 64 / x.m, p * (8 / x.m), pl.stks, []) ∧
      ((s.bringUp x p pl).part p).ledger = freshLedger (x.sub p).credits (x.sub p).ringBytes pl.spillPages (64 / x.m) := by
  have hfree : ∀ y : State, ∀ t n, (y.freeSlots t n).part p = y.part p := fun y t n => by
    rw [State.part, parts_freeSlots]
    rfl
  rw [State.bringUp, part_setPartState, if_pos rfl, hfree, State.modPart_part, if_pos rfl]
  exact ⟨rfl, rfl⟩

/-- Without a structure every partition reads 0 and has no tiles (R283). -/
theorem part_removeStructure {p : Nat} (hp : p < 8) : (s.removeStructure.part p).state = 0 ∧ (s.removeStructure.part p).tiles = 0 := by
  unfold State.removeStructure
  extract_lets dropped
  obtain ⟨y, hy⟩ : ∃ y : State, dropped.part p = (y.dropPart p).part p := part_each s (fun _ y _ h => part_dropPart_other y h) hp
  clear_value dropped
  change (dropped.part p).state = 0 ∧ (dropped.part p).tiles = 0
  rw [hy]
  exact part_dropPart_self y p

end

/-! ### Blank memory -/

/-- Every visible byte is zero, no visible line is poisoned, and no poisoned copy stands under a cached line. -/
structure Blank (s : State) : Prop where
  mem : ∀ a, s.isWithdrawn (unitKey a) = false → memByte s.mem a = 0#8
  poison : ∀ a, s.isWithdrawn (unitKey a) = false → smGet 0 s.poison a = 0
  under : ∀ l, smGet 0 s.memc.under l = 0

/-- Blank memory stays blank. -/
def BlankKept (s u : State) : Prop := Blank s → Blank u

namespace BlankKept

theorem trans {s t u : State} (h : BlankKept s t) (h' : BlankKept t u) : BlankKept s u := fun hs => h' (h hs)

theorem of_eq {s u : State} (hmem : u.mem = s.mem) (hpoison : u.poison = s.poison) (hunder : u.memc.under = s.memc.under)
    (hwithdrawn : u.withdrawn = s.withdrawn) : BlankKept s u := fun hs => by
  have hu : ∀ k, u.isWithdrawn k = s.isWithdrawn k := fun k => by rw [State.isWithdrawn, State.isWithdrawn, hwithdrawn]
  exact ⟨fun a ha => by rw [hmem, hs.mem a (by rw [← hu, ha])], fun a ha => by rw [hpoison, hs.poison a (by rw [← hu, ha])],
    fun l => by rw [hunder, hs.under]⟩

/-- Entries taken out of memory and of the poison leave blank what was blank. -/
theorem zeroRange (s : State) (a n : Nat) : BlankKept s (s.zeroRange a n) := by
  unfold State.zeroRange
  extract_lets l gone m zeroed
  have hzeroed : BlankKept s zeroed := fun hs => by
    refine ⟨fun b hb => ?_, fun b hb => ?_, hs.under⟩
    · have h := smGet_filter_key 0#8 s.mem (fun k => !(decide (a ≤ k) && decide (k < a + n)) || !gone (lineOf k)) b
      refine Eq.trans h ?_
      split
      · exact hs.mem b hb
      · rfl
    · have h := smGet_filter_key 0 s.poison (fun k => !(decide (a ≤ k) && decide (k < a + n)) || !gone k) b
      refine Eq.trans h ?_
      split
      · exact hs.poison b hb
      · rfl
  split
  · exact hzeroed.trans (.of_eq rfl rfl rfl rfl)
  · exact hzeroed

theorem frame : Frame BlankKept where
  refl _ := id
  trans := trans
  untouched h := .of_eq h.mem h.poison h.under h.withdrawn
  standing _ := .of_eq rfl rfl rfl rfl
  zeros := zeroRange _

theorem passesParts : PassesParts BlankKept := fun _ _ _ => .of_eq rfl rfl rfl rfl
theorem passesSecurity : PassesSecurity BlankKept := fun _ _ _ => .of_eq rfl rfl rfl rfl
theorem passesImage : PassesImage BlankKept := fun _ _ => .of_eq rfl rfl rfl rfl

variable (s : State)

/-- A line that leaves its cache takes no poison with it: none stands under a line of blank memory (R211). -/
theorem evict (a : Nat) : BlankKept s (s.evict a) := fun hs => by
  unfold State.evict
  extract_lets l u kept
  have hkept : kept = s := if_neg fun h => h.1 (hs.under l)
  refine ⟨hkept ▸ hs.mem, hkept ▸ hs.poison, fun k => ?_⟩
  rw [hkept, smGet_smSet]
  split
  · rfl
  · exact hs.under k

theorem setWays (d w : Nat) : BlankKept s (s.setWays d w) := by
  unfold State.setWays
  extract_lets changed
  have hchanged : BlankKept s changed := .of_eq rfl rfl rfl rfl
  exact Frame.ite (frame.refl s) (hchanged.trans (frame.foldl (fun x _ => evict x _) _ changed))

end BlankKept

/-- A mass scrub leaves memory blank (R221, R286). -/
theorem blank_scrubMemory (s : State) (l : List Nat) : Blank (s.scrubMemory l) := by
  unfold State.scrubMemory
  extract_lets w
  refine ⟨fun a ha => ?_, fun a ha => ?_, fun a => ?_⟩
  · refine Eq.trans (smGet_filter_key 0#8 w.mem (fun k => w.isWithdrawn (unitKey k)) a) (if_neg ?_)
    exact Bool.eq_false_iff.mp ha
  · refine Eq.trans (smGet_filter_key 0 w.poison (fun k => w.isWithdrawn (unitKey k)) a) (if_neg ?_)
    exact Bool.eq_false_iff.mp ha
  · exact smGet_filter_key 0 w.memc.under (fun _ => false) a

/-! ### A module without a running partition -/

/-- No partition runs or is torn down. -/
def Down (s : State) : Prop := ∀ p, p < 8 → (s.part p).state ≠ 1 ∧ (s.part p).state ≠ 2

theorem Down.of_standingKept {s u : State} (h : StandingKept s u) (hs : Down s) : Down u := fun p hp => by
  obtain ⟨hstate, -⟩ := h.fields p
  rw [hstate]
  exact hs p hp

/-- A module-fatal fault then tears nothing down (R404). -/
theorem blankKept_fatalStop {s : State} (hs : Down s) (code : Nat) : BlankKept s (s.fatalStop code) := by
  unfold State.fatalStop
  extract_lets ras marked left
  have hblank : BlankKept s (left.postAll (fun _ => true) code) := .trans (t := left)
    (.trans (t := marked) (.of_eq rfl rfl rfl rfl) (BlankKept.frame.leaveJob marked)) (BlankKept.frame.postAll left _ code)
  have hposted : StandingKept marked (left.postAll (fun _ => true) code) :=
    (StandingKept.frame.leaveJob marked).trans (StandingKept.frame.postAll ..)
  have hdown : Down (left.postAll (fun _ => true) code) := .of_standingKept hposted hs
  split
  · exact id
  · intro h
    refine (each_keeps (fun y => Blank y ∧ Down y) _ ⟨hblank h, hdown⟩ fun y hy p hp => ?_).1
    split
    · exact hy
    · split
      · next hrunning =>
        obtain ⟨hup, htorn⟩ := hy.2 p (List.mem_range.mp hp)
        exact absurd hrunning (by simp only [hup, htorn, or_self, not_false_eq_true])
      · refine ⟨BlankKept.frame.setPartState y BlankKept.passesParts p 4 hy.1, fun p' hp' => ?_⟩
        rw [part_setPartState]
        split
        · exact ⟨(by decide : 4 ≠ 1), (by decide : 4 ≠ 2)⟩
        · exact hy.2 p' hp'

/-- No partition is torn down where none is up. -/
theorem tearOthers_of_down {s : State} (hs : Down s) (keep : Nat → Bool) : s.tearOthers keep = s := by
  refine each_eq_self s _ fun p hp => if_neg fun h => ?_
  exact (hs p (List.mem_range.mp hp)).1 (beq_iff_eq.mp h.1)

/-- What a load leaves of such a module: blank memory, and unless it succeeded every partition as it was. -/
structure LoadKept (s : State) (r : State × Nat) : Prop where
  blank : BlankKept s r.1
  standing : r.2 ≠ 0 → StandingKept s r.1

section
variable {s : State} (hs : Down s)

theorem loadKept_of_frames {u : State} {code : Nat} (hblank : BlankKept s u) (hstanding : StandingKept s u) : LoadKept s (u, code) :=
  ⟨hblank, fun _ => hstanding⟩

theorem loadKept_rejected (r : Rejection) (code : Nat) : LoadKept s (s.rejected r, code) :=
  loadKept_of_frames (BlankKept.frame.rejected BlankKept.passesImage s r) (StandingKept.frame.rejected StandingKept.passesImage s r)

theorem loadKept_engineServed (code code' : Nat) : LoadKept s (s.engineServed code, code') :=
  loadKept_of_frames (BlankKept.frame.engineServed BlankKept.passesSecurity s code)
    (StandingKept.frame.engineServed StandingKept.passesSecurity s code)

theorem loadKept_refl (code : Nat) : LoadKept s (s, code) := loadKept_of_frames (BlankKept.frame.refl s) (StandingKept.frame.refl s)

include hs

theorem bring_of_down (x : Image) (places : List Place) (source : Nat) (how : LoadEnd) : LoadKept s (s.bring x places source how) := by
  unfold State.bring
  simp only [tearOthers_of_down hs]
  split
  · exact loadKept_refl _
  · split
    · exact loadKept_refl _
    · split
      · exact loadKept_of_frames (.of_eq rfl rfl rfl rfl) (.of_parts rfl)
      · refine ⟨?_, fun h => absurd rfl h⟩
        exact BlankKept.frame.install BlankKept.passesImage s BlankKept.passesParts BlankKept.setWays x places _ source

theorem tryLoad_of_down (source : Nat) (host : List Byte) (how : LoadEnd) : LoadKept s (s.tryLoad source host how) := by
  unfold State.tryLoad
  split
  · exact loadKept_refl _
  · split
    · exact loadKept_engineServed ..
    · split
      · split
        · exact loadKept_rejected ..
        · exact bring_of_down hs ..
      · extract_lets c
        split
        · exact loadKept_rejected ..
        · split
          · exact loadKept_refl _
          · split
            · exact loadKept_rejected ..
            · split
              · exact loadKept_engineServed ..
              · exact bring_of_down hs ..

omit hs in
theorem trySlots_of_down (l : List Bool) (mismatch : Bool) (hs : Down s) : BlankKept s (s.trySlots l mismatch).1 ∧
    ((s.trySlots l mismatch).2 = false → Down (s.trySlots l mismatch).1) := by
  induction l generalizing s mismatch with
  | nil => exact ⟨id, fun _ => hs⟩
  | cons b l ih =>
    unfold State.trySlots
    extract_lets t u
    obtain ⟨hblank, hstanding⟩ := tryLoad_of_down hs (if b then 2 else 1) [] (if mismatch then .mismatch else .whole)
    have hu : BlankKept s u := hblank.trans (Frame.loadEnded BlankKept.passesImage t.1 t.2)
    split
    · exact ⟨hu, fun h => Bool.noConfusion (h : true = false)⟩
    · next hcode =>
      have hkept : StandingKept s (u.candidateFailed (if b then 3 else 2) t.2) := .trans (t := u)
        ((hstanding hcode).trans (Frame.loadEnded StandingKept.passesImage t.1 t.2)) (StandingKept.frame.candidateFailed ..)
      obtain ⟨hrest, hdown⟩ := ih false (.of_standingKept hkept hs)
      exact ⟨(hu.trans (BlankKept.frame.candidateFailed _ _ _)).trans hrest, hdown⟩

/-- The start-up selection leaves blank memory blank: a load zeroes what it touches, and its failure tears nothing down (R282). -/
theorem selectImage_of_down (i : SelectIn) : BlankKept s (s.selectImage i) := by
  unfold State.selectImage
  extract_lets l t f u loc
  obtain ⟨hslots, hdown⟩ : BlankKept s t.1 ∧ (t.2 = false → Down t.1) := trySlots_of_down l i.mismatch hs
  split
  · exact id
  · split
    · exact hslots
    · next hnone =>
      have hnone : Down t.1 := hdown (by simpa using hnone)
      have hf : LoadKept t.1 f := by
        unfold f
        split
        · exact tryLoad_of_down hnone ..
        · exact loadKept_rejected ..
      have hu : BlankKept s u := (hslots.trans hf.blank).trans (Frame.loadEnded BlankKept.passesImage f.1 f.2)
      split
      · exact hu
      · next hcode =>
        have hkept : StandingKept t.1 ((u.candidateFailed 4 f.2).record cFactoryInvalid loc) := .trans (t := u)
          ((hf.standing hcode).trans (Frame.loadEnded StandingKept.passesImage f.1 f.2))
          ((StandingKept.frame.candidateFailed ..).trans (StandingKept.frame.record ..))
        exact (hu.trans ((BlankKept.frame.candidateFailed _ _ _).trans (BlankKept.frame.record _ _ _))).trans
          (blankKept_fatalStop (.of_standingKept hkept hnone) _)

end

end Sys2Proof.Machine
end

section
/-! Change of owner and plain scrub (R283 to R286, R371): what a request leaves as its scrub starts, and what the end of the
scrub leaves. -/

namespace Sys2Proof.Machine

/-! ### The wipe and the owner image key (R364, R365) -/

section
variable (s : State)

theorem ownerKey_loadMicrocode : s.loadMicrocode.sec.ownerKey = s.sec.ownerKey := by
  unfold State.loadMicrocode
  extract_lets ok loaded
  split
  · rfl
  · rw [(RegistersKept.frame.record loaded cPkMicrocode { block := 10 }).sec]
    rfl

theorem ownerKey_entropyFail : s.entropyFail.sec.ownerKey = s.sec.ownerKey := by
  unfold State.entropyFail
  extract_lets l stop counted
  rw [(RegistersKept.frame.record counted cEntropyFail { block := 10 }).sec]
  rfl

theorem ownerKey_startSource (l : List Nat) : (s.startSource l).sec.ownerKey = s.sec.ownerKey := by
  unfold State.startSource
  extract_lets c r sampled
  have hsampled : sampled.sec.ownerKey = s.sec.ownerKey := (samples_keep l _ 0).2
  split
  · exact hsampled
  · exact each_keeps (fun x => x.sec.ownerKey = s.sec.ownerKey) _ hsampled fun x hx _ _ => (ownerKey_entropyFail x).trans hx

/-- The wipe erases the owner image key, a plain scrub's does not. -/
theorem ownerKey_secWipe (change : Bool) (samples : List Nat) :
    (s.secWipe change samples).sec.ownerKey = if change then none else s.sec.ownerKey := by
  cases change with
  | true => exact (ownerKey_startSource _ samples).trans (ownerKey_loadMicrocode _)
  | false => exact ownerKey_loadMicrocode _

end

/-! ### The start of the scrub (R285) -/

/-- Both slots invalid, and a slot write under way stopped, for a change of owner. -/
def State.endSlots (s : State) (change : Bool) : State :=
  if change then
    ((s.stopNv cNvWriteFailed).modSlotB false fun f => { f with commit := 0 }).modSlotB true fun f => { f with commit := 0 }
  else s

/-- The structure ended. -/
def State.endStructure (s : State) : State := (s.stir.tearOthers fun _ => false).removeStructure

section
variable (s : State) (change : Bool)

theorem scrubStart_eq (samples : List Nat) : s.scrubStart change samples =
    (((s.endStructure.endSlots change).secWipe change samples).modOwner fun o =>
      { o with unitsDone := 0, unitsTotal := ((s.endStructure.endSlots change).secWipe change samples).capacityUnits }).dropLines
        fun _ => true := rfl

theorem endStructure_img : s.endStructure.img = { s.img with image := none, resultsDigest := 0, loadedFrom := 0 } := by
  have htorn : RegistersKept s.stir (s.stir.tearOthers fun _ => false) :=
    RegistersKept.frame.tearOthers s.stir RegistersKept.passesParts RegistersKept.passesMemory _
  unfold State.endStructure State.removeStructure
  generalize s.stir.tearOthers (fun _ => false) = torn at htorn
  have hdropped : RegistersKept torn (torn.each (upTo 8) fun p y => y.dropPart p) :=
    RegistersKept.frame.each (fun p y => RegistersKept.frame.dropPart y RegistersKept.passesParts p) _ torn
  extract_lets dropped
  change ({ dropped.img with image := none, resultsDigest := 0, loadedFrom := 0 } : ImageState) = _
  rw [show dropped.img = s.img from hdropped.img.trans htorn.img]

theorem endStructure_kept : SecurityKept s s.endStructure := by
  have frame := SecurityKept.frame
  have hparts := SecurityKept.passesParts
  refine frame.trans (frame.trans (frame.stir s) (frame.tearOthers s.stir hparts SecurityKept.passesMemory fun _ => false)) ?_
  exact frame.removeStructure SecurityKept.passesImage _ hparts

/-- A write that is stopped leaves the slots and the structure as they are. -/
theorem stopNv_img (code : Nat) : (s.stopNv code).img.slotA = s.img.slotA ∧ (s.stopNv code).img.slotB = s.img.slotB ∧
    (s.stopNv code).img.image = s.img.image := by
  unfold State.stopNv
  split
  · rw [nvEnd_img]
    exact ⟨rfl, rfl, rfl⟩
  · exact ⟨rfl, rfl, rfl⟩

/-- The slots of a request: both invalid after a change of owner, untouched by a plain scrub. -/
theorem endSlots_img : (s.endSlots change).img.image = s.img.image ∧
    (s.endSlots change).img.slotA = (if change then { s.img.slotA with commit := 0 } else s.img.slotA) ∧
    (s.endSlots change).img.slotB = (if change then { s.img.slotB with commit := 0 } else s.img.slotB) := by
  cases change with
  | true =>
    obtain ⟨ha, hb, himage⟩ := stopNv_img s cNvWriteFailed
    have hcommit : ∀ f g : FlashSlot, f = g → { f with commit := 0 } = { g with commit := 0 } :=
      fun _ _ h => by rw [h]
    exact ⟨himage, hcommit _ _ ha, hcommit _ _ hb⟩
  | false => exact ⟨rfl, rfl, rfl⟩

/-- Ending the slots goes through every frame that lets pass changes of the image registers. -/
theorem endSlots_frame {R : State → State → Prop} (h : Frame R) (hi : PassesImage R) : R s (s.endSlots change) :=
  Frame.ite (h.trans (h.trans (h.stopNv hi s _) (Frame.modImg hi ..)) (Frame.modImg hi ..)) (h.refl s)

/-- What a request leaves as its scrub starts (R285). -/
structure ScrubStarted (s u : State) (change : Bool) : Prop where
  owner : u.owner = { s.owner with unitsDone := 0, unitsTotal := u.owner.unitsTotal }
  image : u.img.image = none
  slotA : u.img.slotA = if change then { s.img.slotA with commit := 0 } else s.img.slotA
  slotB : u.img.slotB = if change then { s.img.slotB with commit := 0 } else s.img.slotB
  ownerKey : u.sec.ownerKey = if change then none else s.sec.ownerKey
  parts : ∀ p, p < 8 → (u.part p).tiles = 0 ∧ (u.part p).state = 0

theorem scrubStarted (samples : List Nat) : ScrubStarted s (s.scrubStart change samples) change := by
  rw [scrubStart_eq]
  have hended := endStructure_kept s
  have himg := endStructure_img s
  have hempty : ∀ p, p < 8 → (s.endStructure.part p).state = 0 ∧ (s.endStructure.part p).tiles = 0 := fun p hp =>
    part_removeStructure _ hp
  generalize s.endStructure = ended at *
  have hslots := endSlots_frame ended change SecurityKept.frame SecurityKept.passesImage
  have hslotsParts := endSlots_frame ended change StandingKept.frame StandingKept.passesImage
  obtain ⟨himage, hslotA, hslotB⟩ := endSlots_img ended change
  generalize ended.endSlots change = slots at *
  have hwiped := ImagesKept.frame.secWipe ImagesKept.passesSecurity slots change samples
  have hwipedParts := StandingKept.frame.secWipe StandingKept.passesSecurity slots change samples
  have hkey := ownerKey_secWipe slots change samples
  generalize slots.secWipe change samples = wiped at *
  have howner : wiped.owner = s.owner := hwiped.owner.trans (hslots.owner.trans hended.owner)
  rw [himg] at himage hslotA hslotB
  rw [← hwiped.img] at himage hslotA hslotB
  rw [hslots.sec.trans hended.sec] at hkey
  refine ⟨?owner, himage, hslotA, hslotB, hkey, fun p hp => ?parts⟩
  case owner =>
    change ({ wiped.owner with unitsDone := 0, unitsTotal := wiped.capacityUnits } : OwnerState) = _
    rw [howner]
    rfl
  case parts =>
    obtain ⟨hstate, htiles, -⟩ := (hslotsParts.trans hwipedParts).fields p
    exact ⟨htiles.trans (hempty p hp).2, hstate.trans (hempty p hp).1⟩

end

/-! ### Requests (R283, R284, R371) -/

section
variable {s : State} (hrun : s.fw.running ≠ 2) (hidle : s.scrubbing = false) (hgood : s.pins.pwrGood = true)
  (hload : s.img.loading = none)
include hrun hidle hgood hload

/-- A request's registers as it is recorded. -/
def OwnerState.requested (o : OwnerState) (change : Bool) : OwnerState :=
  { o with record := (if o.record.length = 4096 then [] else o.record) ++ [(if change then 0 else plainReq, unusedReq)]
           change := change, pending := true, restarts := 0 }

theorem pf0_ownerRequest_taken (change : Bool) (samples : List Nat) :
    s.pf0 (fun s => s.ownerRequest change ⟨true, samples⟩) =
      (s.wake.modOwner fun o => o.requested change).scrubStart change samples := by
  have hkept := RegistersKept.frame.wake s
  have hidle' : s.wake.scrubbing = false := by rw [State.scrubbing, State.requestRecorded, hkept.owner]; exact hidle
  rw [State.pf0, if_neg hrun, State.ownerRequest, hidle', finishLoad_of_none _ (hkept.img ▸ hload)]
  simp only [Bool.false_eq_true, if_false, hkept.pins, hgood, not_true_eq_false, or_self]
  rfl

omit hgood in
theorem pf0_ownerRequest_failed (change : Bool) (samples : List Nat) :
    s.pf0 (fun s => s.ownerRequest change ⟨false, samples⟩) =
      s.wake.modOwner fun o => { o with error := true, errCode := cNvWriteFailed } := by
  have hkept := RegistersKept.frame.wake s
  have hidle' : s.wake.scrubbing = false := by rw [State.scrubbing, State.requestRecorded, hkept.owner]; exact hidle
  rw [State.pf0, if_neg hrun, State.ownerRequest, hidle', finishLoad_of_none _ (hkept.img ▸ hload)]
  simp only [Bool.false_eq_true, if_false, not_false_eq_true, true_or, if_true]

/-- What a recorded request leaves. -/
theorem requestTaken (change : Bool) (samples : List Nat) {u : State}
    (hu : s.pf0 (fun s => s.ownerRequest change ⟨true, samples⟩) = u) :
    u.owner.pending = true ∧ u.owner.change = change ∧ u.owner.restarts = 0 ∧ u.img.image = none ∧
      u.img.slotA = (if change then { s.img.slotA with commit := 0 } else s.img.slotA) ∧
      u.img.slotB = (if change then { s.img.slotB with commit := 0 } else s.img.slotB) ∧
      u.sec.ownerKey = (if change then none else s.sec.ownerKey) ∧
      ∀ p, p < 8 → (u.part p).tiles = 0 ∧ (u.part p).state = 0 := by
  have hkept := RegistersKept.frame.wake s
  have hstarted := scrubStarted (s.wake.modOwner fun o => o.requested change) change samples
  rw [← pf0_ownerRequest_taken hrun hidle hgood hload, hu] at hstarted
  obtain ⟨howner, himage, hslotA, hslotB, hkey, hparts⟩ := hstarted
  rw [State.modOwner_img, hkept.img] at hslotA hslotB
  rw [State.modOwner_sec, hkept.sec] at hkey
  exact ⟨by rw [howner]; rfl, by rw [howner]; rfl, by rw [howner]; rfl, himage, hslotA, hslotB, hkey, hparts⟩

end

/-! ### The end of the scrub (R221, R226, R285, R286) -/

section
variable (s : State) (units : List Nat)

theorem standingKept_withdrawUnit (k u : Nat) : StandingKept s (s.withdrawUnit k u) := by
  unfold State.withdrawUnit
  extract_lets key marked
  refine Frame.ite (.of_parts rfl) ?_
  have hretired : StandingKept marked (marked.dropLines fun a => unitKey a == key).retirePages := by
    refine .trans (t := marked.dropLines fun a => unitKey a == key) (.of_parts rfl) (StandingKept.frame.each (fun p x => ?_) _ _)
    exact Frame.ite (.of_parts rfl) ((StandingKept.frame.modMsg ..).trans (StandingKept.frame.modLedger ..))
  exact .trans (t := marked) (.of_parts rfl) (hretired.trans (StandingKept.frame.record ..))

theorem registersKept_withdrawUnit (k u : Nat) : RegistersKept s (s.withdrawUnit k u) := by
  unfold State.withdrawUnit
  extract_lets key marked
  refine Frame.ite {} ?_
  have hretired : RegistersKept marked (marked.dropLines fun a => unitKey a == key).retirePages := by
    refine .trans (t := marked.dropLines fun a => unitKey a == key) {} (RegistersKept.frame.each (fun p x => ?_) _ _)
    exact Frame.ite {} ((RegistersKept.frame.modMsg ..).trans (RegistersKept.frame.modLedger ..))
  exact .trans (t := marked) {} (hretired.trans (RegistersKept.frame.record ..))

theorem standingKept_scrubMemory : StandingKept s (s.scrubMemory units) :=
  .trans (StandingKept.frame.foldl (fun x _ => standingKept_withdrawUnit x _ _) units s) (.of_parts rfl)

theorem registersKept_scrubMemory : RegistersKept s (s.scrubMemory units) :=
  .trans (RegistersKept.frame.foldl (fun x _ => registersKept_withdrawUnit x _ _) units s) {}

/-- The units that fail are withdrawn (R226). -/
theorem isWithdrawn_scrubMemory {v : Nat} (hv : v ∈ units) : (s.scrubMemory units).isWithdrawn v = true := by
  have hlist : ∀ (l : List Nat) (x : State), v ∈ l ∨ x.isWithdrawn v = true → (l.foldl (fun (x : State) u =>
      x.withdrawUnit (u / Config.unitsPerStack) (u % Config.unitsPerStack)) x).isWithdrawn v = true := fun l => by
    induction l with
    | nil => exact fun x h => h.resolve_left List.not_mem_nil
    | cons u l ih =>
      intro x h
      refine ih _ ?_
      rw [isWithdrawn_withdrawUnit, Nat.div_add_mod', Bool.or_eq_true, decide_eq_true_eq]
      rcases h with h | h
      · rcases List.mem_cons.mp h with rfl | h
        · exact .inr (.inr rfl)
        · exact .inl h
      · exact .inr (.inl h)
  exact hlist units s (.inl hv)

end

/-- The owner's registers when a scrub is done: the request has DONE, and the flag has cleared. -/
def OwnerState.scrubbed (o : OwnerState) : OwnerState :=
  { o with unitsDone := o.unitsTotal, pending := false
           record := o.record.map fun e => if e.1 ≠ unusedReq ∧ e.2 = unusedReq then (e.1, 0) else e }

section
variable {s : State} (hscrub : s.scrubbing = true) {units : List Nat}
  (hunits : units.all (fun v => decide (v < 12 * Config.unitsPerStack)) = true)

/-- Memory and dies scrubbed, the request done, the epoch counted, and the FABRIC section out of force: steps 5 and 6. -/
def State.scrubEnded (s : State) (units : List Nat) : State :=
  (((((s.scrubMemory units).scrubDies).modOwner OwnerState.scrubbed).wipeEnd.modSec fun c =>
    { c with epoch := if s.owner.change then (c.epoch + 1) % 2 ^ 64 else c.epoch }).setFabric { fabric := none })

/-- The last steps (R286): the install a scrub had held, READY, and the request's DONE with its event. -/
def State.scrubClosed (s : State) : State :=
  (({ s.heldInstalls with pins := { s.heldInstalls.pins with ready := true } } : State).ltr.modOwner fun o =>
    { o with done := true }).evAdmin

include hscrub hunits in
theorem exec_ownerChangeScrubDone_of_scrubbing (i : SelectIn) :
    exec (.ownerChangeScrubDone units i) s = .next ((s.scrubEnded units).selectImage i).scrubClosed := by
  change guarded _ _ = _
  rw [guarded_next hunits, hscrub]
  rfl

/-- READY is raised and DONE set; nothing else that a scrub decides changes, and blank memory stays blank. -/
theorem scrubClosed_kept (s : State) : s.scrubClosed.owner = { s.owner with done := true } ∧ s.scrubClosed.pins.ready = true ∧
    s.scrubClosed.withdrawn = s.withdrawn ∧ s.scrubClosed.sec.epoch = s.sec.epoch ∧ BlankKept s s.scrubClosed := by
  unfold State.scrubClosed
  have hheld := OwnerKept.frame.heldInstalls OwnerKept.passesSecurity s
  have hheldBlank := BlankKept.frame.heldInstalls BlankKept.passesSecurity s
  generalize s.heldInstalls = installed at *
  generalize hraised : ({ installed with pins := { installed.pins with ready := true } } : State) = raised
  have hltr := OwnerKept.frame.ltr raised
  have hltrBlank := BlankKept.frame.ltr raised
  generalize raised.ltr = told at *
  generalize hdone : (told.modOwner fun o => { o with done := true }) = done
  have hevent := OwnerKept.frame.evAdmin done
  have heventBlank := BlankKept.frame.evAdmin done
  refine ⟨?owner, ?ready, ?withdrawn, ?epoch, fun hs => ?blank⟩
  case owner => rw [hevent.owner, ← hdone, State.modOwner_owner, hltr.owner, ← hraised, ← hheld.owner]
  case ready => rw [hevent.pins, ← hdone, State.modOwner_pins, hltr.pins, ← hraised]
  case withdrawn => rw [hevent.withdrawn, ← hdone, State.modOwner_withdrawn, hltr.withdrawn, ← hraised, ← hheld.withdrawn]
  case epoch => rw [hevent.epoch, ← hdone, State.modOwner_sec, hltr.epoch, ← hraised, ← hheld.epoch]
  case blank =>
    have hraisedBlank : Blank raised := by
      rw [← hraised]
      exact BlankKept.of_eq (s := installed) rfl rfl rfl rfl (hheldBlank hs)
    refine heventBlank ?_
    rw [← hdone]
    exact BlankKept.of_eq (s := told) rfl rfl rfl rfl (hltrBlank hraisedBlank)

/-- What the start-up selection finds: the request done, the epoch counted, the failing units withdrawn, memory blank. -/
theorem scrubEnded_kept (s : State) (units : List Nat) : (s.scrubEnded units).owner = s.owner.scrubbed ∧
    (s.scrubEnded units).sec.epoch = (if s.owner.change then (s.sec.epoch + 1) % 2 ^ 64 else s.sec.epoch) ∧
    (∀ v, v ∈ units → (s.scrubEnded units).isWithdrawn v = true) ∧ Blank (s.scrubEnded units) ∧
    ((∀ p, p < 8 → (s.part p).state = 0) → Down (s.scrubEnded units)) := by
  have hregisters : RegistersKept s (s.scrubMemory units).scrubDies :=
    (registersKept_scrubMemory s units).trans (RegistersKept.frame.scrubDies _)
  have hstanding : StandingKept s (s.scrubMemory units).scrubDies :=
    (standingKept_scrubMemory s units).trans (StandingKept.frame.scrubDies _)
  have hblank : Blank (s.scrubMemory units).scrubDies := BlankKept.frame.scrubDies _ (blank_scrubMemory s units)
  have hwithdrawn : ∀ v, v ∈ units → (s.scrubMemory units).scrubDies.isWithdrawn v = true := fun v hv =>
    isWithdrawn_scrubMemory s units hv
  unfold State.scrubEnded
  generalize (s.scrubMemory units).scrubDies = scrubbed at *
  generalize hrequest : scrubbed.modOwner OwnerState.scrubbed = request
  have howner : request.owner = s.owner.scrubbed := by rw [← hrequest, State.modOwner_owner, hregisters.owner]
  have hsec : request.sec = s.sec := by rw [← hrequest, State.modOwner_sec, hregisters.sec]
  have hblank' : Blank request := by
    rw [← hrequest]
    exact BlankKept.of_eq (s := scrubbed) rfl rfl rfl rfl hblank
  have hstanding' : StandingKept s request := hrequest ▸ hstanding.trans (.of_parts rfl)
  have hwithdrawn' : ∀ v, v ∈ units → request.isWithdrawn v = true := hrequest ▸ hwithdrawn
  have hend := OwnerKept.frame.wipeEnd OwnerKept.passesSecurity request
  have hendBlank := BlankKept.frame.wipeEnd BlankKept.passesSecurity request
  have hendStanding := StandingKept.frame.wipeEnd StandingKept.passesSecurity request
  generalize request.wipeEnd = ended at *
  generalize hcounted : (ended.modSec fun c => { c with epoch := if s.owner.change then (c.epoch + 1) % 2 ^ 64 else c.epoch }) = counted
  have hfabric := OwnerKept.frame.setFabric counted { fabric := none }
  have hfabricBlank := BlankKept.frame.setFabric counted { fabric := none }
  have hfabricStanding := StandingKept.frame.setFabric counted { fabric := none }
  refine ⟨?owner, ?epoch, fun v hv => ?withdrawn, ?blank, fun hstate => ?down⟩
  case owner => rw [hfabric.owner, ← hcounted, State.modSec_owner, hend.owner, howner]
  case epoch => rw [hfabric.epoch, ← hcounted, State.modSec_sec, hend.epoch, hsec]
  case withdrawn =>
    rw [State.isWithdrawn, hfabric.withdrawn, ← hcounted, State.modSec_withdrawn, hend.withdrawn]
    exact hwithdrawn' v hv
  case blank =>
    refine hfabricBlank ?_
    rw [← hcounted]
    exact BlankKept.of_eq (s := ended) rfl rfl rfl rfl (hendBlank hblank')
  case down =>
    have hcounted' : StandingKept ended counted := hcounted ▸ .of_parts rfl
    refine .of_standingKept (hstanding'.trans (hendStanding.trans (hcounted'.trans hfabricStanding))) fun p hp => ?_
    rw [hstate p hp]
    exact ⟨by decide, by decide⟩

end

/-- Settles O40: a request by the steps that start its scrub; the end of one by the blank memory it leaves, which the start-up
selection keeps blank where no partition was left to tear down. -/
theorem ownerChanges : Obligations.OwnerChanges := by
  unfold Obligations.OwnerChanges
  intro s
  refine ⟨fun samples hsamples hrun hidle hgood hload => ?request, fun units i hscrub hunits => ?done⟩
  case request =>
    have hexec : ∀ change ok : Bool, (if change then exec (.change ⟨ok, samples⟩) s else exec (.scrub ⟨ok, samples⟩) s) =
        .next (s.pf0 fun s => s.ownerRequest change ⟨ok, samples⟩) := fun change ok => by
      cases change <;> exact guarded_next hsamples
    refine ⟨⟨_, hexec true true, ?change⟩, ⟨_, hexec false true, ?scrub⟩, ?failedChange, ?failedScrub⟩
    case change =>
      obtain ⟨hpending, hchange, hrestarts, himage, hslotA, hslotB, hkey, hparts⟩ :=
        requestTaken hrun hidle hgood hload true samples rfl
      refine ⟨hpending, hchange, hrestarts, himage, ?_, ?_, hkey, hparts⟩
      · rw [hslotA]; exact valid_of_commit_ne (show 0 ≠ slotCommit by decide)
      · rw [hslotB]; exact valid_of_commit_ne (show 0 ≠ slotCommit by decide)
    case scrub =>
      obtain ⟨hpending, hchange, -, himage, hslotA, hslotB, hkey, hparts⟩ := requestTaken hrun hidle hgood hload false samples rfl
      exact ⟨hpending, hchange, himage, hslotA, hslotB, hkey, hparts⟩
    case failedChange => exact (hexec true false).trans (congrArg _ (pf0_ownerRequest_failed hrun hidle hload true samples))
    case failedScrub => exact (hexec false false).trans (congrArg _ (pf0_ownerRequest_failed hrun hidle hload false samples))
  case done =>
    obtain ⟨howner, hepoch, hwithdrawn, hblank, hdown⟩ := scrubEnded_kept s units
    have hselect := OwnerKept.frame.selectImage OwnerKept.passesImage (s.scrubEnded units) OwnerKept.passesParts OwnerKept.passesMemory
      OwnerKept.passesSecurity i
    obtain ⟨hdone, hready, hclosed, hlast, hclosedBlank⟩ := scrubClosed_kept ((s.scrubEnded units).selectImage i)
    rw [hselect.owner, howner] at hdone
    refine ⟨_, exec_ownerChangeScrubDone_of_scrubbing hscrub hunits i, ?pending, fun hstate a ha => ?memory, ?done, hready, ?units,
      fun v hv => ?failed, ?epoch⟩
    case pending => rw [hdone]; rfl
    case memory =>
      have hzero := hclosedBlank (selectImage_of_down (hdown hstate) i hblank)
      exact ⟨hzero.mem a ha, hzero.poison a ha⟩
    case done => rw [hdone]
    case units => rw [hdone]; rfl
    case failed =>
      have hv' := hwithdrawn v hv
      rwa [State.isWithdrawn, ← hselect.withdrawn, ← hclosed] at hv'
    case epoch => rw [hlast, hselect.epoch, hepoch]

end Sys2Proof.Machine
end

section
/-! The checks of a candidate (R269, R272): they read neither the power controller nor the image registers beyond the slots. -/

namespace Sys2Proof.Machine

/-- A state with other registers of the power controller and of the images. -/
def State.withRegisters (s : State) (w : PwrState) (y : ImageState) : State := { s with pwr := w, img := y }

section
variable (s : State) (w : PwrState) (y : ImageState)

theorem findRun_withRegisters (k size n u run : Nat) :
    (s.withRegisters w y).findRun k size n u run = s.findRun k size n u run := by
  induction n generalizing u run with
  | zero => rfl
  | succ n ih =>
    unfold State.findRun
    simp only [ih]
    rfl

theorem placeOf_withRegisters (m p : Nat) (e : PartEntry) : (s.withRegisters w y).placeOf m p e = s.placeOf m p e := by
  unfold State.placeOf State.placeAuto
  simp only [findRun_withRegisters]
  rfl

theorem places_withRegisters (d : List Byte) : (s.withRegisters w y).places d = s.places d := by
  unfold State.places
  simp only [placeOf_withRegisters]

theorem checkPlaces_withRegisters (d : List Byte) : (s.withRegisters w y).checkPlaces d = s.checkPlaces d := by
  unfold State.checkPlaces
  rw [places_withRegisters]
  rfl

theorem validate_withRegisters (b : List Byte) (nv : Bool) : (s.withRegisters w y).validate b nv = s.validate b nv := by
  unfold State.validate
  simp only [places_withRegisters, checkPlaces_withRegisters]
  rfl

end

/-! ### The end of a load (R287) -/

section
variable (s : State)

/-- The end of a load changes neither the partitions nor memory. -/
theorem loadOver_kept (code : Nat) : (s.loadOver code).parts = s.parts ∧ (s.loadOver code).mem = s.mem := by
  unfold State.loadOver
  generalize hended : (s.loadEnded code).modImg (fun y => { y with busy := false, held := none, loading := none }) = ended
  obtain ⟨x, hx⟩ := evAdmin_frame ended
  rw [hx, ← hended]
  exact ⟨rfl, rfl⟩

/-- A load that is over sets DONE, with the code of a failure. -/
theorem loadOver_img (code : Nat) : (s.loadOver code).img = { s.img with
    done := true, error := code != 0, errCode := if code = 0 then s.img.errCode else code
    busy := false, held := none, loading := none } :=
  (RegistersKept.frame.evAdmin _).img

/-! ### The checks of a candidate (R269, R357, R360) -/

/-- The state in which a load runs its checks: BUSY. -/
def State.underway (s : State) : State := s.stir.modImg fun y => { y with busy := true, held := none, loading := none }

/-- The same, for a LOAD that names its source. -/
def State.loadStart (s : State) (source : Nat) : State := (s.modImg fun y => { y with source := source }).underway

variable (source : Nat) (host : List Byte)

theorem validate_loadStart (b : List Byte) (nv : Bool) :
    (s.loadStart source).validate b nv = (s.modImg fun y => { y with source := source }).validate b nv :=
  validate_withRegisters (s.modImg fun y => { y with source := source }) _ _ b nv

theorem copySource_loadStart :
    (s.loadStart source).copySource source host = (s.modImg fun y => { y with source := source }).copySource source host := rfl

section
variable {s} {b : List Byte} {nv mismatch : Bool} {r : Rejection}

/-- Checks that reach the signature engine, or pass it by, end as it ends. -/
theorem checked_of_reached
    (hreached : s.validate b nv = none ∨ ∃ r, s.validate b nv = some r ∧ r.reason ≠ 19 ∧ r.reason ≠ 20 ∧ r.reason ≠ 21) :
    s.checked b nv mismatch = if s.sec.engineCode ≠ 0 then (none, s.sec.engineCode)
      else if mismatch then (none, cPkMismatch) else (s.validate b nv, 0) := by
  unfold State.checked
  rcases hreached with hvalid | ⟨r, hvalid, h19, h20, h21⟩
  · rw [hvalid]
    rfl
  · rw [hvalid]
    simp only [beq_eq_false_iff_ne.mpr h19, beq_eq_false_iff_ne.mpr h20, beq_eq_false_iff_ne.mpr h21, Bool.or_self,
      Bool.false_and, Bool.false_eq_true, if_false]

theorem checked_of_valid (hvalid : s.validate b nv = none) (hengine : s.sec.engineCode = 0) :
    s.checked b nv false = (none, 0) := by
  rw [checked_of_reached (.inl hvalid), hengine, hvalid]
  rfl

/-- A check that fails is reported where the engine served it, or where the wrong serial number came before the engine. -/
theorem checked_of_rejected (hvalid : s.validate b nv = some r)
    (hserved : (s.sec.engineCode = 0 ∧ mismatch = false) ∨ r.reason = 20) : s.checked b nv mismatch = (some r, 0) := by
  rcases hserved with ⟨hengine, rfl⟩ | hserial
  · simp only [State.checked, hvalid, hengine, Bool.false_eq_true, ne_eq, not_true_eq_false, if_false, ite_self]
  · simp only [State.checked, hvalid, hserial, beq_self_eq_true, Bool.or_true, Bool.true_or, if_true]

/-- The engine's code ends the checks that reach it. -/
theorem checked_of_engine (hengine : s.sec.engineCode ≠ 0 ∨ mismatch = true)
    (hreached : s.validate b nv = none ∨ ∃ r, s.validate b nv = some r ∧ r.reason ≠ 19 ∧ r.reason ≠ 20 ∧ r.reason ≠ 21) :
    s.checked b nv mismatch = (none, if s.sec.engineCode ≠ 0 then s.sec.engineCode else cPkMismatch) := by
  rw [checked_of_reached hreached]
  by_cases hzero : s.sec.engineCode = 0
  · rw [hengine.resolve_left (not_not_intro hzero), hzero]
    rfl
  · rw [if_pos hzero, if_pos hzero]

end

/-! ### The ends of an attempt (R272, R273) -/

section
variable {s} {source} {host} {how : LoadEnd} (hsource : source < 3) (hcopy : (s.copySource source host).2 = 0)
include hsource hcopy

theorem tryLoad_of_rejected {r : Rejection}
    (hchecked : s.checked (s.copySource source host).1 false (how == .mismatch) = (some r, 0)) :
    s.tryLoad source host how = (s.rejected r, cImageRejected) := by
  have hslot : source ≠ 3 := by omega
  have hcode : ¬ (0 = cImageRejected) := by decide
  simp only [State.tryLoad, hslot, false_and, if_false, hcopy, hcode, ne_eq, not_true_eq_false, hchecked]

theorem tryLoad_of_engine {code : Nat}
    (hchecked : s.checked (s.copySource source host).1 false (how == .mismatch) = (none, code)) (hfailed : code ≠ 0) :
    s.tryLoad source host how = (s.engineServed code, code) := by
  have hslot : source ≠ 3 := by omega
  have hcode : ¬ (0 = cImageRejected) := by decide
  simp only [State.tryLoad, hslot, false_and, if_false, hcopy, hcode, ne_eq, not_true_eq_false, hchecked, hfailed, not_false_eq_true,
    if_true]

end

/-- The image that a source gives, and the places of its partitions. -/
def State.candidate (s : State) (source : Nat) (host : List Byte) : Image × List Place :=
  if source = 3 then (factoryImage, [(s.placeOf 1 0 (factoryImage.parts.getD 0 {})).getD {}])
  else (parseImage (s.copySource source host).1,
    (s.places (sectionOf (s.copySource source host).1 1).1).map (fun o => o.getD {}))

/-- A candidate that passes its checks is brought up. -/
theorem tryLoad_of_valid {s : State} {source : Nat} {host : List Byte} (hsource : source < 4)
    (hvalid : source < 3 → (s.copySource source host).2 = 0 ∧ s.validate (s.copySource source host).1 false = none)
    (hfactory : source = 3 → s.factoryCheck = none) (hengine : s.sec.engineCode = 0) :
    s.tryLoad source host .whole =
      s.bring (s.candidate source host).1 (s.candidate source host).2 (source + 1) .whole := by
  have hwhole : (LoadEnd.whole == LoadEnd.mismatch) = false := rfl
  by_cases h : source = 3
  · subst h
    simp only [State.tryLoad, State.candidate, hengine, hfactory rfl, ne_eq, not_true_eq_false, and_false, if_false, if_true,
      reduceCtorEq]
  · obtain ⟨hcopy, hchecks⟩ := hvalid (by omega)
    have hcode : ¬ (0 = cImageRejected) := by decide
    simp only [State.tryLoad, State.candidate, h, false_and, if_false, hcopy, hcode, ne_eq, not_true_eq_false, hwhole,
      checked_of_valid hchecks hengine]

theorem bring_whole {s : State} {x : Image} {places : List Place} {source : Nat} {keep : Nat → Bool}
    (hkeep : (fun p => s.keeps x p) = keep) (hhalt : s.haltCode = 0) (htorn : (s.tearOthers keep).haltCode = 0) :
    s.bring x places source .whole = ((s.tearOthers keep).install x places keep source, 0) := by
  simp only [State.bring, hkeep, hhalt, htorn, ne_eq, not_true_eq_false, if_false, reduceCtorEq, or_self]

/-! ### What an attempt leaves -/

/-- An installation sets the registers of its image. -/
theorem install_img (x : Image) (places : List Place) (keep : Nat → Bool) (source : Nat) :
    (s.install x places keep source).img = { s.img with
      image := some x, resultsDigest := x.resultsDigest, loadedFrom := source, loads := (s.img.loads + 1) % 2 ^ 32, done := true } := by
  have frame := RegistersKept.frame
  unfold State.install
  extract_lets same counted staged up linked
  have hstaged : RegistersKept counted staged :=
    (frame.setWays counted RegistersKept.passesMemory ..).trans (frame.setWays _ RegistersKept.passesMemory ..)
  have hup : RegistersKept staged up :=
    frame.each (fun p y => Frame.ite (frame.refl y) (Frame.ite (frame.bringUp y RegistersKept.passesParts x p _)
      (frame.dropPart y RegistersKept.passesParts p))) _ _
  have hlinked : RegistersKept up linked := Frame.ite (frame.refl up) (frame.setFabric ..)
  exact ((hstaged.trans hup).trans (hlinked.trans (frame.setPolicy ..))).img

theorem rejected_img_of_fixed {r : Rejection} (hfixed : r.open_ = false) : s.rejected r = s.modImg fun y => { y with
    rejReason := r.reason, rejSection := r.sect, rejIndex := r.index, rejItem := r.item } := by
  simp only [State.rejected, hfixed, Bool.false_eq_true, if_false]

theorem rejected_loading (r : Rejection) : (s.rejected r).img.loading = s.img.loading := by
  unfold State.rejected
  extract_lets d
  have hd : d.2.img = s.img := by
    unfold d
    split <;> rfl
  change d.2.img.loading = s.img.loading
  rw [hd]

theorem engineServed_img (code : Nat) : (s.engineServed code).img = s.img :=
  (ImagesKept.frame.engineServed ImagesKept.passesSecurity s code).img

/-- A record that names no partition counts no event of one. -/
theorem parts_record_of_module (code : Nat) {l : ErrLoc} (hl : ¬ l.part < 8) : (s.record code l).parts = s.parts := by
  unfold State.record
  split
  · rfl
  · extract_lets e stored counted
    have hcounted : counted = stored := if_neg fun h => hl h.2
    obtain ⟨x, hx⟩ := evRecord_frame counted
    rw [hx, hcounted]

/-- The engine's record changes neither the partitions nor memory (R360). -/
theorem engineServed_kept (code : Nat) : (s.engineServed code).parts = s.parts ∧ (s.engineServed code).mem = s.mem := by
  unfold State.engineServed State.report
  split
  · split
    · exact ⟨parts_record_of_module _ _ (by decide), (EventsOnly.record ..).mem⟩
    · exact ⟨rfl, rfl⟩
  · exact ⟨rfl, rfl⟩

section
variable {s} (hload : s.img.loading = none)
include hload

theorem bring_loading (x : Image) (places : List Place) {how : LoadEnd} (hbefore : how ≠ .beforeInstall) (hduring : how ≠ .installing) :
    (s.bring x places source how).1.img.loading = none := by
  unfold State.bring
  split
  · exact hload
  · extract_lets keep torn
    have htorn : torn.img = s.img := RegistersKept.frame.tearOthers s RegistersKept.passesParts RegistersKept.passesMemory keep |>.img
    clear_value torn
    split
    · rwa [htorn]
    · split
      · rwa [htorn]
      · rw [if_neg (not_or_intro hbefore hduring)]
        dsimp only
        rw [install_img, htorn]
        exact hload

/-- An attempt that nothing interrupts is not under way. -/
theorem tryLoad_loading {how : LoadEnd} (hbefore : how ≠ .beforeInstall) (hduring : how ≠ .installing) :
    (s.tryLoad source host how).1.img.loading = none := by
  unfold State.tryLoad
  split
  · exact hload
  · split
    · rw [engineServed_img, hload]
    · split
      · split
        · rw [rejected_loading, hload]
        · exact bring_loading _ hload _ _ hbefore hduring
      · extract_lets c
        split
        · rw [rejected_loading, hload]
        · split
          · exact hload
          · split
            · rw [rejected_loading, hload]
            · split
              · rw [engineServed_img, hload]
              · exact bring_loading _ hload _ _ hbefore hduring

end

end

/-! ### The commands (R272) -/

section
variable {s : State} {source : Nat} {host : List Byte} {how : LoadEnd} {u : State} {code : Nat}

theorem runLoad_of_ended (htry : s.underway.tryLoad source host how = (u, code)) (hended : u.img.loading = none) :
    s.runLoad source host how = u.loadOver code := by
  have hr : (s.underway.tryLoad source host how).1.img.loading.isSome = false := by rw [htry, hended]; rfl
  have hrun : s.runLoad source host how = (s.underway.tryLoad source host how).1.loadOver (s.underway.tryLoad source host how).2 :=
    if_neg (Bool.eq_false_iff.mp hr)
  rw [hrun, htry]

theorem exec_load_of_ended (hrun : s.fw.running ≠ 2) {v : State} (hv : s.wake = v) (hsource : source < 4) (hidle : v.img.busy = false)
    (hscrub : v.scrubbing = false) (htry : (v.loadStart source).tryLoad source host how = (u, code))
    (hended : u.img.loading = none) : exec (.load source host how) s = .next (u.loadOver code) := by
  change guarded (decide (source < 4)) (s.pf0 _) = _
  have hscrub' : (v.modImg fun y => { y with source := source }).scrubbing = false := hscrub
  rw [guarded_next (decide_eq_true hsource), State.pf0, if_neg hrun, hv, hidle]
  simp only [Bool.false_eq_true, if_false, hscrub', runLoad_of_ended htry hended]

theorem exec_heldLoadStart_of_ended (hheld : s.img.held = some source) (hscrub : s.scrubbing = false)
    (htry : s.underway.tryLoad source host how = (u, code)) (hended : u.img.loading = none) :
    exec (.heldLoadStart host how) s = .next (u.loadOver code) := by
  change guarded true _ = _
  rw [guarded_next rfl, hheld]
  simp only [hscrub, Bool.false_eq_true, if_false, runLoad_of_ended htry hended]

end

end Sys2Proof.Machine
end

section
/-! The FABRIC section and the power policy of an image (R273, R309, R384): without collectives they leave each partition all but its
count of events. -/

namespace Sys2Proof.Machine

/-- State u differs from s in the partitions' counts of events alone, and its FABRIC section is the same. -/
structure LinksOnly (s u : State) : Prop extends EventsOnly s u where
  cfg : u.fab.cfg = s.fab.cfg

namespace LinksOnly

variable {s t u : State}

theorem of_eq (hmem : u.mem = s.mem) (hseqs : u.seqs = s.seqs) (hparts : u.parts = s.parts) (hcfg : u.fab.cfg = s.fab.cfg) :
    LinksOnly s u := ⟨EventsOnly.of_eq hmem hseqs hparts, hcfg⟩

theorem refl (s : State) : LinksOnly s s := of_eq rfl rfl rfl rfl

theorem trans (h : LinksOnly s t) (h' : LinksOnly t u) : LinksOnly s u :=
  ⟨h.toEventsOnly.trans h'.toEventsOnly, h'.cfg.trans h.cfg⟩

/-- A loop whose every step leaves the FABRIC section, where it names no collective. -/
theorem foldl {α : Type} {f : State → α → State} (hf : ∀ x a, x.fab.cfg.colls = [] → LinksOnly x (f x a)) (l : List α)
    (h : s.fab.cfg.colls = []) : LinksOnly s (l.foldl f s) :=
  List.foldlRecOn l f (refl s) fun x hx a _ => hx.trans (hf x a (by rw [hx.cfg, h]))

variable (s)

theorem record (code : Nat) (l : ErrLoc) : LinksOnly s (s.record code l) := by
  refine ⟨EventsOnly.record s code l, ?_⟩
  have hevent : ∀ x : State, x.evRecord.fab = x.fab := fun x => by
    obtain ⟨y, hy⟩ := evRecord_frame x
    rw [hy]
  unfold State.record
  split
  · rfl
  · rw [hevent]
    split <;> rfl

theorem sendCtl (dests : List Nat) (subtype : Nat) (fields : List Nat) : LinksOnly s (s.sendCtl dests subtype fields) := by
  refine List.foldlRecOn dests _ (refl s) fun x hx d _ => hx.trans (.trans (t := x.noteCtl d subtype fields) (of_eq rfl rfl rfl rfl) ?_)
  unfold State.routeCtl
  split
  · exact of_eq rfl rfl rfl rfl
  · exact record ..

end LinksOnly

section
variable {s : State} (hnone : s.fab.cfg.colls = [])
include hnone

theorem endColl_of_no_colls (c code : Nat) : s.endColl c code = s := by
  have hcfg : s.collCfg c = none := by rw [State.collCfg, hnone]; rfl
  rw [State.endColl, hcfg]

theorem linksOnly_abortNamed (c inst cause : Nat) : LinksOnly s (s.abortNamed c inst cause) := by
  unfold State.abortNamed
  split
  · rw [State.endAllColls, each_eq_self s _ fun c _ => endColl_of_no_colls hnone c cause]
    exact .refl s
  · extract_lets k
    split
    · rw [endColl_of_no_colls hnone]
      exact .refl s
    · split
      · exact .of_eq rfl rfl rfl rfl
      · exact .refl s

theorem linksOnly_originate (c inst cause : Nat) : LinksOnly s (s.originate c inst cause) := by
  unfold State.originate
  extract_lets f sent fab noted
  have hsent : LinksOnly s sent := .sendCtl ..
  have hnoted : LinksOnly sent noted := .of_eq rfl rfl rfl rfl
  have hkept : LinksOnly s noted := hsent.trans hnoted
  exact hkept.trans (linksOnly_abortNamed (by rw [hkept.cfg, hnone]) ..)

theorem linksOnly_unreachable (n : Nat) (x : Packet) : LinksOnly s (s.unreachable n x) := by
  unfold State.unreachable
  extract_lets recorded
  have hrecorded : LinksOnly s recorded := .record ..
  split
  · exact hrecorded
  · exact hrecorded.trans (linksOnly_originate (by rw [hrecorded.cfg, hnone]) ..)

theorem linksOnly_submit (x : Packet) : LinksOnly s (s.submit x) := by
  unfold State.submit
  split
  · exact .of_eq rfl rfl rfl rfl
  · exact linksOnly_unreachable hnone ..

theorem linksOnly_portDown (n : Nat) : LinksOnly s (s.portDown n) := by
  unfold State.portDown
  extract_lets p held down moved failedOver
  have hfailedOver : LinksOnly s failedOver := .trans (t := down) (.of_eq rfl rfl rfl rfl) (by
    unfold failedOver
    split
    · exact .record ..
    · exact .refl _)
  split
  · exact .refl s
  · exact hfailedOver.trans (.foldl (fun y x hy => linksOnly_submit hy x) held (by rw [hfailedOver.cfg, hnone]))

end

section
variable (s : State)

/-- A FABRIC section without collectives has no landing area to zero and no collective to end (R309). -/
theorem eventsOnly_setFabric {x : Image} (hnone : (x.fabric.getD {}).colls = []) : EventsOnly s (s.setFabric x) := by
  unfold State.setFabric
  extract_lets c
  have hzero : ∀ y : State, y.fab.cfg.colls = [] → y.zeroLandings = y := fun y hy => by rw [State.zeroLandings, hy]; rfl
  generalize hset : ({ s with fab := { s.fab with
      cfg := c, jobState := if c.jobId = 0 then 0 else 1, jobFreq := 0, lockLost := false, childCeil := [], childJoin := []
      sentCeil := 0, joining := false, aborts := [], colls := [] } } : State) = linked
  have hlinked : EventsOnly s linked := by rw [← hset]; exact .of_eq rfl rfl rfl
  have hcolls : linked.fab.cfg.colls = [] := by rw [← hset]; exact hnone
  have hports : LinksOnly linked (linked.each (upTo 8) fun n y => if bit c.portEn n then y else y.portDown n) := by
    refine .foldl (fun y n hy => ?_) _ hcolls
    change LinksOnly y (if bit c.portEn n then y else y.portDown n)
    split
    · exact .refl y
    · exact linksOnly_portDown hy n
  rw [hzero linked hcolls]
  exact hlinked.trans hports.toEventsOnly

theorem eventsOnly_advertise (before : Nat) : EventsOnly s (s.advertise before) := by
  unfold State.advertise
  split
  · exact .refl s
  · refine .foldl _ (fun y n => .ite ?_ (.refl y)) _ s
    exact .of_eq rfl rfl rfl

theorem eventsOnly_setPolicy (x : PowerPolicy) : EventsOnly s (s.setPolicy x) := by
  have hlimits : ∀ y : State, EventsOnly y y.newLimits := fun y => (EventsOnly.newCeilings y).trans (.of_eq rfl rfl rfl)
  have hpolicy : EventsOnly s (s.modPwr fun y => { y with policy := x, cmax := x.freqMax }) := .of_eq rfl rfl rfl
  exact (hpolicy.trans (hlimits _)).trans (eventsOnly_advertise ..)

/-! ### The partitions of an installed image (R257, R273) -/

/-- What an installation leaves of a partition that it does not keep. -/
structure Installed (u : State) (x : Image) (places : List Place) (p : Nat) : Prop where
  up : p < x.m → (u.part p).standing = (1, 64 / x.m, p * (8 / x.m), (places.getD p {}).stks, [])
  ledger : p < x.m → (x.fabric.getD {}).colls = [] →
    (u.part p).ledger = freshLedger (x.sub p).credits (x.sub p).ringBytes (places.getD p {}).spillPages (64 / x.m)
  absent : x.m ≤ p → (u.part p).state = 0 ∧ (u.part p).tiles = 0

theorem Installed.of_parts {s u : State} {x : Image} {places : List Place} {p : Nat} (h : Installed s x places p)
    (hparts : u.parts = s.parts) : Installed u x places p := by
  have hpart : u.part p = s.part p := by rw [State.part, State.part, hparts]
  exact ⟨fun hp => by rw [hpart, h.up hp], fun hp hnone => by rw [hpart, h.ledger hp hnone], fun hp => by rw [hpart]; exact h.absent hp⟩

theorem installed_install {x : Image} {places : List Place} {keep : Nat → Bool} (source : Nat) {p : Nat} (hp : p < 8)
    (hkeep : keep p = false) : Installed (s.install x places keep source) x places p := by
  unfold State.install
  extract_lets same counted staged up linked
  have hstanding : StandingKept up (linked.setPolicy x.power) :=
    .trans (Frame.ite (StandingKept.frame.refl up) (StandingKept.frame.setFabric ..)) (StandingKept.frame.setPolicy ..)
  have hevents : (x.fabric.getD {}).colls = [] → EventsOnly up (linked.setPolicy x.power) := fun hnone =>
    .trans (.ite (.refl up) (eventsOnly_setFabric up hnone)) (eventsOnly_setPolicy ..)
  obtain ⟨y, hy⟩ : ∃ y : State, up.part p =
      (if keep p then y else if p < x.m then y.bringUp x p (places.getD p {}) else y.dropPart p).part p := by
    refine part_each staged (fun i y p' hp' => ?_) hp
    split
    · rfl
    · split
      · exact part_bringUp_other y x _ hp'
      · exact part_dropPart_other y hp'
  rw [hkeep, if_neg Bool.false_ne_true] at hy
  clear_value linked up
  refine ⟨fun hup => ?up, fun hup hnone => ?ledger, fun hdown => ?absent⟩
  case up => rw [hstanding.part, hy, if_pos hup, (part_bringUp_self y x _ p).1]
  case ledger =>
    rw [(hevents hnone).part_field Part.ledger fun _ _ => rfl, hy, if_pos hup, (part_bringUp_self y x _ p).2]
  case absent =>
    obtain ⟨hstate, htiles, -⟩ := hstanding.fields p
    rw [hstate, htiles, hy, if_neg (by omega)]
    exact part_dropPart_self y p

end

end Sys2Proof.Machine
end

section
/-! Teardowns (R276, R353): the queues that the first steps flush, and the rows, slots, packages and headers that the last ones drop. -/

namespace Sys2Proof.Machine

/-- Each item of the list has what its own step gives it, where no step takes it away. -/
theorem each_establishes {Q : Nat → State → Prop} {f : Nat → State → State} (hself : ∀ i x, Q i (f i x))
    (hkeep : ∀ i j x, Q j x → Q j (f i x)) (l : List Nat) (s : State) : ∀ i ∈ l, Q i (s.each l f) := by
  induction l generalizing s with
  | nil => exact fun i hi => absurd hi List.not_mem_nil
  | cons a l ih =>
    intro i hi
    rcases List.mem_cons.mp hi with rfl | hi
    · exact each_keeps (Q i) l (hself i s) fun x hx j _ => hkeep j i x hx
    · exact ih (f a s) i hi

/-- The tiles of a list after each has changed by a function whose results all have a property. -/
theorem tile_each_modTile {Q : Tile → Prop} {f : Tile → Tile} (hf : ∀ y, Q (f y)) (l : List Nat) (s : State) :
    ∀ t ∈ l, Q ((s.each l fun t x => x.modTile t f).tile t) := by
  refine each_establishes (Q := fun t x => Q (x.tile t)) (fun t x => ?self) (fun t t' x hx => ?other) l s
  case self =>
    rw [State.modTile_tile, if_pos rfl]
    exact hf _
  case other =>
    rw [State.modTile_tile]
    split
    · exact hf _
    · exact hx

/-- What every value of a map has after a change that gives it to all of them, and the default has of itself. -/
theorem smGet_map_of {α : Type} {Q : α → Prop} {d : α} {f : α → α} (hd : Q d) (hf : ∀ x, Q (f x)) (m : SMap α) (k : Nat) :
    Q (smGet d (m.map fun e => (e.1, f e.2)) k) := by
  induction m with
  | nil => exact hd
  | cons e m ih =>
    rw [List.map_cons, smGet]
    split
    · exact hf _
    · exact ih

section
variable (s : State) (p : Nat)

theorem setPartState_kept (st : Nat) : (s.setPartState p st).seqs = s.seqs ∧ (s.setPartState p st).tiles = s.tiles ∧
    (s.setPartState p st).ras = s.ras := by
  unfold State.setPartState
  split
  · exact ⟨rfl, rfl, rfl⟩
  · obtain ⟨x, hx⟩ := evPart_frame (s.modPart p fun x => { x with state := st }) 0
    rw [hx]
    obtain ⟨y, hy⟩ := evPart_frame { (s.modPart p fun x => { x with state := st }) with host := x } (p + 1)
    rw [hy]
    exact ⟨rfl, rfl, rfl⟩

/-! ### Token queues (R113) -/

theorem partTiles_of_standingKept {s u : State} (h : StandingKept s u) (p : Nat) : u.partTiles p = s.partTiles p := by
  obtain ⟨-, htiles, -⟩ := h.fields p
  rw [State.partTiles, State.partTiles, htiles]

theorem tokq_dropTokens : ∀ t ∈ s.partTiles p, ((s.dropTokens p).tile t).tokq = [] := by
  have hflushed : ∀ t ∈ s.partTiles p, ((s.flushQueues p).tile t).tokq = [] := by
    refine each_establishes (Q := fun t x => (x.tile t).tokq = []) (fun t x => ?self) (fun t t' x hx => ?other) _ s
    case self =>
      change ((x.modTile t fun y => { y with tokq := [] }).tile t).tokq = []
      rw [State.modTile_tile, if_pos rfl]
    case other =>
      change ((x.modTile t fun y => { y with tokq := [] }).tile t').tokq = []
      rw [State.modTile_tile]
      split
      · rfl
      · exact hx
  intro t ht
  refine each_keeps (fun x => (x.tile t).tokq = []) _ (hflushed t ht) fun x hx t' _ => ?_
  rw [State.modTile_tile]
  split
  · next h => rw [← h]; exact hx
  · exact hx

/-- A teardown's first steps leave the partition its tiles and its sequencer, and they start no module-fatal state. -/
theorem tearStart_kept (code : Option Nat) : ((s.tearStart p code).part p).tiles = (s.part p).tiles ∧
    ((s.tearStart p code).part p).seq = (s.part p).seq ∧ (s.tearStart p code).ras.fatal = s.ras.fatal := by
  have hstarted := StandingKept.frame.tearStart_of_setPartState s StandingKept.passesMemory p code
  obtain ⟨-, htiles, hseq, -⟩ := hstarted.fields p
  have hpart : (s.setPartState p 2).part p = { s.part p with state := 2 } := (part_setPartState ..).trans (if_pos rfl)
  exact ⟨by rw [htiles, hpart], by rw [hseq, hpart], by rw [hstarted.fatal, (setPartState_kept s p 2).2.2]⟩

theorem partTiles_tearStart (code : Option Nat) : (s.tearStart p code).partTiles p = s.partTiles p := by
  rw [State.partTiles, State.partTiles, (tearStart_kept s p code).1]

/-- A teardown's first steps leave no token in a queue of the partition. -/
theorem tokq_tearStart (code : Option Nat) : ∀ t ∈ s.partTiles p, ((s.tearStart p code).tile t).tokq = [] := by
  obtain ⟨reset, hreset⟩ : ∃ reset : State, s.tearStart p code = (reset.dropTokens p).flushRuntime p := ⟨_, rfl⟩
  have hdropped : StandingKept reset (s.tearStart p code) :=
    hreset ▸ (StandingKept.frame.dropTokens reset p).trans (StandingKept.frame.flushRuntime _ p)
  rw [← partTiles_tearStart s p code, partTiles_of_standingKept hdropped, hreset]
  exact tokq_dropTokens reset p

/-! ### The last steps -/

/-- A tile whose rows and stream slots a teardown has emptied. -/
structure Tile.Emptied (y : Tile) : Prop where
  spad : y.spad = []
  slots : ∀ i, (smGet {} y.slots i).state = 0 ∧ (smGet {} y.slots i).run = none

/-- A stream slot as a teardown leaves it: FREE, without a run. -/
def Slot.freed (e : Slot) : Slot := { e with state := 0, run := none }

/-- A tile as a teardown leaves it: awake, with empty rows and free slots. -/
def Tile.tornDown (y : Tile) : Tile :=
  wakeBanks { y with spad := [], tags := [], gen := [], slots := y.slots.map fun e => (e.1, e.2.freed) }

theorem emptied_tornDown (y : Tile) : y.tornDown.Emptied :=
  ⟨rfl, fun i => smGet_map_of (Q := fun e : Slot => e.state = 0 ∧ e.run = none) ⟨rfl, rfl⟩ (fun _ => ⟨rfl, rfl⟩) y.slots i⟩

/-- Unloading the packages of a partition changes the kernel table and the partition's registers alone. -/
theorem unloadAll_kept : (s.unloadAll p).tiles = s.tiles ∧
    (s.unloadAll p).part p = { s.part p with pkgs := [], rlActive := 0, binds := [] } := by
  have hdropped : ∀ l : List Package, (l.foldl (fun x g => x.dropPackage p g) s).tiles = s.tiles ∧
      (l.foldl (fun x g => x.dropPackage p g) s).parts = s.parts := fun l =>
    List.foldlRecOn (motive := fun x : State => x.tiles = s.tiles ∧ x.parts = s.parts) l _ ⟨rfl, rfl⟩ fun _ hx _ _ => hx
  unfold State.unloadAll
  obtain ⟨htiles, hparts⟩ := hdropped (s.part p).pkgs
  refine ⟨htiles, ?_⟩
  rw [State.modPart_part, if_pos rfl, State.part, hparts]
  rfl

/-- What a teardown's last steps leave. -/
structure TornDown (s u : State) (p st : Nat) : Prop where
  state : (u.part p).state = st
  pkgs : (u.part p).pkgs = []
  binds : (u.part p).binds = []
  hdrs : (u.seq (s.part p).seq).hdrs = []
  emptied : ∀ t ∈ s.partTiles p, (u.tile t).Emptied
  tokq : ∀ t, (u.tile t).tokq = (s.tile t).tokq

theorem tornDown_tearEnd (st : Nat) : TornDown s (s.tearEnd p st) p st := by
  unfold State.tearEnd
  extract_lets unloaded cleared headers
  obtain ⟨htiles, hpart⟩ : unloaded.tiles = s.tiles ∧ unloaded.part p = { s.part p with pkgs := [], rlActive := 0, binds := [] } :=
    unloadAll_kept s p
  have hpartTiles : unloaded.partTiles p = s.partTiles p := by rw [State.partTiles, State.partTiles, hpart]
  have hparts : cleared.parts = unloaded.parts := each_keeps (fun x => x.parts = unloaded.parts) _ rfl fun x hx t _ =>
    (State.modTile_parts x t _).trans hx
  have hcleared : cleared.part p = unloaded.part p := by rw [State.part, State.part, hparts]
  have hemptied : ∀ t ∈ unloaded.partTiles p, (cleared.tile t).Emptied :=
    tile_each_modTile (f := Tile.tornDown) emptied_tornDown _ _
  have htokq : ∀ t, (cleared.tile t).tokq = (unloaded.tile t).tokq := fun t =>
    each_keeps (fun x => (x.tile t).tokq = (unloaded.tile t).tokq) _ rfl fun x hx t' _ => by
      rw [State.modTile_tile]
      split
      · next h => exact (congrArg (fun i => (x.tile i).tokq) h.symm).trans hx
      · exact hx
  have hheaders : headers.part p = cleared.part p := State.modSeq_part ..
  have hheaderTile : ∀ t, headers.tile t = cleared.tile t := State.modSeq_tile _ _ _
  have hhdrs : (headers.seq (cleared.part p).seq).hdrs = [] := by
    unfold headers
    rw [State.modSeq_seq, if_pos rfl]
  rw [hcleared, hpart] at hheaders hhdrs
  clear_value headers cleared unloaded
  obtain ⟨hseqs, htilesKept, -⟩ := setPartState_kept headers p st
  have htile : ∀ t, (headers.setPartState p st).tile t = cleared.tile t := fun t => by
    rw [State.tile, htilesKept, ← hheaderTile, State.tile]
  have hend := part_setPartState headers p st p
  rw [if_pos rfl, hheaders] at hend
  generalize headers.setPartState p st = torn at *
  refine ⟨?state, ?pkgs, ?binds, ?hdrs, fun t ht => ?emptied, fun t => ?tokq⟩
  case state => rw [hend]
  case pkgs => rw [hend]
  case binds => rw [hend]
  case hdrs =>
    rw [State.seq, hseqs]
    exact hhdrs
  case emptied =>
    rw [htile]
    exact hemptied t (by rwa [hpartTiles])
  case tokq => rw [htile, htokq, State.tile, htiles, State.tile]

/-- A teardown whose ledger has drained and holds runs to its last step. -/
theorem tear_of_drained {st : Nat} (hfatal : s.ras.fatal = false) (hdrained : ((s.tearStart p none).part p).ledger.drainedBad = 0)
    (hledger : (s.tearStart p none).ledgerBad p = 0) : s.tear p st none = (s.tearStart p none).tearEnd p st := by
  have hchecked : (s.tearStart p none).checkLedger p false = s.tearStart p none := by
    simp only [State.checkLedger, hledger, ne_eq, not_true_eq_false, if_false, Bool.false_eq_true, ite_self]
  have hruns : (s.tearStart p none).ras.fatal = false := (tearStart_kept s p none).2.2.trans hfatal
  simp only [State.tear, hdrained, ne_eq, not_true_eq_false, false_and, if_false, hchecked, hruns, Bool.false_eq_true]

end

end Sys2Proof.Machine
end

section
/-! Loads and teardowns as commands (R272 to R276, R353, R360, R371). -/

namespace Sys2Proof.Machine

section
variable {s v : State} (hv : s.wake = v) (hrun : s.fw.running ≠ 2)
include hv hrun

/-- A teardown by PF0 of a locked partition is discarded and recorded (R353). -/
theorem exec_teardown_of_locked {p : Nat} (hp : p < 8) (hlocked : v.tdiClosed (p + 1) = true) :
    exec (.teardown ⟨p, true⟩) s = .next (v.record cTdiLocked { part := p, block := 2 }) := by
  change guarded (decide (p < 8)) _ = _
  rw [guarded_next (decide_eq_true hp)]
  simp only [not_true_eq_false, if_false, State.pf0, hrun, hv, hlocked, if_true]

/-- A teardown of a partition that is up, by PF0 or the management interface. -/
theorem exec_teardown_of_up {z : State} {p : Nat} (hp : p < 8) (byPf0 : Bool) (hz : z = if byPf0 then v else s)
    (hopen : byPf0 = true → z.tdiClosed (p + 1) = false) (hload : z.img.loading = none) (hup : z.isUp p = true) :
    exec (.teardown ⟨p, byPf0⟩) s = .next (z.tear p 3 none) := by
  change guarded (decide (p < 8)) _ = _
  rw [guarded_next (decide_eq_true hp)]
  cases byPf0 with
  | true =>
    have hz : z = v := hz
    subst hz
    simp only [not_true_eq_false, if_false, State.pf0, hrun, hv, hopen rfl, Bool.false_eq_true, finishLoad_of_none _ hload, hup,
      if_true]
  | false =>
    have hz : z = s := hz
    subst hz
    simp only [Bool.false_eq_true, not_false_eq_true, if_true, hrun, if_false, finishLoad_of_none _ hload, hup]

variable {source : Nat} {host : List Byte} (hidle : v.img.busy = false) (hscrub : v.scrubbing = false)
include hidle hscrub

/-- A load whose image passes its checks installs it. -/
theorem load_of_valid (hsource : source < 4) {t : State} (ht : v.loadStart source = t)
    (hvalid : source < 3 → (t.copySource source host).2 = 0 ∧ t.validate (t.copySource source host).1 false = none)
    (hfactory : source = 3 → t.factoryCheck = none) (hengine : t.sec.engineCode = 0) (hhalt : t.haltCode = 0)
    {x : Image} {places : List Place} (hcandidate : t.candidate source host = (x, places)) {keep : Nat → Bool}
    (hkeep : (fun p => t.keeps x p) = keep) (htorn : (t.tearOthers keep).haltCode = 0) (himg : v.img = s.img) :
    ∃ u, exec (.load source host .whole) s = .next u ∧ u.img.image = some x ∧ u.img.done = true ∧ u.img.error = false ∧
      u.img.loadedFrom = source + 1 ∧ u.img.loads = (s.img.loads + 1) % 2 ^ 32 ∧
      ∀ p, p < 8 → keep p = false →
        (p < x.m → let pl := places.getD p {}
          (u.part p).state = 1 ∧ (u.part p).tiles = 64 / x.m ∧ (u.part p).seq = p * (8 / x.m) ∧ (u.part p).pkgs = [] ∧
            (u.part p).stks = pl.stks ∧ ((x.fabric.getD {}).colls = [] →
              (u.part p).ledger = freshLedger (x.sub p).credits (x.sub p).ringBytes pl.spillPages (64 / x.m))) ∧
        (x.m ≤ p → (u.part p).state = 0 ∧ (u.part p).tiles = 0) := by
  have hloads : t.img.loads = s.img.loads := by rw [← himg, ← ht]; rfl
  have htornImg : (t.tearOthers keep).img = t.img :=
    (RegistersKept.frame.tearOthers t RegistersKept.passesParts RegistersKept.passesMemory keep).img
  have hload : t.img.loading = none := by rw [← ht]; rfl
  have htry : (v.loadStart source).tryLoad source host .whole = ((t.tearOthers keep).install x places keep (source + 1), 0) := by
    have hbring := bring_whole (places := places) (source := source + 1) hkeep hhalt htorn
    rw [ht, tryLoad_of_valid hsource hvalid hfactory hengine, hcandidate, ← hbring]
  have hended : ((t.tearOthers keep).install x places keep (source + 1)).img.loading = none := by
    rw [install_img, htornImg]
    exact hload
  have himage := install_img (t.tearOthers keep) x places keep (source + 1)
  have hparts : ∀ p, p < 8 → keep p = false → Installed ((t.tearOthers keep).install x places keep (source + 1)) x places p :=
    fun p hp hdown => installed_install _ _ hp hdown
  rw [htornImg, hloads] at himage
  generalize (t.tearOthers keep).install x places keep (source + 1) = u at *
  refine ⟨_, exec_load_of_ended hrun hv hsource hidle hscrub htry hended, ?image, ?done, ?error, ?loadedFrom, ?loads,
    fun p hp hdown => ?parts⟩
  case image => rw [loadOver_img, himage]
  case done => rw [loadOver_img]
  case error => rw [loadOver_img]; rfl
  case loadedFrom => rw [loadOver_img, himage]
  case loads => rw [loadOver_img, himage]
  case parts =>
    obtain ⟨hup, hledger, habsent⟩ := (hparts p hp hdown).of_parts (loadOver_kept u 0).1
    refine ⟨fun hin => ?_, habsent⟩
    have hstanding := hup hin
    simp only [Part.standing, Prod.mk.injEq] at hstanding
    obtain ⟨hstate, htiles, hseq, hstks, hpkgs⟩ := hstanding
    exact ⟨hstate, htiles, hseq, hpkgs, hstks, hledger hin⟩

/-- A load whose image fails a check records the rejection and changes no partition. -/
theorem load_rejected (hsource : source < 3) {t : State} (ht : (v.modImg fun y => { y with source := source }) = t)
    (hcopy : (t.copySource source host).2 = 0) {r : Rejection} (hvalid : t.validate (t.copySource source host).1 false = some r)
    (hfixed : r.open_ = false) {how : LoadEnd} (hserved : (t.sec.engineCode = 0 ∧ how ≠ .mismatch) ∨ r.reason = 20) :
    ∃ u, exec (.load source host how) s = .next u ∧ u.img.done = true ∧ u.img.error = true ∧ u.img.errCode = cImageRejected ∧
      u.img.rejReason = r.reason ∧ u.img.rejSection = r.sect ∧ u.img.image = v.img.image ∧ u.parts = v.parts ∧ u.mem = v.mem := by
  subst ht
  rw [← copySource_loadStart] at hcopy hvalid
  rw [← validate_loadStart] at hvalid
  have hserved' : (v.sec.engineCode = 0 ∧ (how == LoadEnd.mismatch) = false) ∨ r.reason = 20 :=
    hserved.imp_left fun h => ⟨h.1, beq_eq_false_iff_ne.mpr h.2⟩
  have hchecked : (v.loadStart source).checked ((v.loadStart source).copySource source host).1 false (how == .mismatch) = (some r, 0) :=
    checked_of_rejected hvalid hserved'
  have htry : (v.loadStart source).tryLoad source host how = ((v.loadStart source).rejected r, cImageRejected) :=
    tryLoad_of_rejected hsource hcopy hchecked
  refine ⟨_, exec_load_of_ended hrun hv (by omega) hidle hscrub htry (rejected_loading _ r), ?_⟩
  rw [loadOver_img, (loadOver_kept ..).1, (loadOver_kept ..).2, rejected_img_of_fixed _ hfixed]
  exact ⟨rfl, rfl, rfl, rfl, rfl, rfl, rfl, rfl⟩

/-- A load that the signature engine ends reports the engine's code and changes no partition. -/
theorem load_engineFailed (hsource : source < 3) {t : State} (ht : (v.modImg fun y => { y with source := source }) = t)
    (hcopy : (t.copySource source host).2 = 0) {how : LoadEnd} (hengine : t.sec.engineCode ≠ 0 ∨ how = .mismatch)
    (hreached : t.validate (t.copySource source host).1 false = none ∨
      ∃ r, t.validate (t.copySource source host).1 false = some r ∧ r.reason ≠ 19 ∧ r.reason ≠ 20 ∧ r.reason ≠ 21) :
    ∃ u, exec (.load source host how) s = .next u ∧ u.img.done = true ∧ u.img.error = true ∧
      u.img.errCode = (if t.sec.engineCode ≠ 0 then t.sec.engineCode else cPkMismatch) ∧
      u.img.image = v.img.image ∧ u.parts = v.parts ∧ u.mem = v.mem := by
  subst ht
  rw [← copySource_loadStart, ← validate_loadStart] at hreached
  rw [← copySource_loadStart] at hcopy
  have hengine' : v.sec.engineCode ≠ 0 ∨ (how == LoadEnd.mismatch) = true := hengine.imp_right beq_iff_eq.mpr
  generalize hcode : (if v.sec.engineCode ≠ 0 then v.sec.engineCode else cPkMismatch) = code
  have hfailed : code ≠ 0 := by
    rw [← hcode]
    split
    · assumption
    · decide
  have hchecked : (v.loadStart source).checked ((v.loadStart source).copySource source host).1 false (how == .mismatch) =
      (none, code) := by
    rw [← hcode]
    exact checked_of_engine hengine' hreached
  have htry : (v.loadStart source).tryLoad source host how = ((v.loadStart source).engineServed code, code) :=
    tryLoad_of_engine hsource hcopy hchecked hfailed
  have himg := engineServed_img (v.loadStart source) code
  obtain ⟨hparts, hmem⟩ := engineServed_kept (v.loadStart source) code
  refine ⟨_, exec_load_of_ended hrun hv (by omega) hidle hscrub htry (by rw [himg]; rfl), ?_⟩
  rw [loadOver_img, (loadOver_kept ..).1, (loadOver_kept ..).2, himg, hparts, hmem]
  exact ⟨rfl, bne_iff_ne.mpr hfailed, (if_neg hfailed).trans hcode.symm, rfl, rfl, rfl⟩

end

/-- Settles O38: a load by the end of its attempt; a teardown by what its first and its last steps empty. -/
theorem structureLoads : Obligations.StructureLoads := by
  unfold Obligations.StructureLoads
  intro s host hrun v
  have hv : v.img = s.img := (RegistersKept.frame.wake s).img
  refine ⟨?valid, ?rejected, ?engine, ?held, ?locked, ?teardown⟩
  case valid =>
    intro source places hsource hidle hscrub t b x keep hvalid hfactory hengine hhalt htorn hplaces
    have hcandidate : t.candidate source host = (x, places) := by
      rw [State.candidate, hplaces]
      by_cases h : source = 3
      · rw [if_pos h, if_pos h, show x = factoryImage from if_pos h]
      · rw [if_neg h, if_neg h, show x = parseImage b from if_neg h]
    exact load_of_valid rfl hrun hidle hscrub hsource rfl hvalid hfactory hengine hhalt hcandidate rfl htorn hv
  case rejected =>
    intro source how r hsource hidle hscrub t hcopy hvalid hfixed hserved
    rw [← hv]
    exact load_rejected rfl hrun hidle hscrub hsource rfl hcopy hvalid hfixed hserved
  case engine =>
    intro source how hsource hidle hscrub t hcopy hengine hreached
    rw [← hv]
    exact load_engineFailed rfl hrun hidle hscrub hsource rfl hcopy hengine hreached
  case held =>
    intro source how hbefore hduring hheld hscrub
    refine ⟨_, exec_heldLoadStart_of_ended hheld hscrub rfl (tryLoad_loading source host rfl hbefore hduring), ?_⟩
    rw [loadOver_img]
    exact ⟨rfl, rfl, rfl⟩
  case locked => exact fun p hp hlocked => exec_teardown_of_locked rfl hrun hp hlocked
  case teardown =>
    intro p byPf0 hp z hopen hload hup hfatal hdrained hledger
    refine ⟨_, exec_teardown_of_up rfl hrun hp byPf0 rfl hopen hload hup, ?_⟩
    rw [tear_of_drained z p hfatal hdrained hledger]
    obtain ⟨hstate, hpkgs, hbinds, hhdrs, hemptied, htokq⟩ := tornDown_tearEnd (z.tearStart p none) p 3
    rw [(tearStart_kept z p none).2.1] at hhdrs
    rw [partTiles_tearStart] at hemptied
    refine ⟨hstate, hpkgs, hbinds, hhdrs, fun t ht => ?_⟩
    obtain ⟨hspad, hslots⟩ := hemptied t ht
    exact ⟨hspad, by rw [htokq, tokq_tearStart z p none t ht], hslots⟩

end Sys2Proof.Machine
end
